-- ==== Sys2Proof/Word.lean ====
section
/-!
DEFINITION. The word types of the MV5D-256 and their plainest arithmetic (00_scope.md R1, 12_number_formats.md R310).
-/

namespace Sys2Proof

/-- A 32-bit register word (R310). -/
abbrev Word := BitVec 32

/-- One byte of memory. -/
abbrev Byte := BitVec 8

/-- A 64-bit value: a register pair, an address operand or a PC (R212, R231). -/
abbrev DWord := BitVec 64

/-- One bit per lane, lane `l` at bit `l` (R219, R223); bits at and above the width are zero. -/
abbrev Mask := BitVec 64

/-- A 7-bit register name: v0–v119 as 0–119 and h0–h7 as 120–127 (R339). -/
abbrev RegName := BitVec 7

/-- A 3-bit predicate name (R339). -/
abbrev PredName := BitVec 3

/-- The single-bit vector of a truth value. -/
def bit (b : Bool) : BitVec 1 := BitVec.ofBool b

/-- Bits `lo` to `lo + n - 1` of a natural number. -/
def bits (x lo n : Nat) : Nat := x / 2 ^ lo % 2 ^ n

/-- The pair value of a low and a high word (R310). -/
def pairOf (lo hi : Word) : DWord := hi ++ lo

/-- Low word of a pair (R310). -/
def loWord (x : DWord) : Word := x.extractLsb' 0 32

/-- High word of a pair (R310). -/
def hiWord (x : DWord) : Word := x.extractLsb' 32 32

end Sys2Proof
end

