-- ==== Sys2Proof/Config.lean ====
section
/-!
DEFINITION. The constants that the MV5D-256 fixes (00_scope.md, 01, 08 R205) and the free values: results that the
spec bounds or leaves open, as constants without a body, so that no proof can lean on one value (log entry 3).
-/

namespace Sys2Proof

/-- Render dies of the package (01 R5). -/
def Config.dies : Nat := 4
/-- Cores of a render die (08 R206). -/
def Config.coresPerDie : Nat := 64
/-- Virtual functions (03 R62). -/
def Config.functions : Nat := 512
/-- Carousels of a core (08 R205). -/
def Config.carousels : Nat := 128
/-- Register words of a carousel (08 R205). -/
def Config.carouselWords : Nat := 4096
/-- Blocks of a near-tier channel (09 R234). -/
def Config.channelBlocks : Nat := 1966080

/-- Free value: the result an approximated function proposes for an operand; the model takes it when it meets
the bound of 12 R328 (log entry 6). -/
opaque Config.approx : Nat → Nat → Nat

/-- Free value: whether a hardware that may drop a `pref` lane drops it (17 R428; log entry 7). -/
opaque Config.dropPrefetch : Nat → Bool

/-- Free value: words that the spec lets an agent outside the package or its firmware deliver (03 R85; log entry 8), and
bytes whose content the spec does not state. -/
opaque Config.freeWord : Nat → Word

/-- Free value: a field of an image's header or of the configuration record, whose layouts the spec does not give (03 R86, R87;
log entry 8): 1 the SVN, 2 the digest, 3 the signature, 0 the kind; of the configuration record 4 AUTO_SVN, 5 ALARM_POLICY, 6
the serial number, 7 the device number, and 8 + k the route-table entry of device k. -/
opaque Config.imageField : Nat → List Word → Nat

/-- SHA-512, which the spec takes from its standard (03 R86, R91; log entry 8). -/
opaque Config.sha512 : List Word → Nat

/-- Ed25519 (03 R86–R91; log entry 8): whether a signature of a digest verifies under a key, and the signature of a digest. -/
opaque Config.verifies : Nat → Nat → Nat → Bool
opaque Config.sign : Nat → Nat → Nat

/-- The root public key in the mask ROM, the seed of the module's physically unclonable function, and the key that HKDF derives
from a seed and digests (03 R86, R88; log entry 8). -/
opaque Config.rootKey : Nat
opaque Config.seed : Nat
opaque Config.derive : Nat → List Nat → Nat

/-- Free value: the address of the header of a function's frame pool, for which the spec names no register (09 R255; log
entry 8). -/
opaque Config.framePool : Nat → Nat

/-- Free value: the pixel rate in kHz that a port carries at a RATE, LANES and PIXFMT under display stream compression, which
the spec does not state (02 R37; log entry 8). -/
opaque Config.linkCapacity : Nat → Nat → Nat → Nat

/-- Free value: a choice among alternatives between which the spec fixes no order (log entry 9). -/
opaque Config.choice : Nat → Nat

end Sys2Proof
end

