-- ==== Sys2Proof/Syntax.lean ====
section
/-!
DEFINITION. The abstract syntax of the MV5D-256: one constructor of `Instr` for each row of the opcode table,
that is 149 instruction words (13_isa_encoding.md) and 136 events of the package (95_what_each_step_holds.md).
The operation codes inside a word are types of their own, so that an unassigned code has no term (R340).
-/

namespace Sys2Proof

/-- Type codes of MODE.TYPE and of `cvt` (R343). -/
inductive MType where
  | int32 | uint32 | int16x2 | uint16x2 | int64 | uint64 | fp32 | fp16x2 | bf16x2 | fp64
  | e4m3x4 | e5m2x4 | crumb8x4 | int8x4 | uint8x4
  deriving DecidableEq, Repr

/-- Code of a type (R343). -/
def MType.code : MType → BitVec 5
  | .int32 => 0x00 | .uint32 => 0x01 | .int16x2 => 0x02 | .uint16x2 => 0x03 | .int64 => 0x04 | .uint64 => 0x05
  | .fp32 => 0x08 | .fp16x2 => 0x09 | .bf16x2 => 0x0A | .fp64 => 0x0B
  | .e4m3x4 => 0x10 | .e5m2x4 => 0x11 | .crumb8x4 => 0x12 | .int8x4 => 0x13 | .uint8x4 => 0x14

/-- Type of a code; the other codes are reserved (R343). -/
def MType.ofCode (c : BitVec 5) : Option MType :=
  match c.toNat with
  | 0x00 => some .int32 | 0x01 => some .uint32 | 0x02 => some .int16x2 | 0x03 => some .uint16x2
  | 0x04 => some .int64 | 0x05 => some .uint64 | 0x08 => some .fp32 | 0x09 => some .fp16x2
  | 0x0A => some .bf16x2 | 0x0B => some .fp64 | 0x10 => some .e4m3x4 | 0x11 => some .e5m2x4
  | 0x12 => some .crumb8x4 | 0x13 => some .int8x4 | 0x14 => some .uint8x4
  | _ => none

/-- Targets of `mcvt` (R458). -/
inductive TileType where
  | int32 | fp32 | fp16x2 | bf16x2 | e4m3x4 | e5m2x4 | crumb8x4 | int8x4 | uint8x4
  deriving DecidableEq, Repr

/-- The type of a tile target (R458). -/
def TileType.type : TileType → MType
  | .int32 => .int32 | .fp32 => .fp32 | .fp16x2 => .fp16x2 | .bf16x2 => .bf16x2 | .e4m3x4 => .e4m3x4
  | .e5m2x4 => .e5m2x4 | .crumb8x4 => .crumb8x4 | .int8x4 => .int8x4 | .uint8x4 => .uint8x4

/-- The tile target of a type code, where R458 assigns one. -/
def TileType.ofCode (c : BitVec 5) : Option TileType :=
  match c.toNat with
  | 0x00 => some .int32 | 0x08 => some .fp32 | 0x09 => some .fp16x2 | 0x0A => some .bf16x2
  | 0x10 => some .e4m3x4 | 0x11 => some .e5m2x4 | 0x12 => some .crumb8x4 | 0x13 => some .int8x4
  | 0x14 => some .uint8x4
  | _ => none

/-- Conditions of `cmp` (R393). -/
inductive Cond where
  | eq | ne | lt | le | gt | ge | un | or
  deriving DecidableEq, Repr

def Cond.code : Cond → BitVec 4
  | .eq => 0 | .ne => 1 | .lt => 2 | .le => 3 | .gt => 4 | .ge => 5 | .un => 6 | .or => 7

def Cond.ofCode (c : BitVec 4) : Option Cond :=
  match c.toNat with
  | 0 => some .eq | 1 => some .ne | 2 => some .lt | 3 => some .le
  | 4 => some .gt | 5 => some .ge | 6 => some .un | 7 => some .or
  | _ => none

/-- Sign selectors of `class` (R411). -/
inductive SignSel where
  | any | pos | neg
  deriving DecidableEq, Repr

def SignSel.code : SignSel → BitVec 2
  | .any => 0 | .pos => 1 | .neg => 2

def SignSel.ofCode (c : BitVec 2) : Option SignSel :=
  match c.toNat with
  | 0 => some .any | 1 => some .pos | 2 => some .neg
  | _ => none

/-- Kinds of `pfold` (R374). -/
inductive FoldKind where
  | and | or | eqv
  deriving DecidableEq, Repr

def FoldKind.code : FoldKind → BitVec 2
  | .and => 0 | .or => 1 | .eqv => 2

def FoldKind.ofCode (c : BitVec 2) : Option FoldKind :=
  match c.toNat with
  | 0 => some .and | 1 => some .or | 2 => some .eqv
  | _ => none

/-- Operations of `reduce` and `scan` (R372). -/
inductive LaneOp where
  | add | min | max | and | or | xor
  deriving DecidableEq, Repr

def LaneOp.code : LaneOp → BitVec 3
  | .add => 0 | .min => 1 | .max => 2 | .and => 3 | .or => 4 | .xor => 5

def LaneOp.ofCode (c : BitVec 3) : Option LaneOp :=
  match c.toNat with
  | 0 => some .add | 1 => some .min | 2 => some .max | 3 => some .and | 4 => some .or | 5 => some .xor
  | _ => none

/-- Operations of `atom`, `red` and `atoms`, the U bit of `min` and `max` included (R429). -/
inductive AtomOp where
  | add | min | umin | max | umax | and | or | xor | xchg | cas | inc | dec | fadd
  deriving DecidableEq, Repr

/-- sub[4:0] of an atomic operation: U, then the operation (R429). -/
def AtomOp.code : AtomOp → BitVec 5
  | .add => 0 | .min => 1 | .umin => 17 | .max => 2 | .umax => 18 | .and => 3 | .or => 4 | .xor => 5
  | .xchg => 6 | .cas => 7 | .inc => 8 | .dec => 9 | .fadd => 10

def AtomOp.ofCode (c : BitVec 5) : Option AtomOp :=
  match c.toNat with
  | 0 => some .add | 1 => some .min | 17 => some .umin | 2 => some .max | 18 => some .umax
  | 3 => some .and | 4 => some .or | 5 => some .xor | 6 => some .xchg | 7 => some .cas
  | 8 => some .inc | 9 => some .dec | 10 => some .fadd
  | _ => none

/-- Paths of the path counters (R227, R356). -/
inductive Path where
  | copy | matrix | render | queue
  deriving DecidableEq, Repr

def Path.code : Path → BitVec 2
  | .copy => 0 | .matrix => 1 | .render => 2 | .queue => 3

def Path.ofCode (c : BitVec 2) : Path :=
  match c.toNat with
  | 0 => .copy | 1 => .matrix | 2 => .render | _ => .queue

/-- Fence scopes (R285). -/
inductive Scope where
  | group | team | core | die | pair | device | package | fabric
  deriving DecidableEq, Repr

def Scope.code : Scope → BitVec 3
  | .group => 0 | .team => 1 | .core => 2 | .die => 3 | .pair => 4 | .device => 5 | .package => 6 | .fabric => 7

def Scope.ofCode (c : BitVec 3) : Scope :=
  match c.toNat with
  | 0 => .group | 1 => .team | 2 => .core | 3 => .die | 4 => .pair | 5 => .device | 6 => .package | _ => .fabric

/-- Access sizes of format M (R338). -/
inductive AccSize where
  | b16 | b32 | b64 | b128
  deriving DecidableEq, Repr

def AccSize.code : AccSize → BitVec 2
  | .b16 => 0 | .b32 => 1 | .b64 => 2 | .b128 => 3

def AccSize.ofCode (c : BitVec 2) : AccSize :=
  match c.toNat with
  | 0 => .b16 | 1 => .b32 | 2 => .b64 | _ => .b128

/-- Bytes of an access (R341). -/
def AccSize.bytes : AccSize → Nat
  | .b16 => 2 | .b32 => 4 | .b64 => 8 | .b128 => 16

/-- Register names an access of the size reads or writes (R424). -/
def AccSize.names : AccSize → Nat
  | .b16 => 1 | .b32 => 1 | .b64 => 2 | .b128 => 4

/-- A line packet that is sent (R7, R8, R16): its direction, the source and destination die of its message, its class, and
whether the sender's dictionary reports a parity error (R20). -/
structure LineSend where
  dir : Nat
  src : Nat
  dst : Nat
  cls : Nat
  perr : Bool
  deriving DecidableEq, Repr

/-- A line packet that is received: its direction, and whether the receiver's dictionary reports a parity error (R19). -/
structure LineReceipt where
  dir : Nat
  perr : Bool
  deriving DecidableEq, Repr

/-- A genlock reference to which a port locks (R55): its kind (1 for tri-level sync), the cycle of a frame edge, and the cycles of
its frame. -/
structure GenlockEdge where
  port : Nat
  tri : Nat
  edge : Nat
  len : Nat
  deriving DecidableEq, Repr

/-- The instructions and the events of the package, one constructor for each row of the opcode table. -/
inductive Instr where
  /-- NOP (R364): Instruction with no effect. -/
  | nop
  /-- MODE (R363): Writes imm16 into MODE[15:0] from the next instruction. -/
  | mode (imm : BitVec 16)
  /-- MODEX (R363): Writes imm16[5:0] into the trap enables MODE[21:16]. -/
  | modex (imm : BitVec 6)
  /-- BRA (R357): Moves the issuing slot with its whole mask to the target. -/
  | bra (off : BitVec 24)
  /-- BRC (R358): Branches the active lanes whose predicate holds, splitting the slot or pushing the divergence stack when they disagree. -/
  | brc (u : Bool) (n : Bool) (p : PredName) (off : BitVec 19)
  /-- BRN (R359): Moves the slot whole to the target when no active lane holds the predicate. -/
  | brn (n : Bool) (p : PredName) (off : BitVec 19)
  /-- CALL (R360): Writes the return address as a uniform pair and moves the slot to the target. -/
  | call (d : RegName) (off : BitVec 16)
  /-- RET (R361): Moves the slot to the uniform 64-bit address in a pair, with return prediction. -/
  | ret (a : RegName) (ta : Bool)
  /-- JR (R361): Moves the slot to the uniform 64-bit address in a pair. -/
  | jr (a : RegName) (ta : Bool)
  /-- JOIN (R362): Sets the issuing slot's join PC to the target. -/
  | join (off : BitVec 24)
  /-- YIELD (R364): Ends the group's run on its carousel so that the other group may issue. -/
  | yield
  /-- SLEEP (R365): Blocks the issuing slot for 16 x n cycles. -/
  | sleep (n : BitVec 16)
  /-- STOP (R367): Settles, then ends each active lane; the group ends when no lane is live. -/
  | stop
  /-- BAR (R368): Settles, arrives at a barrier and blocks the slot until the phase completes. -/
  | bar (b : BitVec 3)
  /-- BARC (R368): Settles and arrives at a barrier without waiting. -/
  | barc (b : BitVec 3)
  /-- BARW (R368): Settles and blocks the slot while the group's pending bit for the barrier is set. -/
  | barw (b : BitVec 3)
  /-- WAITP (R370): Blocks the slot while a path counter exceeds N, or raises its pending fault. -/
  | waitp (path : Path) (n : BitVec 14)
  /-- SETTLE (R366): Waits until the open run-ahead window has committed. -/
  | settle
  /-- ADD (R387): Adds two registers under the MODE type. -/
  | add (d : RegName) (a : RegName) (b : RegName) (ta : Bool) (tb : Bool)
  /-- SUB (R387): Subtracts b from a under the MODE type. -/
  | sub (d : RegName) (a : RegName) (b : RegName) (ta : Bool) (tb : Bool)
  /-- MUL (R387): Multiplies two registers under the MODE type. -/
  | mul (d : RegName) (a : RegName) (b : RegName) (ta : Bool) (tb : Bool)
  /-- MAD (R387): Computes d + a x b, fused for floating types. -/
  | mad (d : RegName) (a : RegName) (b : RegName) (ta : Bool) (tb : Bool) (k : Bool)
  /-- MIN (R388): Writes the lesser of two operands. -/
  | min (d : RegName) (a : RegName) (b : RegName) (ta : Bool) (tb : Bool)
  /-- MAX (R388): Writes the greater of two operands. -/
  | max (d : RegName) (a : RegName) (b : RegName) (ta : Bool) (tb : Bool)
  /-- ABS (R387): Writes the absolute value of a. -/
  | abs (d : RegName) (a : RegName) (ta : Bool)
  /-- NEG (R387): Writes the negation of a. -/
  | neg (d : RegName) (a : RegName) (ta : Bool)
  /-- CMP (R393): Compares d with a under a condition and writes a predicate bit per active lane. -/
  | cmp (d : RegName) (a : RegName) (any : Bool) (cc : Cond) (ta : Bool) (x : PredName)
  /-- SEL (R394): Moves a into d in the active lanes where the predicate holds. -/
  | sel (d : RegName) (a : RegName) (neg : Bool) (ta : Bool) (x : PredName)
  /-- ADDI (R387): Adds a signed 8-bit immediate to a. -/
  | addi (d : RegName) (a : RegName) (imm : BitVec 8) (ta : Bool)
  /-- MOVL (R395): Writes a zero-extended 16-bit immediate as a uniform value. -/
  | movl (d : RegName) (imm : BitVec 16)
  /-- MOVH (R395): Writes imm16 into the upper half of d, keeping its lower half. -/
  | movh (d : RegName) (imm : BitVec 16) (k : Bool)
  /-- MOV (R395): Copies the bits and shape of a into d. -/
  | mov (d : RegName) (a : RegName) (ta : Bool)
  /-- CLAMP (R388): Computes min(max(d, a), b). -/
  | clamp (d : RegName) (a : RegName) (b : RegName) (ta : Bool) (tb : Bool) (k : Bool)
  /-- MULH (R389): Writes the upper half of the exact product. -/
  | mulh (d : RegName) (a : RegName) (b : RegName) (ta : Bool) (tb : Bool)
  /-- DIV (R390): Long-latency division under the MODE type. -/
  | div (d : RegName) (a : RegName) (b : RegName) (ta : Bool) (tb : Bool)
  /-- REM (R390): Writes the integer remainder of a divided by b. -/
  | rem (d : RegName) (a : RegName) (b : RegName) (ta : Bool) (tb : Bool)
  /-- ADDC (R396): Adds with carry in and out through bit 0 of vD + 1. -/
  | addc (d : RegName) (a : RegName) (b : RegName) (ta : Bool) (tb : Bool) (k : Bool)
  /-- SUBB (R396): Subtracts with borrow in and out through bit 0 of vD + 1. -/
  | subb (d : RegName) (a : RegName) (b : RegName) (ta : Bool) (tb : Bool) (k : Bool)
  /-- AND (R397): Bitwise and. -/
  | and (d : RegName) (a : RegName) (b : RegName) (ta : Bool) (tb : Bool)
  /-- OR (R397): Bitwise or. -/
  | or (d : RegName) (a : RegName) (b : RegName) (ta : Bool) (tb : Bool)
  /-- XOR (R397): Bitwise exclusive or. -/
  | xor (d : RegName) (a : RegName) (b : RegName) (ta : Bool) (tb : Bool)
  /-- ANDN (R397): Bitwise a and not b. -/
  | andn (d : RegName) (a : RegName) (b : RegName) (ta : Bool) (tb : Bool)
  /-- NOT (R397): Bitwise not of a. -/
  | not (d : RegName) (a : RegName) (ta : Bool)
  /-- SHL (R398): Shifts a left by a register count. -/
  | shl (d : RegName) (a : RegName) (b : RegName) (ta : Bool) (tb : Bool)
  /-- SHR (R398): Shifts a right by a register count, arithmetic or logical by type. -/
  | shr (d : RegName) (a : RegName) (b : RegName) (ta : Bool) (tb : Bool)
  /-- ROT (R398): Rotates a left by a register count. -/
  | rot (d : RegName) (a : RegName) (b : RegName) (ta : Bool) (tb : Bool)
  /-- SHLI (R398): Shifts a left by an immediate count. -/
  | shli (d : RegName) (a : RegName) (n : BitVec 6) (ta : Bool)
  /-- SHRI (R398): Shifts a right by an immediate count. -/
  | shri (d : RegName) (a : RegName) (n : BitVec 6) (ta : Bool)
  /-- ANDI (R397): Ands each element with a zero-extended immediate. -/
  | andi (d : RegName) (a : RegName) (imm : BitVec 8) (ta : Bool)
  /-- ORI (R397): Ors each element with a zero-extended immediate. -/
  | ori (d : RegName) (a : RegName) (imm : BitVec 8) (ta : Bool)
  /-- XORI (R397): Exclusive-ors each element with a zero-extended immediate. -/
  | xori (d : RegName) (a : RegName) (imm : BitVec 8) (ta : Bool)
  /-- BFE (R399): Extracts a bit field of a. -/
  | bfe (d : RegName) (a : RegName) (b : RegName) (ta : Bool) (tb : Bool)
  /-- BFI (R399): Inserts a bit field of a into d. -/
  | bfi (d : RegName) (a : RegName) (b : RegName) (ta : Bool) (tb : Bool) (k : Bool)
  /-- POPC (R400): Counts the 1 bits of each element. -/
  | popc (d : RegName) (a : RegName) (ta : Bool)
  /-- CLZ (R400): Counts leading zeros of each element. -/
  | clz (d : RegName) (a : RegName) (ta : Bool)
  /-- CTZ (R400): Counts trailing zeros of each element. -/
  | ctz (d : RegName) (a : RegName) (ta : Bool)
  /-- BREV (R400): Reverses the bits of each element. -/
  | brev (d : RegName) (a : RegName) (ta : Bool)
  /-- PERM (R401): Builds a word from the bytes of a and b under selectors in d. -/
  | perm (d : RegName) (a : RegName) (b : RegName) (ta : Bool) (tb : Bool) (k : Bool)
  /-- LEA (R402): Advances a 64-bit pointer pair by a scaled, extended 32-bit index. -/
  | lea (d : RegName) (a : RegName) (zx : Bool) (sh : BitVec 3) (ta : Bool)
  /-- RCP (R407): Approximate reciprocal. -/
  | rcp (d : RegName) (a : RegName) (ta : Bool)
  /-- RSQ (R407): Approximate reciprocal square root. -/
  | rsq (d : RegName) (a : RegName) (ta : Bool)
  /-- SQRT (R407): Square root, correctly rounded under F and D. -/
  | sqrt (d : RegName) (a : RegName) (ta : Bool)
  /-- EXP2 (R407): Approximate base-2 exponential. -/
  | exp2 (d : RegName) (a : RegName) (ta : Bool)
  /-- LOG2 (R407): Approximate base-2 logarithm. -/
  | log2 (d : RegName) (a : RegName) (ta : Bool)
  /-- SIN (R407): Approximate sine of an argument in turns. -/
  | sin (d : RegName) (a : RegName) (ta : Bool)
  /-- COS (R407): Approximate cosine of an argument in turns. -/
  | cos (d : RegName) (a : RegName) (ta : Bool)
  /-- FRACT (R408): Writes a - floor(a) rounded toward zero. -/
  | fract (d : RegName) (a : RegName) (ta : Bool)
  /-- RND (R408): Rounds a to an integral value by MODE.RND. -/
  | rnd (d : RegName) (a : RegName) (ta : Bool)
  /-- LDEXP (R409): Computes a x 2^n, rounded once. -/
  | ldexp (d : RegName) (a : RegName) (b : RegName) (ta : Bool) (tb : Bool)
  /-- FREXPM (R410): Writes the mantissa of a in [0.5, 1). -/
  | frexpm (d : RegName) (a : RegName) (ta : Bool)
  /-- FREXPE (R410): Writes the exponent of a as an integer. -/
  | frexpe (d : RegName) (a : RegName) (ta : Bool)
  /-- CLASS (R411): Writes a predicate bit when a's class and sign match the mask and selector. -/
  | fpClass (sel : SignSel) (a : RegName) (cls : BitVec 6) (ta : Bool) (x : PredName)
  /-- CVT (R415): Converts elements from the source type to the MODE type. -/
  | cvt (d : RegName) (a : RegName) (src : MType) (ta : Bool)
  /-- PACK (R418): Packs the low halves of a pair into one 16-bit packed word. -/
  | pack (d : RegName) (a : RegName) (ta : Bool)
  /-- UNPACK (R418): Unpacks two 16-bit elements into a pair of names. -/
  | unpack (d : RegName) (a : RegName) (ta : Bool)
  /-- COPYSIGN (R412): Writes the magnitude of a with the sign of b. -/
  | copysign (d : RegName) (a : RegName) (b : RegName) (ta : Bool) (tb : Bool)
  /-- DOT2 (R413): Fused two-element dot product of 16-bit pairs accumulated into FP32 d. -/
  | dot2 (d : RegName) (a : RegName) (b : RegName) (ta : Bool) (tb : Bool) (k : Bool)
  /-- SHFL (R373): Reads a from lane b mod W. -/
  | shfl (d : RegName) (a : RegName) (b : RegName) (ta : Bool) (tb : Bool)
  /-- SHFLX (R373): Reads a from lane l xor b. -/
  | shflx (d : RegName) (a : RegName) (b : RegName) (ta : Bool) (tb : Bool)
  /-- SHFLU (R373): Reads a from lane l - b, or keeps its own. -/
  | shflu (d : RegName) (a : RegName) (b : RegName) (ta : Bool) (tb : Bool)
  /-- SHFLD (R373): Reads a from lane l + b, or keeps its own. -/
  | shfld (d : RegName) (a : RegName) (b : RegName) (ta : Bool) (tb : Bool)
  /-- PFOLD (R374): Folds a predicate across active lanes into one bit written to every active lane. -/
  | pfold (pd : PredName) (neg : Bool) (kind : FoldKind) (x : PredName)
  /-- BALLOT (R375): Writes a uniform mask of active lanes where the predicate holds. -/
  | ballot (d : RegName) (neg : Bool) (x : PredName)
  /-- RDFIRST (R376): Writes a in the lowest active lane as a uniform value. -/
  | rdfirst (d : RegName) (a : RegName) (ta : Bool)
  /-- RDLANE (R376): Writes a in lane b mod W as a uniform value. -/
  | rdlane (d : RegName) (a : RegName) (b : RegName) (ta : Bool) (tb : Bool)
  /-- WRLANE (R377): Writes one value into one lane of d. -/
  | wrlane (d : RegName) (a : RegName) (b : RegName) (ta : Bool) (tb : Bool) (k : Bool)
  /-- MATCH (R378): Writes in each active lane the set of active lanes holding the same word. -/
  | matchLanes (d : RegName) (a : RegName) (ta : Bool)
  /-- REDUCE (R380): Combines a over the active lanes in ascending order into a uniform result. -/
  | reduce (d : RegName) (a : RegName) (op : LaneOp) (ta : Bool)
  /-- SCAN (R380): Writes an inclusive or exclusive prefix combination over the active lanes. -/
  | scan (d : RegName) (a : RegName) (ex : Bool) (op : LaneOp) (ta : Bool)
  /-- AFF (R381): Writes an affine value with base a and stride b. -/
  | aff (d : RegName) (a : RegName) (b : RegName) (ta : Bool) (tb : Bool)
  /-- SHAPE (R381): Writes the shape tag of a as a uniform value. -/
  | shape (d : RegName) (a : RegName) (ta : Bool)
  /-- GEN (R381): Writes a as a general value. -/
  | gen (d : RegName) (a : RegName) (ta : Bool)
  /-- UNI (R381): Writes a as uniform when all active lanes agree, otherwise raises UNIFORMITY. -/
  | uni (d : RegName) (a : RegName) (ta : Bool)
  /-- LD (R425): Loads from virtual memory into d per active lane. -/
  | ld (d : RegName) (a : RegName) (sz : AccSize) (off : BitVec 6) (ta : Bool)
  /-- ST (R425): Stores d to virtual memory per active lane. -/
  | st (d : RegName) (a : RegName) (sz : AccSize) (off : BitVec 6) (ta : Bool) (k : Bool)
  /-- LDB (R425): Loads one byte, zero- or sign-extended. -/
  | ldb (d : RegName) (a : RegName) (sx : Bool) (off : BitVec 6) (ta : Bool)
  /-- STB (R425): Stores one byte. -/
  | stb (d : RegName) (a : RegName) (off : BitVec 6) (ta : Bool) (k : Bool)
  /-- LDS (R425): Loads from the team's scratchpad. -/
  | lds (d : RegName) (a : RegName) (sz : AccSize) (off : BitVec 6) (ta : Bool)
  /-- STS (R425): Stores to the team's scratchpad. -/
  | sts (d : RegName) (a : RegName) (sz : AccSize) (off : BitVec 6) (ta : Bool) (k : Bool)
  /-- LDW (R425): Loads through a scratchpad window handle as an active message. -/
  | ldw (d : RegName) (a : RegName) (sz : AccSize) (off : BitVec 6) (ta : Bool)
  /-- STW (R425): Stores through a scratchpad window handle as an active message. -/
  | stw (d : RegName) (a : RegName) (sz : AccSize) (off : BitVec 6) (ta : Bool) (k : Bool)
  /-- ATOM (R431): Atomic read-modify-write on memory per active lane, in L1 or at the home. -/
  | atom (d : RegName) (a : RegName) (home : Bool) (op : AtomOp) (ta : Bool) (w64 : Bool)
  /-- RED (R433): Atomic reduction performed at the home with no result. -/
  | red (d : RegName) (a : RegName) (op : AtomOp) (ta : Bool) (w64 : Bool)
  /-- ATOMS (R431): Atomic operation on scratchpad or a window. -/
  | atoms (d : RegName) (a : RegName) (win : Bool) (op : AtomOp) (ta : Bool) (w64 : Bool)
  /-- PREF (R428): Brings lines into L1 in state S without an event. -/
  | pref (a : RegName) (sz : AccSize) (off : BitVec 6) (ta : Bool)
  /-- LDONE (R427): Loads once for the group at a uniform address into a uniform value. -/
  | ldone (d : RegName) (a : RegName) (sz : AccSize) (off : BitVec 6) (ta : Bool)
  /-- WOPEN (R435): Opens a scratchpad window and returns its handle. -/
  | wopen (d : RegName) (a : RegName) (sw : Bool) (ta : Bool)
  /-- WCLOSE (R436): Closes a scratchpad window and advances its generation. -/
  | wclose (a : RegName) (ta : Bool)
  /-- FENCE (R437): Settles and waits for earlier off-order work of its scope. -/
  | fence (scope : Scope)
  /-- WAITC (R438): Waits on a condition monitor while a word equals a value. -/
  | waitc (a : RegName) (b : RegName) (ta : Bool) (tb : Bool)
  /-- TICKET (R440): Draws NEXT from a ticket booth and increments it. -/
  | ticket (d : RegName) (a : RegName) (ta : Bool)
  /-- SERVE (R440): Increments a booth's SERVING and wakes its waiters. -/
  | serve (a : RegName) (ta : Bool)
  /-- WAITT (R440): Waits until a booth's SERVING reaches a ticket. -/
  | waitt (a : RegName) (b : RegName) (ta : Bool) (tb : Bool)
  /-- TASKDEC (R441): Deferred decrement of a task slot's counter. -/
  | taskdec (a : RegName) (n : BitVec 8) (ta : Bool)
  /-- MCFG (R446): Sets the group's tile configuration from three uniform names. -/
  | mcfg (a : RegName) (ta : Bool)
  /-- MMA (R452): One-block matrix multiply-accumulate into a tile. -/
  | mma (a : RegName) (ta : Bool)
  /-- MLOOP (R451): Multi-block matrix multiply-accumulate into a tile. -/
  | mloop (a : RegName) (ta : Bool)
  /-- MRD (R455): Reads a tile row fragment into registers. -/
  | mrd (d : RegName) (a : RegName) (b : RegName) (ta : Bool) (tb : Bool)
  /-- MWR (R456): Writes register values into a tile row fragment. -/
  | mwr (d : RegName) (a : RegName) (b : RegName) (ta : Bool) (tb : Bool) (k : Bool)
  /-- MCLR (R457): Sets every word of a tile to +0. -/
  | mclr (a : RegName) (ta : Bool)
  /-- MCVT (R458): Converts a tile from FP32 into a narrower type in a destination tile. -/
  | mcvt (d : RegName) (a : RegName) (target : TileType) (ta : Bool)
  /-- COPY (R465): Asynchronous linear copy as one event at its single point. -/
  | copy (a : RegName) (ta : Bool)
  /-- COPYT (R465): Asynchronous two-dimensional copy as one event at its single point. -/
  | copyt (a : RegName) (ta : Bool)
  /-- BIN (R472): Deferred binning of a patch into the bucket lists of a frame. -/
  | bin (a : RegName) (ta : Bool)
  /-- DICE (R473): Deferred dicing of a patch from a cursor into at most one grid. -/
  | dice (a : RegName) (ta : Bool)
  /-- GLD (R475): Loads from a grid of the owned bucket. -/
  | gld (d : RegName) (a : RegName) (sz : AccSize) (off : BitVec 6) (ta : Bool)
  /-- GST (R476): Stores to a grid of the owned bucket, sparing protected bits. -/
  | gst (d : RegName) (a : RegName) (sz : AccSize) (off : BitVec 6) (ta : Bool) (k : Bool)
  /-- RAST5 (R477): Returns covered samples of a micropolygon from a token onward. -/
  | rast5 (d : RegName) (a : RegName) (b : RegName) (ta : Bool) (tb : Bool)
  /-- RAST3 (R478): Returns covered samples of a given triangle from a token onward. -/
  | rast3 (d : RegName) (a : RegName) (b : RegName) (ta : Bool) (tb : Bool)
  /-- SWR (R479): Writes samples into the owned bucket's sample buffer. -/
  | swr (d : RegName) (a : RegName) (ta : Bool) (k : Bool)
  /-- RESOLVE (R480): Deferred resolve of the owned bucket into output pixels. -/
  | resolve (a : RegName) (ta : Bool)
  /-- TRACE (R481): Traces a ray per active lane through a BVH. -/
  | trace (d : RegName) (a : RegName) (b : RegName) (ta : Bool) (tb : Bool)
  /-- REGROUP (R486): Sends each active lane's payload into a pipeline queue row. -/
  | regroup (d : RegName) (a : RegName) (ta : Bool) (k : Bool)
  /-- ENQ (R487): Deferred launch from a LAUNCH record in memory. -/
  | enq (a : RegName) (ta : Bool)
  /-- SAMPLE (R484): Samples level 0 of a texture per active lane. -/
  | sample (d : RegName) (a : RegName) (b : RegName) (ta : Bool) (tb : Bool)
  /-- SAMPLEG (R485): Samples a texture at a level of detail between two levels. -/
  | sampleg (d : RegName) (a : RegName) (b : RegName) (ta : Bool) (tb : Bool)
  /-- BKT_OPEN (R150): Opens a frame slot from a frame descriptor and returns its handle. -/
  | bktOpen (d : RegName) (a : RegName) (ta : Bool)
  /-- BKT_SEAL (R152): Seals a frame and blocks until the seal takes effect. -/
  | bktSeal (a : RegName) (ta : Bool)
  /-- BKT_CLAIM (R174): Claims the head bucket of the die's deque for the team. -/
  | bktClaim (d : RegName) (a : RegName) (ta : Bool)
  /-- BKT_CLOSE (R151): Closes a frame slot unless a bucket is owned. -/
  | bktClose (d : RegName) (a : RegName) (ta : Bool)
  /-- BKT_FREE (R471): Releases a grid of the owned bucket after its accesses complete. -/
  | bktFree (a : RegName) (ta : Bool)
  /-- XST (R489): Settles and sends a remote store message to a peer window. -/
  | xst (d : RegName) (a : RegName) (b : RegName) (ta : Bool) (tb : Bool) (k : Bool)
  /-- PRESENT (R492): Settles and hands a frame record to the display engine. -/
  | present (a : RegName) (ta : Bool)
  /-- CSRR (R494): Reads a special register into d. -/
  | csrr (d : RegName) (csr : BitVec 12)
  /-- CSRW (R495): Writes a special register from d. -/
  | csrw (d : RegName) (csr : BitVec 12) (k : Bool)
  /-- TRAP (R496): Settles and raises SOFTWARE as a completing trap. -/
  | trap (n : BitVec 16)
  /-- RFT (R298): Leaves trap mode, restoring MODE and resuming at TRAPPC or TRAPPC + 4. -/
  | rft (next : Bool)
  /-- SAVE (R498): In trap mode, stores the group's register image to memory. -/
  | save (a : RegName) (ta : Bool)
  /-- REST (R498): In trap mode, loads the group's register image from memory. -/
  | rest (a : RegName) (ta : Bool)
  /-- WATCHDOG (R297): Watchdog reaches 65,536 cycles in trap mode and halts the group. -/
  | watchdog (g : Nat)
  /-- SLEEP_EXPIRY (R365): A sleeping slot's count runs out and it becomes issuable. -/
  | sleepExpiry (g : Nat) (slotB : Bool)
  /-- FORCED_SWITCH (R128): A group reaches 1,024 pass-cycles in a row and the carousel switches groups. -/
  | forcedSwitch (g : Nat)
  /-- PRODUCER_COMPLETE (R217): A long-latency producer writes its result and marks its destinations full. -/
  | producerComplete (g : Nat) (id : Nat)
  /-- WINDOW_COMMIT (R267): All accesses of a run-ahead window have performed; its events are placed, stores drain and deferred operations are released. -/
  | windowCommit (g : Nat)
  /-- ANCHOR_GRANT (R277): A home grants its anchor to the waiting group of oldest ticket. -/
  | anchorGrant (g : Nat) (line : Nat)
  /-- ANCHOR_TIMEOUT (R277): An anchored window waits 4,096 cycles on memory and rolls back, freeing its anchors. -/
  | anchorTimeout (g : Nat)
  /-- ATOM_HOLD_TIMEOUT (R273): An external request delayed by a speculative atom for 512 cycles rolls the window back and is served. -/
  | atomHoldTimeout (g : Nat)
  /-- OWNERSHIP_REQUEST (R248): The home receives an ownership request, grants it and sends invalidations. -/
  | ownershipRequest (core : Nat) (line : Nat)
  /-- OWNERSHIP_GRANT (R248): The requester receives a grant and may queue its store. -/
  | ownershipGrant (core : Nat) (line : Nat)
  /-- INVALIDATION (R248): A holder receives an invalidation, drops its copy and acknowledges. -/
  | invalidation (holder : Nat) (line : Nat)
  /-- INVALIDATION_ACKNOWLEDGEMENT (R248): The requester counts an acknowledgement toward commit. -/
  | invalidationAcknowledgement (core : Nat) (line : Nat)
  /-- HOME_ATOMIC_PERFORM (R432): A lane of a home-performed atom or red is performed at the home. -/
  | homeAtomicPerform (g : Nat)
  /-- ACTIVE_MESSAGE (R252): The opener's bank unit executes a window access as one event. -/
  | activeMessage (core : Nat)
  /-- MONITOR_WAKE (R438): A write to a monitored line wakes its waiters to re-read. -/
  | monitorWake (line : Nat)
  /-- MONITOR_RECHECK (R140): A waiter without a monitor re-reads its line every 1,800 cycles. -/
  | monitorRecheck (g : Nat) (slotB : Bool)
  /-- ENGINE_OP_START (R279): A released engine operation registers its range locks and starts. -/
  | engineOpStart (id : Nat)
  /-- SINGLE_POINT (R282): An engine operation releases its last range, placing its writes and lowering its path counter. -/
  | singlePoint (id : Nat)
  /-- DICE_SERVICE (R173): The slicer takes the next dice operation and visits pieces. -/
  | diceService (die : Nat) (cluster : Nat)
  /-- BIN_PERFORM (R155): A bin operation reads its patch and appends references to bucket lists. -/
  | binPerform (id : Nat)
  /-- POOL_LIMIT_WAKE (R159): A write changing LIMIT wakes parked allocations to retry in order. -/
  | poolLimitWake (addr : Nat)
  /-- FRAME_SEAL_EFFECT (R152): A seal takes effect after earlier bins and deals the buckets. -/
  | frameSealEffect (vf : Nat) (dev : Nat) (h : Nat)
  /-- RESOLVE_START (R189): A resolve starts once the group's sample writes are applied, ending ownership for writes. -/
  | resolveStart (id : Nat)
  /-- RESOLVE_COMPLETE (R176): A resolve's output stores perform and the bucket becomes DONE. -/
  | resolveComplete (id : Nat)
  /-- BUCKET_RETURN (R177): An owned bucket whose team stopped or was discarded returns to its deque head. -/
  | bucketReturn (team : Nat)
  /-- REMAINING_COUNT_UPDATE (R136): A distributor receives another die's remaining count and may send a steal request. -/
  | remainingCountUpdate (die : Nat) (src : Nat)
  /-- STEAL_SERVE (R136): The victim serves a steal by taking half its remaining buckets from the tail. -/
  | stealServe (die : Nat)
  /-- STEAL_COMPLETE (R136): Stolen buckets are appended to the thief's deque and waiting claims are served. -/
  | stealComplete (die : Nat)
  /-- TEAM_PLACEMENT (R126): The distributor places waiting teams on eligible cores when resources free or a launch becomes ready. -/
  | teamPlacement (launch : Nat)
  /-- RESERVATION_TIMEOUT (R127): A team waits RESVWAIT x 256 cycles and the distributor reserves a core for it. -/
  | reservationTimeout (launch : Nat)
  /-- QUEUE_ROW_LAUNCH (R131): The queue manager launches a pipeline row as a one-group team. -/
  | queueRowLaunch (launch : Nat) (die : Nat) (queue : Nat)
  /-- ROW_AGE_LIMIT (R131): A queue's oldest row reaches its age limit and is favoured. -/
  | rowAgeLimit (launch : Nat) (die : Nat) (queue : Nat)
  /-- PIPELINE_DRAIN (R132): With the pipeline's own teams finished, incomplete rows are launched regardless of age. -/
  | pipelineDrain (launch : Nat)
  /-- SWAP_OUT (R139): A team blocked for SWAPWAIT x 1,024 cycles is saved and its resources freed. -/
  | swapOut (team : Nat)
  /-- PREEMPT_DECISION (R142): The distributor chooses victims so that a waiting higher-priority team fits. -/
  | preemptDecision (launch : Nat)
  /-- PREEMPT (R300): A victim group stops at an instruction boundary, rolling back its window and stopping its engine operations. -/
  | preempt (team : Nat)
  /-- TEAM_SAVE_DONE (R304): The last store of a team's save performs and its resources are freed. -/
  | teamSaveDone (team : Nat)
  /-- TEAM_RESTORE (R308): A saved team is read back, engine records handed back and groups resumed. -/
  | teamRestore (team : Nat)
  /-- LEAVE_GRANT (R113): The die governor grants power leave, lowering the clock if over budget. -/
  | leaveGrant (die : Nat)
  /-- TRACE_BURST_IDLE (R112): The ray unit has no ray in flight for 256 cycles and releases its leave. -/
  | traceBurstIdle (core : Nat)
  /-- ARBITER_GRANT (R101): An arbiter grants a waiting request, charging tokens or counting a borrow. -/
  | arbiterGrant (arb : Nat)
  /-- MESH_OUTPUT_ARBITRATION (R111): A free mesh output grants a head by promotion or weighted round. -/
  | meshOutputArbitration (output : Nat)
  /-- HEAD_PROMOTED (R110): A waiting head's age reaches PROMOTE and it is promoted. -/
  | headPromoted (output : Nat) (input : Nat)
  /-- WAY_RECLAIM_EVICTION (R105): The slice evicts a borrower's line from a reclaimed way at a bounded rate. -/
  | wayReclaimEviction (slice : Nat)
  /-- INVALIDATE_DONE (R240): The invalidation completes and BUSY clears. -/
  | invalidateDone (vf : Nat)
  /-- FAULT_POST (R243): A replayable fault posts its record to the fault ring and signals vector 64. -/
  | faultPost (vf : Nat)
  /-- HEAT_FLUSH (R255): A translation cache adds its far-tier access count to the leaf's HEAT. -/
  | heatFlush (die : Nat) (idx : Nat)
  /-- LINE_PACKET_RECEIVE (R14): A receiver decodes a line packet and updates its dictionary. -/
  | linePacketReceive (p : LineReceipt)
  /-- RESYNC (R19): A sender receives RESYNC, clears its dictionary, advances its epoch and retransmits. -/
  | resync (dir : Nat)
  /-- OPP_PATH_SWITCH (R9): Old-path opposite-die messages are accepted and held messages go by the new path. -/
  | oppPathSwitch (die : Nat)
  /-- STARTUP_STAGE_DONE (R31): A start-up stage completes; after the last the module reports ready. -/
  | startupStageDone (ok : Bool)
  /-- TAIL_LINE_INVALIDATE (R70): A host write invalidates a monitored tail line and the front end re-reads it. -/
  | tailLineInvalidate (vf : Nat) (q : Nat)
  /-- ABORT_DONE (R81): All discards and ABORTED completions are done and the queue is DISABLED. -/
  | abortDone (vf : Nat) (q : Nat)
  /-- LAUNCH (R74): A LAUNCH record is read and accepted. -/
  | launch (vf : Nat) (q : Nat)
  /-- SIGNAL (R75): A SIGNAL record is accepted and later stores its value. -/
  | signal (vf : Nat) (q : Nat)
  /-- WAITMEM (R75): A WAITMEM record is accepted and watches a word. -/
  | waitmem (vf : Nat) (q : Nat)
  /-- COUNTER (R75): A COUNTER record decrements a task slot. -/
  | counter (vf : Nat) (q : Nat)
  /-- NOP_RECORD (R75): A NOP record is accepted and completes. -/
  | nopRecord (vf : Nat) (q : Nat)
  /-- RECORD_START (R76): A waiting record starts once earlier records or WAITMEM complete. -/
  | recordStart (vf : Nat) (q : Nat) (seq : Nat)
  /-- LAUNCH_COMPLETE (R76): Every team and operation of a launch has finished or it faults. -/
  | launchComplete (launch : Nat)
  /-- COMPLETION_WRITE (R78): A completion record is written in SEQ order and MSI-X is signalled. -/
  | completionWrite (vf : Nat) (q : Nat)
  /-- ILLEGAL_OPCODE (R344): A word with an unassigned opcode, or with a nonzero unused field or unassigned sub value, is issued and raises ILLEGAL_OPCODE. -/
  | illegalOpcode (w : Word)
  /-- PCIE_READ_RETURN (R286): The PCIe read that a fence issues after stores to COH 0 host memory returns, ending the fence's wait. -/
  | pcieReadReturn (g : Nat)
  /-- BAD_OP_RECORD (R72): A submission record with a reserved OP is read, and the queue enters FAULTED with FCAUSE 4. -/
  | badOpRecord (vf : Nat) (q : Nat)
  /-- INVALIDATE (R240): A write of INVCTL with BUSY 1 invalidates cached translations of a range. -/
  | invalidate (vf : Nat)
  /-- TRANSLATION_RESUME (R244): A write of a TAG to RESUME retries every agent parked on that fault. -/
  | translationResume (vf : Nat) (tag : Nat)
  /-- MRTAIL_WRITE (R257): A write of MRTAIL publishes new migration records. -/
  | mrtailWrite (v : Nat)
  /-- PATROL_SCRUB (R25): The scrubber reads a line, correcting or poisoning it; `errs` more of its symbols are in error. -/
  | patrolScrub (line errs : Nat)
  /-- DIE_LINK_FLIT_CRC_FAIL (R11): A die-link flit fails its CRC and is replayed from the retry buffer. -/
  | dieLinkFlitCrcFail (link : Nat)
  /-- LINK_RETRAIN (R11): Retry fails and the die link retrains with traffic held. -/
  | linkRetrain (link : Nat)
  /-- LINK_RETRAIN_DONE (R11): A retrain completes and held traffic resumes. -/
  | linkRetrainDone (link : Nat)
  /-- LINK_OUT_OF_SERVICE (R12): A link fails four retrains or its training bound and the package stops with a fatal error. -/
  | linkOutOfService (link : Nat)
  /-- LINE_PACKET_SEND (R16): A sender compresses a line into its least-length form and updates its dictionary. -/
  | linePacketSend (p : LineSend) (line : BitVec 1024)
  /-- CUMULATIVE_ACKNOWLEDGEMENT (R20): An acknowledgement frees retransmit-buffer lines. -/
  | cumulativeAcknowledgement (dir : Nat) (seq : Nat)
  /-- DLCTL_WRITE (R9): A write of DLCTL changes compression forms or the opposite-die path. -/
  | dlctlWrite (link : Nat) (v : Nat)
  /-- FABRIC_FLIT_CRC_FAIL (R27): A fabric flit fails its CRC and is replayed. -/
  | fabricFlitCrcFail (port : Nat)
  /-- XST_ARRIVAL (R491): An XST message arrives, is applied through PWIN or discarded, and is acknowledged. -/
  | xstArrival (header : BitVec 128) (payload : List Word)
  /-- XACK (R30): An XACK returns, lowering the sender's unacknowledged count. -/
  | xack (src : Nat) (seq : Nat)
  /-- ARRIVE (R58): The ringmaster records a member's arrival for a swap. -/
  | arrive (header : BitVec 512)
  /-- RELEASE (R59): A member receives a flip release for a swap. -/
  | release (header : BitVec 512)
  /-- REPEAT (R59): A member receives a repeat decision for a swap. -/
  | repeatDecision (header : BitVec 512)
  /-- TIME (R60): A time request is answered or a time response slews the member's pixel clock. -/
  | time (header : BitVec 512)
  /-- HEADER_FLIT_DISCARD (R30): A header flit of unknown KIND is discarded and counted in FABERR. -/
  | headerFlitDiscard (header : BitVec 128)
  /-- FROUTE_WRITE (R28): A route-table write holds new messages to the destination until earlier ones are acknowledged. -/
  | frouteWrite (dev : Nat) (v : Nat)
  /-- THERMAL_THROTTLE (R33): A junction exceeds 105 C and the die's clock is throttled. -/
  | thermalThrottle (die : Nat)
  /-- THERMAL_THROTTLE_END (R33): The junction falls to 100 C and throttling ends. -/
  | thermalThrottleEnd (die : Nat)
  /-- DPCTL_WRITE (R37): A write of DPCTL enables a port after validating its timing, or changes CUTOFF. -/
  | dpctlWrite (port : Nat) (v : Nat)
  /-- DP_LINK_TRAINED (R37): Display firmware completes link training and LINK reads 1. -/
  | dpLinkTrained (port : Nat)
  /-- DP_LINK_LOST (R37): The sink link is lost and LINK reads 0. -/
  | dpLinkLost (port : Nat)
  /-- LINE_0_START (R41): A port begins line 0, showing the built frame and counting DPVCNT. -/
  | line0Start (port : Nat)
  /-- LATCH_LINE (R41): At line VTOTAL - 64 the port takes its pending record or repeats. -/
  | latchLine (port : Nat)
  /-- BAND_WINDOW_OPEN (R44): A band's window opens: the pose is read and steps begin. -/
  | bandWindowOpen (port : Nat) (band : Nat)
  /-- BAND_DEADLINE (R43): A band's step is fixed, written to history and recorded in the fallback map. -/
  | bandDeadline (port : Nat) (band : Nat)
  /-- GENLOCK_LOCKED (R55): A port locks to the genlock reference. -/
  | genlockLocked (r : GenlockEdge)
  /-- GENLOCK_LOST (R55): The genlock reference is lost and GLOCK clears. -/
  | genlockLost (port : Nat)
  /-- DOORBELL_WRITE (R70): A doorbell write sets the queue's tail. -/
  | doorbellWrite (vf : Nat) (q : Nat) (v : Nat)
  /-- QUEUE_ENABLE (R69): QCTL.EN from 0 to 1 initialises the queue or refuses it with FCAUSE 7. -/
  | queueEnable (vf : Nat) (q : Nat)
  /-- DESTROY (R80): QCTL command DESTROY drains the queue. -/
  | destroy (vf : Nat) (q : Nat)
  /-- ABORT (R81): QCTL command ABORT discards the queue's incomplete work. -/
  | abort (vf : Nat) (q : Nat)
  /-- RESUME (R80): QCTL command RESUME returns a faulted queue to ACTIVE. -/
  | resume (vf : Nat) (q : Nat)
  /-- ACKED_WRITE (R79): A write to ACKED consumes completions or sets ACKERR. -/
  | ackedWrite (vf : Nat) (q : Nat) (v : Nat)
  /-- VF_FUNCTION_LEVEL_RESET (R80): A VF reset takes every queue to DISABLED, discarding work. -/
  | vfFunctionLevelReset (vf : Nat)
  /-- SECURITY_ALARM (R90): Cytos raises an alarm, counted or entering ALARMED under ALARM_POLICY. -/
  | securityAlarm (cause : Nat)
  /-- FIRMWARE_REMEASUREMENT (R90): Cytos periodically re-measures running firmware. -/
  | firmwareRemeasurement (ok : Bool)
  /-- SPDM_REQUEST (R89): An SPDM attestation request over DOE is served. -/
  | spdmRequest (code : Nat)
  /-- HOST_CXL_CACHE_ACCESS (R289): A host access through CXL.cache as an event of the order. -/
  | hostCxlCacheAccess (addr : Nat) (write : Bool) (data : List Byte)
  /-- HOST_CXL_MEM_ACCESS (R249): A host CXL.mem access served at the home slice. -/
  | hostCxlMemAccess (addr : Nat) (write : Bool) (data : List Byte)
  /-- BAR2_ACCESS (R249): A physical-function BAR2 access served at the home slice. -/
  | bar2Access (addr : Nat) (write : Bool) (data : List Byte)
  /-- VFBIND_WRITE (R98): A write of VFBIND binds a function or is refused and recorded in SHSTAT. -/
  | vfbindWrite (owner : Nat) (v : Nat)
  /-- SHARE_ENTRY_WRITE (R98): A write of a share entry sets a bucket rate and depth or is refused. -/
  | shareEntryWrite (off : Nat) (v : Nat)
  /-- TASKALLOT_WRITE (R120): A write of TASKALLOT sets a function's task slots or is refused. -/
  | taskallotWrite (vf : Nat) (v : Nat)
  /-- VFMODE_WRITE (R120): A write of VFMODE sets the presentation mode unless a queue is active. -/
  | vfmodeWrite (vf : Nat) (v : Nat)
  /-- BOOTHALLOT_WRITE (R439): A write of BOOTHALLOT assigns booths, zeroing them, or is refused. -/
  | boothallotWrite (vf : Nat) (v : Nat)
  /-- SAVECNT_WRITE (R303): A write of SAVECNT sets save slots or is refused with ERR. -/
  | savecntWrite (vf : Nat) (v : Nat)
  /-- REGISTER_WRITE (R3): A write to a register without behaviour of its own, under its access type. -/
  | registerWrite (off : Nat) (v : Nat)
  /-- FRHEAD_WRITE (R243): Software advances FRHEAD of a fault ring, freeing slots so that faults waiting on a full ring are posted. -/
  | frheadWrite (vf : Nat) (v : Nat)
  /-- MAILBOX_BAD_COMMAND (R85): A write of an unassigned code to MBCMD completes with MBSTAT result 1. -/
  | mailboxBadCommand (code : Nat)
  /-- TASK_DECREMENT (R121): A decrement reaches the task table and updates the slot's counter or early count. -/
  | taskDecrement
  /-- EPOCH_BOUNDARY (R100): Bucket levels refill, new shares apply and cache ways are dealt again. -/
  | epochBoundary
  /-- MOVE_RELEASE (R256): A page move releases its locks, switching all later accesses to the new frame. -/
  | moveRelease
  /-- MIGRATION_RECORD (R257): The engine reads a migration record and performs or refuses its move. -/
  | migrationRecord
  /-- POWER_ON (R31): The module starts its staged start-up. -/
  | powerOn
  /-- THERMAL_TRIP (R33): A junction exceeds 115 C and power is removed from the dies. -/
  | thermalTrip
  /-- FRAME_RECORD_READ (R39): The display engine reads and validates a presented frame record, making it pending or recording a rejection. -/
  | frameRecordRead
  /-- CUTOFF_LINE (R58): The ringmaster checks arrivals and sends RELEASE or REPEAT. -/
  | cutoffLine
  /-- PF_FUNCTION_LEVEL_RESET (R84): A PF reset disables every queue and repeats start-up stages 2 to 5. -/
  | pfFunctionLevelReset
  /-- HOT_RESET (R84): A hot reset of the link repeats start-up stages 2 to 5. -/
  | hotReset
  /-- READ_LIFETIME_RECORD (R85): Mailbox command 0x01 returns the lifetime record. -/
  | readLifetimeRecord
  /-- WRITE_FIRMWARE_IMAGE (R85): Mailbox command 0x02 writes a firmware image to the inactive slot. -/
  | writeFirmwareImage
  /-- COMMIT_SVN (R87): Mailbox command 0x03 advances the SVN counters. -/
  | commitSvn
  /-- WRITE_CONFIGURATION_RECORD (R85): Mailbox command 0x04 writes the configuration record. -/
  | writeConfigurationRecord
  /-- DISPLAY_LINK_QUERY (R85): Mailbox command 0x05 returns display link training results. -/
  | displayLinkQuery
  /-- LIFETIME_RECORD_REWRITE (R91): Cytos rewrites and signs the lifetime record each power-on hour. -/
  | lifetimeRecordRewrite
  /-- INSTRUCTION_FETCH_FAULT (R341): A fetch at a slot's PC with bits [63:49] set, or on an unmapped page, raises PAGE_FAULT or parks the group on a replayable fault. -/
  | instructionFetchFault
  /-- INTERNAL_UNCORRECTABLE_ERROR (R83): An internal uncorrectable error stops the package and sets DEVSTAT.FATAL with FCAUSE 3. -/
  | internalUncorrectableError
  /-- POWER_OFF (R84): The module loses its supply, which ends every state including ALARMED until the next power-on. -/
  | powerOff
  deriving DecidableEq, Repr

end Sys2Proof
end

