-- ==== Sys2Proof/Machine/Numerics.lean ====
section
/-!
DEFINITION. Number formats and arithmetic (12_number_formats.md R310–R330): floating-point values, one rounding of
an exact result, the exceptions it raises, conversions and the approximated functions. Every operation is computed
on exact numbers `m × 2^e` and rounded once.
-/

namespace Sys2Proof.Machine

/-! ### Exceptions (R325) -/

/-- The exceptions of R325 and the integer division by zero of R390. -/
structure Flags where
  inv : Bool := false
  dz : Bool := false
  ovf : Bool := false
  unf : Bool := false
  inx : Bool := false
  idz : Bool := false
  deriving DecidableEq, Repr

/-- No exception. -/
def Flags.none : Flags := {}

/-- The exceptions of two events together. -/
def Flags.or (a b : Flags) : Flags :=
  { inv := a.inv || b.inv, dz := a.dz || b.dz, ovf := a.ovf || b.ovf, unf := a.unf || b.unf,
    inx := a.inx || b.inx, idz := a.idz || b.idz }

def Flags.invalid : Flags := { inv := true }
def Flags.divZero : Flags := { dz := true }
def Flags.inexact : Flags := { inx := true }

/-- TRAPCAUSE.FLAGS: invalid in bit 0 to inexact in bit 4 (R293). -/
def Flags.code (f : Flags) : BitVec 5 :=
  bit f.inx ++ bit f.unf ++ bit f.ovf ++ bit f.dz ++ bit f.inv

/-! ### Formats (R311) -/

inductive FFmt where
  | fp64 | fp32 | fp16 | bf16 | e5m2 | e4m3 | crumb8
  deriving DecidableEq, Repr

/-- Width in bits. -/
def FFmt.width : FFmt → Nat
  | .fp64 => 64 | .fp32 => 32 | .fp16 => 16 | .bf16 => 16 | .e5m2 => 8 | .e4m3 => 8 | .crumb8 => 8

/-- Fraction bits. -/
def FFmt.frac : FFmt → Nat
  | .fp64 => 52 | .fp32 => 23 | .fp16 => 10 | .bf16 => 7 | .e5m2 => 2 | .e4m3 => 3 | .crumb8 => 0

/-- Exponent bits. -/
def FFmt.ebits : FFmt → Nat
  | .fp64 => 11 | .fp32 => 8 | .fp16 => 5 | .bf16 => 8 | .e5m2 => 5 | .e4m3 => 4 | .crumb8 => 0

/-- Exponent of the smallest normal. -/
def FFmt.emin : FFmt → Int
  | .fp64 => -1022 | .fp32 => -126 | .fp16 => -14 | .bf16 => -126 | .e5m2 => -14 | .e4m3 => -6 | .crumb8 => -15

/-- Code of the largest finite magnitude. -/
def FFmt.largest : FFmt → Nat
  | .fp64 => 0x7FEFFFFFFFFFFFFF | .fp32 => 0x7F7FFFFF | .fp16 => 0x7BFF | .bf16 => 0x7F7F
  | .e5m2 => 0x7B | .e4m3 => 0x7E | .crumb8 => 0x03

/-- Code of infinity, where the format has one; E4M3 gives its NaN and CRUMB8 its largest value (R319). -/
def FFmt.infinity : FFmt → Nat
  | .fp64 => 0x7FF0000000000000 | .fp32 => 0x7F800000 | .fp16 => 0x7C00 | .bf16 => 0x7F80
  | .e5m2 => 0x7C | .e4m3 => 0x7F | .crumb8 => 0x03

/-- Default NaN. -/
def FFmt.nan : FFmt → Nat
  | .fp64 => 0x7FF8000000000000 | .fp32 => 0x7FC00000 | .fp16 => 0x7E00 | .bf16 => 0x7FC0
  | .e5m2 => 0x7E | .e4m3 => 0x7F | .crumb8 => 0x80

/-- The bit of the sign. -/
def FFmt.signBit (f : FFmt) : Nat := 2 ^ (f.width - 1)

/-- The exponent of one unit of the last place of the smallest normal. -/
def FFmt.qmin (f : FFmt) : Int := f.emin - f.frac

/-- The value of a code. -/
inductive FVal where
  /-- NaN; `sig` when signalling. -/
  | nan (sig : Bool)
  | inf (neg : Bool)
  /-- The number (−1)^neg × m × 2^e. -/
  | num (neg : Bool) (m : Nat) (e : Int)
  deriving DecidableEq, Repr

/-- Magnitude of a CRUMB8 body in units of 2^−15 (R313): z leading zeros, then d, the exponent and the fraction. -/
def crumbMag (b : Nat) : Nat :=
  if b = 0 then 0
  else
    let top := Nat.log2 b                      -- position of the leading 1; z = 6 − top
    let rest := b - 2 ^ top                    -- the bits after it
    let d := if top = 0 then 0 else rest / 2 ^ (top - 1)
    let r := if top = 0 then 0 else rest % 2 ^ (top - 1)
    match 6 - top with
    | 0 => (32 + r) * 2 ^ (if d = 1 then 10 else 9)
    | 1 => let a := r / 8; (8 + r % 8) * 2 ^ (if d = 1 then 15 + (1 + a) - 3 else 15 - (2 + a) - 3)
    | 2 => let a := r / 2; (2 + r % 2) * 2 ^ (if d = 1 then 15 + (3 + a) - 1 else 15 - (4 + a) - 1)
    | 3 => 2 ^ (if d = 1 then 15 + (7 + r) else 15 - (8 + r))
    | 4 => 2 ^ (if d = 1 then 15 + (11 + r) else 15 - (12 + r))
    | 5 => 2 ^ (if d = 1 then 28 else 1)
    | _ => 1

/-- Fraction bits of a CRUMB8 body (R313). -/
def crumbN (b : Nat) : Nat :=
  if 64 ≤ b then 5 else if 32 ≤ b then 3 else if 16 ≤ b then 1 else 0

/-- The value of a code (R311–R313). -/
def FFmt.val (f : FFmt) (c : Nat) : FVal :=
  let neg := decide (f.signBit ≤ c % 2 ^ f.width)
  match f with
  | .crumb8 =>
    if c % 256 = 0x80 then .nan false else .num neg (crumbMag (c % 128)) (-15)
  | _ =>
    let ex := bits c f.frac f.ebits
    let fr := bits c 0 f.frac
    let ones := 2 ^ f.ebits - 1
    if f = .e4m3 then
      if ex = ones ∧ fr = 7 then .nan false
      else if ex = 0 then .num neg fr f.qmin
      else .num neg (fr + 8) (f.qmin + (ex - 1 : Nat))
    else if ex = ones then
      if fr = 0 then .inf neg else .nan (decide (fr < 2 ^ (f.frac - 1)))
    else if ex = 0 then .num neg fr f.qmin
    else .num neg (fr + 2 ^ f.frac) (f.qmin + (ex - 1 : Nat))

/-- The code is a subnormal of an IEEE format. -/
def FFmt.isSub (f : FFmt) (c : Nat) : Bool :=
  bits c f.frac f.ebits = 0 && bits c 0 f.frac ≠ 0

/-- An operand under MODE[14]: a subnormal reads as zero of its sign; 8-bit formats are exempt (R322). -/
def FFmt.operand (f : FFmt) (ftz : Bool) (c : Nat) : FVal :=
  match f with
  | .fp64 | .fp32 | .fp16 | .bf16 =>
    if ftz && f.isSub c then .num (decide (f.signBit ≤ c % 2 ^ f.width)) 0 0 else f.val c
  | _ => f.val c

/-! ### Rounding (R318–R320) -/

inductive Rnd where
  | rne | rtz | rdn | rup | rna
  deriving DecidableEq, Repr

/-- MODE[12:10]; codes 5 to 7 round as RNE (R318). -/
def Rnd.ofCode (c : Nat) : Rnd :=
  match c with
  | 1 => .rtz | 2 => .rdn | 3 => .rup | 4 => .rna | _ => .rne

/-- An exact magnitude: m × 2^e, and a positive amount below 2^e more when `sticky`. -/
structure Exact where
  neg : Bool
  m : Nat
  e : Int
  sticky : Bool := false
  deriving DecidableEq, Repr

/-- Position of an exact magnitude between the multiples n and n + 1 of a quantum. -/
inductive Pos where
  | exact | below | half | above
  deriving DecidableEq, Repr

/-- The multiple of 2^q at or below an exact magnitude, and where in the gap it lies. -/
def Exact.place (x : Exact) (q : Int) : Nat × Pos :=
  if q ≤ x.e then (x.m * 2 ^ (x.e - q).toNat, if x.sticky then .below else .exact)
  else
    let k := (q - x.e).toNat
    if Nat.log2 x.m + 2 ≤ k then (0, if x.m = 0 && !x.sticky then .exact else .below)
    else
    let n := x.m / 2 ^ k
    let r := x.m % 2 ^ k
    let half := 2 ^ (k - 1)
    (n, if r = 0 && !x.sticky then .exact
        else if r < half then .below
        else if r = half && !x.sticky then .half
        else .above)

/-- Whether a magnitude goes to the upper neighbour (R318); `odd` tells that the lower one's fraction LSB is 1. -/
def roundsUp (r : Rnd) (neg odd : Bool) (p : Pos) : Bool :=
  match p with
  | .exact => false
  | _ =>
    match r with
    | .rne => p = .above || (p = .half && odd)
    | .rna => p = .above || p = .half
    | .rtz => false
    | .rdn => neg
    | .rup => !neg

/-- Exponent of the quantum of a magnitude in a format of unbounded exponent range that keeps subnormals (R319). -/
def FFmt.quantum (f : FFmt) (x : Exact) : Int :=
  if x.m = 0 then f.qmin else max (x.e + (Nat.log2 x.m : Int) - f.frac) f.qmin

/-- The result on overflow, or of a source that is infinite (R319). -/
def FFmt.overflowCode (f : FFmt) (r : Rnd) (sat neg : Bool) : Nat :=
  let s := if neg then f.signBit else 0
  let toInf :=
    match r with
    | .rne | .rna => true
    | .rtz => false
    | .rdn => neg
    | .rup => !neg
  if f = .crumb8 then s + f.largest
  else if !sat && toInf then (if f = .e4m3 then f.nan else s + f.infinity)
  else s + f.largest

/-- All CRUMB8 bodies but zero. -/
def crumbBodies : List Nat := (List.range 127).map (· + 1)

/-- A magnitude rounded into CRUMB8 (R320). -/
def roundCrumb (r : Rnd) (x : Exact) : Nat × Flags :=
  let s := if x.neg then 0x80 else 0
  -- the magnitude as a multiple of 2^−40 and whether it lies above that multiple
  let (n, p) := x.place (-40)
  let more := p ≠ .exact
  let mag b := crumbMag b * 2 ^ 25
  let low := crumbBodies.foldl (fun acc b => if mag b ≤ n && mag acc < mag b then b else acc) 0
  if mag low = n && !more then ((if low = 0 then 0 else s + low), Flags.none)
  else if mag 0x03 ≤ n then (s + 0x03, { ovf := true, inx := true })
  else
    let high := crumbBodies.foldl (fun acc b => if n < mag b && mag b < mag acc then b else acc) 0x03
    let mid := mag low + mag high          -- twice the midpoint
    let pos : Pos :=
      if 2 * n < mid then .below else if 2 * n = mid && !more then .half else .above
    let up :=
      match r, pos with
      | .rne, .half => decide (1 ≤ crumbN low) && decide (1 ≤ crumbN high) && decide (low % 2 = 1)
      | _, _ => roundsUp r x.neg false pos
    let c := if up then high else low
    let fl : Flags := { inx := true, unf := decide (c = 0) }
    ((if c = 0 then 0 else s + c), fl)

/-- One rounding of a nonzero exact number into a format, before flushing (R319, R325). -/
def FFmt.roundNum (f : FFmt) (r : Rnd) (sat : Bool) (x : Exact) : Nat × Flags :=
  match f with
  | .crumb8 => roundCrumb r x
  | _ =>
    let s := if x.neg then f.signBit else 0
    let q := f.quantum x
    let (n, p) := x.place q
    let n' := if roundsUp r x.neg (decide (n % 2 = 1)) p then n + 1 else n
    let inx := p ≠ .exact
    let code := (q - f.qmin).toNat * 2 ^ f.frac + n'
    if f.largest < code then (f.overflowCode r sat x.neg, { ovf := true, inx := true })
    else (s + code, { inx := inx, unf := inx && decide (code < 2 ^ f.frac) })

/-- The result of an operation before rounding. -/
inductive Res where
  /-- The default NaN, with the exceptions that go with it. -/
  | nan (fl : Flags)
  | inf (neg : Bool) (fl : Flags)
  | num (x : Exact)
  deriving DecidableEq, Repr

/-- Flushing of a result (R322): a subnormal result becomes zero of its sign and underflows. -/
def FFmt.flush (f : FFmt) (ftz : Bool) (r : Nat × Flags) : Nat × Flags :=
  match f with
  | .fp64 | .fp32 | .fp16 | .bf16 =>
    if ftz && f.isSub r.1 then
      ((if f.signBit ≤ r.1 then f.signBit else 0), { r.2 with unf := true, inx := true })
    else r
  | _ => r

/-- A result put into a format: R319, R320, R322, R323. `sat` is MODE[13] of a conversion. -/
def FFmt.result (f : FFmt) (r : Rnd) (ftz sat : Bool) (x : Res) : Nat × Flags :=
  match x with
  | .nan fl => (f.nan, fl)
  | .inf neg fl =>
    let fl' := if f = .e4m3 ∨ f = .crumb8 then { fl with inv := true } else fl
    (f.overflowCode r sat neg, fl')
  | .num x =>
    if x.m = 0 && !x.sticky then ((if x.neg && f ≠ .crumb8 then f.signBit else 0), Flags.none)
    else f.flush ftz (f.roundNum r sat x)

/-- Arithmetic: an infinite exact result follows the table of R319; a division by zero gives ±∞ itself (R325,
log entry 11). -/
def FFmt.arith (f : FFmt) (r : Rnd) (ftz : Bool) (x : Res) : Nat × Flags :=
  match x with
  | .inf neg fl =>
    if fl.dz then ((if neg then f.signBit else 0) + f.infinity, fl) else f.result r ftz false x
  | x => f.result r ftz false x

/-- A special value of a function table: its infinity is delivered as the table names it (R328, R407, R409). -/
def FFmt.special (f : FFmt) (r : Rnd) (ftz : Bool) (x : Res) : Nat × Flags :=
  match x with
  | .inf neg fl => ((if neg then f.signBit else 0) + f.infinity, fl)
  | x => f.result r ftz false x

/-- Arithmetic saturation to [+0.0, 1.0] (R326). -/
def FFmt.clamp01 (f : FFmt) (sat : Bool) (r : Nat × Flags) : Nat × Flags :=
  if !sat then r
  else
    let one := match f with
      | .fp64 => 0x3FF0000000000000 | .fp32 => 0x3F800000 | .fp16 => 0x3C00 | .bf16 => 0x3F80 | _ => 0
    match f.val r.1 with
    | .nan _ => (0, r.2)
    | .inf true => (0, { r.2 with inx := true })
    | .inf false => (one, { r.2 with inx := true })
    | .num neg m _ =>
      if m = 0 then (0, r.2)
      else if neg then (0, { r.2 with inx := true })
      else if one < r.1 then (one, { r.2 with inx := true })
      else r

/-! ### Exact arithmetic -/

/-- Signed mantissa at exponent e of the number m × 2^e'. -/
def alignedInt (neg : Bool) (m : Nat) (e' e : Int) : Int :=
  let v : Int := (m * 2 ^ (e' - e).toNat : Nat)
  if neg then -v else v

/-- Exact sum of signed numbers; the sign of a zero sum of nonzero or differently signed terms follows IEEE 754:
+0, or −0 under RDN (log entry 10). -/
def exactSum (r : Rnd) (n1 : Bool) (m1 : Nat) (e1 : Int) (n2 : Bool) (m2 : Nat) (e2 : Int) : Exact :=
  let e := min e1 e2
  let s := alignedInt n1 m1 e1 e + alignedInt n2 m2 e2 e
  if s = 0 then
    { neg := if m1 = 0 && m2 = 0 && n1 = n2 then n1 else decide (r = .rdn), m := 0, e := 0 }
  else { neg := decide (s < 0), m := s.natAbs, e := e }

/-- Invalid of a signalling operand (R323). -/
def sigFlags (v : FVal) : Flags :=
  match v with
  | .nan true => Flags.invalid
  | _ => Flags.none

def FVal.isNan : FVal → Bool
  | .nan _ => true
  | _ => false

def FVal.negate : FVal → FVal
  | .nan s => .nan s
  | .inf n => .inf (!n)
  | .num n m e => .num (!n) m e

/-- a + b (R327). -/
def addVal (r : Rnd) (a b : FVal) : Res :=
  match a, b with
  | .nan _, _ => .nan ((sigFlags a).or (sigFlags b))
  | _, .nan _ => .nan ((sigFlags a).or (sigFlags b))
  | .inf n, .inf k => if n = k then .inf n Flags.none else .nan Flags.invalid
  | .inf n, _ => .inf n Flags.none
  | _, .inf n => .inf n Flags.none
  | .num n m e, .num k p f => .num (exactSum r n m e k p f)

/-- Product before rounding, as a value: NaN flags for 0 × ∞ (R325). -/
def mulVal (a b : FVal) : Res :=
  match a, b with
  | .nan _, _ => .nan ((sigFlags a).or (sigFlags b))
  | _, .nan _ => .nan ((sigFlags a).or (sigFlags b))
  | .inf n, .inf k => .inf (n != k) Flags.none
  | .inf n, .num k m _ => if m = 0 then .nan Flags.invalid else .inf (n != k) Flags.none
  | .num k m _, .inf n => if m = 0 then .nan Flags.invalid else .inf (n != k) Flags.none
  | .num n m e, .num k p f => .num { neg := n != k, m := m * p, e := e + f }

/-- d + a × b, fused (R327); 0 × ∞ is invalid even with a quiet NaN addend (R325). -/
def madVal (r : Rnd) (d a b : FVal) : Res :=
  match mulVal a b with
  | .nan fl => .nan (fl.or (sigFlags d))
  | .inf n _ =>
    match d with
    | .nan _ => .nan (sigFlags d)
    | .inf k => if n = k then .inf n Flags.none else .nan Flags.invalid
    | .num _ _ _ => .inf n Flags.none
  | .num p =>
    match d with
    | .nan _ => .nan (sigFlags d)
    | .inf k => .inf k Flags.none
    | .num k m e => .num (exactSum r p.neg p.m p.e k m e)

/-- d + a0 × b0 + a1 × b1 (R413). -/
def dot2Val (r : Rnd) (d a0 b0 a1 b1 : FVal) : Res :=
  match madVal r d a0 b0, mulVal a1 b1 with
  | .nan f1, .nan f2 => .nan (f1.or f2)
  | .nan f1, _ => .nan f1
  | _, .nan f2 => .nan f2
  | .inf n _, .inf k _ => if n = k then .inf n Flags.none else .nan Flags.invalid
  | .inf n _, _ => .inf n Flags.none
  | _, .inf k _ => .inf k Flags.none
  | .num x, .num y => .num (exactSum r x.neg x.m x.e y.neg y.m y.e)

/-- Quotient of magnitudes to at least 70 significant bits, with a sticky rest. -/
def quotient (neg : Bool) (m : Nat) (e : Int) (p : Nat) (f : Int) : Exact :=
  let k := 70 + Nat.log2 p
  { neg := neg, m := m * 2 ^ k / p, e := e - f - k, sticky := decide (m * 2 ^ k % p ≠ 0) }

/-- a / b (R327, R325). -/
def divVal (a b : FVal) : Res :=
  match a, b with
  | .nan _, _ => .nan ((sigFlags a).or (sigFlags b))
  | _, .nan _ => .nan ((sigFlags a).or (sigFlags b))
  | .inf _, .inf _ => .nan Flags.invalid
  | .inf n, .num k _ _ => .inf (n != k) Flags.none
  | .num n _ _, .inf k => .num { neg := n != k, m := 0, e := 0 }
  | .num n m e, .num k p f =>
    if p = 0 then
      if m = 0 then .nan Flags.invalid else .inf (n != k) Flags.divZero
    else if m = 0 then .num { neg := n != k, m := 0, e := 0 }
    else .num (quotient (n != k) m e p f)

/-- Integer square root, one bit a round from bit `fuel - 1` down. -/
def isqrtGo : Nat → Nat → Nat → Nat
  | 0, _, acc => acc
  | k + 1, n, acc =>
    let c := acc + 2 ^ k
    isqrtGo k n (if c * c ≤ n then c else acc)

/-- floor(√n). -/
def isqrt (n : Nat) : Nat := isqrtGo (Nat.log2 n / 2 + 1) n 0

/-- Square root of m × 2^e to at least 70 significant bits, with a sticky rest. -/
def sqrtExact (m : Nat) (e : Int) : Exact :=
  let k : Nat := 140 + (if e % 2 = 0 then 0 else 1)
  let n := m * 2 ^ k
  let s := isqrt n
  { neg := false, m := s, e := (e - k) / 2, sticky := decide (s * s ≠ n) }

/-- √a (R407). -/
def sqrtVal (a : FVal) : Res :=
  match a with
  | .nan _ => .nan (sigFlags a)
  | .inf true => .nan Flags.invalid
  | .inf false => .inf false Flags.none
  | .num n m e =>
    if m = 0 then .num { neg := n, m := 0, e := 0 }
    else if n then .nan Flags.invalid
    else .num (sqrtExact m e)

/-! ### Comparison, minimum and maximum (R324, R393) -/

/-- Order of two numbers, −0 equal to +0. -/
def FVal.lt (a b : FVal) : Bool :=
  match a, b with
  | .nan _, _ => false
  | _, .nan _ => false
  | .inf n, .inf k => n && !k
  | .inf n, .num _ _ _ => n
  | .num _ _ _, .inf k => !k
  | .num n m e, .num k p f =>
    let q := min e f
    decide (alignedInt n m e q < alignedInt k p f q)

/-- Ordered and equal, −0 equal to +0. -/
def FVal.eq (a b : FVal) : Bool := !a.isNan && !b.isNan && !(a.lt b) && !(b.lt a)

def FVal.isNeg : FVal → Bool
  | .nan _ => false
  | .inf n => n
  | .num n _ _ => n

/-- minimumNumber (R324): `x` and `y` are the codes of `a` and `b` after flushing. -/
def minCode (f : FFmt) (a b : FVal) (x y : Nat) : Nat :=
  match a, b with
  | .nan _, .nan _ => f.nan
  | .nan _, _ => y
  | _, .nan _ => x
  | _, _ => if a.lt b then x else if b.lt a then y else if a.isNeg then x else y

/-- maximumNumber (R324). -/
def maxCode (f : FFmt) (a b : FVal) (x y : Nat) : Nat :=
  match a, b with
  | .nan _, .nan _ => f.nan
  | .nan _, _ => y
  | _, .nan _ => x
  | _, _ => if a.lt b then y else if b.lt a then x else if a.isNeg then y else x

/-- A code with a subnormal flushed to zero of its sign (R322). -/
def FFmt.flushCode (f : FFmt) (ftz : Bool) (c : Nat) : Nat :=
  if ftz && f.isSub c then (if f.signBit ≤ c then f.signBit else 0) else c

/-! ### Conversions (R321, R330) -/

/-- A number rounded to an integer, and whether that was inexact. -/
def roundInt (r : Rnd) (neg : Bool) (m : Nat) (e : Int) : Int × Bool :=
  let (n, p) := ({ neg := neg, m := m, e := e } : Exact).place 0
  let n' := if roundsUp r neg (decide (n % 2 = 1)) p then n + 1 else n
  ((if neg then -(n' : Int) else n'), decide (p ≠ .exact))

/-- Floating to integer in [lo, hi] (R321). -/
def toInt (r : Rnd) (lo hi : Int) (v : FVal) : Int × Flags :=
  match v with
  | .nan _ => (0, Flags.invalid)
  | .inf n => ((if n then lo else hi), Flags.invalid)
  | .num n m e =>
    let (k, inx) := roundInt r n m e
    if k < lo then (lo, Flags.invalid)
    else if hi < k then (hi, Flags.invalid)
    else (k, { inx := inx })

/-- The value of a floating operand as a result of a conversion. -/
def FVal.res (v : FVal) : Res :=
  match v with
  | .nan _ => .nan (sigFlags v)
  | .inf n => .inf n Flags.none
  | .num n m e => .num { neg := n, m := m, e := e }

/-- The exact number of an integer. -/
def intRes (i : Int) : Res := .num { neg := decide (i < 0), m := i.natAbs, e := 0 }

/-- Neighbours of a magnitude in a format other than CRUMB8: the multiples of the quantum. -/
def stochUp (num den : Nat) (r : Nat) : Bool := decide (r < 2 ^ 16 * num / den)

/-- Stochastic rounding of a nonzero finite number (R330): r is the element's 16-bit value. -/
def FFmt.roundStoch (f : FFmt) (rbits : Nat) (sat : Bool) (x : Exact) : Nat × Flags :=
  let s := if x.neg then f.signBit else 0
  match f with
  | .crumb8 =>
    let (n, p) := x.place (-40)
    let mag b := crumbMag b * 2 ^ 25
    let low := crumbBodies.foldl (fun acc b => if mag b ≤ n && mag acc < mag b then b else acc) 0
    if mag low = n && p = .exact then ((if low = 0 then 0 else s + low), Flags.none)
    else if mag 0x03 ≤ n then (s + 0x03, { ovf := true, inx := true })
    else
      let high := crumbBodies.foldl (fun acc b => if n < mag b && mag b < mag acc then b else acc) 0x03
      -- exact: scale both differences by the exponent of x where it is finer than 2^−40
      let q : Int := min x.e (-40)
      let xm := x.m * 2 ^ (x.e - q).toNat
      let lo := mag low * 2 ^ (-40 - q).toNat
      let hi := mag high * 2 ^ (-40 - q).toNat
      let c := if stochUp (xm - lo) (hi - lo) rbits then high else low
      ((if c = 0 then 0 else s + c), { inx := true, unf := decide (c = 0) })
  | _ =>
    let q := f.quantum x
    let (n, p) := x.place q
    if p = .exact then f.roundNum .rne sat x
    else
      let code := (q - f.qmin).toNat * 2 ^ f.frac + n
      if f.largest < code + 1 then f.roundNum .rne sat x
      else
        let e := min x.e q
        let xm := x.m * 2 ^ (x.e - e).toNat
        let lo := n * 2 ^ (q - e).toNat
        let up := stochUp (xm - lo) (2 ^ (q - e).toNat) rbits
        let c := if up then code + 1 else code
        (s + c, { inx := true, unf := decide (c < 2 ^ f.frac) })

/-- Conversion of a value into a floating format under stochastic rounding (R330, R322). -/
def FFmt.resultStoch (f : FFmt) (rbits : Nat) (ftz sat : Bool) (x : Res) : Nat × Flags :=
  match x with
  | .num x =>
    if x.m = 0 then ((if x.neg && f ≠ .crumb8 then f.signBit else 0), Flags.none)
    else f.flush ftz (f.roundStoch rbits sat x)
  | x => f.result .rne ftz sat x

/-- Stochastic rounding to an integer: the magnitude between its neighbouring integers (R330, R321). -/
def toIntStoch (rbits : Nat) (lo hi : Int) (v : FVal) : Int × Flags :=
  match v with
  | .num n m e =>
    let x : Exact := { neg := n, m := m, e := e }
    let (k, p) := x.place 0
    if p = .exact || hi ≤ (k : Int) then toInt .rne lo hi v
    else
      let den := 2 ^ (-e).toNat
      let k' := if stochUp (m - k * den) den rbits then k + 1 else k
      let i : Int := if n then -(k' : Int) else k'
      if i < lo then (lo, Flags.invalid)
      else if hi < i then (hi, Flags.invalid)
      else (i, Flags.inexact)
  | _ => toInt .rne lo hi v

/-! ### Approximated functions (R328) -/

/-- An interval that holds a nonzero exact magnitude: [lo, hi] × 2^e. -/
structure Encl where
  neg : Bool
  lo : Nat
  hi : Nat
  e : Int
  deriving DecidableEq, Repr

/-- The correctly rounded choice for an enclosed value. -/
def Encl.nearest (f : FFmt) (r : Rnd) (y : Encl) : Nat × Flags :=
  f.roundNum r false { neg := y.neg, m := y.lo, e := y.e, sticky := true }

/-- Whether a code lies within `ulps` units of the last place, or within 2^`absE` when given, of an enclosed
value. A value the enclosure cannot exclude counts as within (log entry 6). -/
def Encl.within (f : FFmt) (ulps : Nat) (absE : Option Int) (y : Encl) (c : Nat) : Bool :=
  match f.val c with
  | .num neg m e =>
    let top := y.e + (Nat.log2 y.lo : Int)
    let ulpE : Int := max top f.emin - f.frac
    let q : Int := min (min e y.e) (match absE with | some a => min a ulpE | none => ulpE)
    let v := alignedInt neg m e q
    let a := alignedInt y.neg y.lo y.e q
    let b := alignedInt y.neg y.hi y.e q
    let bound : Nat := match absE with
      | some a => max (ulps * 2 ^ (ulpE - q).toNat) (2 ^ (a - q).toNat : Nat)
      | none => ulps * 2 ^ (ulpE - q).toNat
    decide ((v - a).natAbs ≤ bound) || decide ((v - b).natAbs ≤ bound)
  | _ => false

/-- The result of an approximated function: the free value where it is within the bound, else the nearest. -/
def Encl.pick (f : FFmt) (fn operand : Nat) (ulps : Nat) (absE : Option Int) (y : Encl) : Nat × Flags :=
  let c := Config.approx fn operand % 2 ^ f.width
  let near := y.nearest f .rne
  if near.2.ovf then near
  else
    let c' := if y.within f ulps absE c then c else near.1
    (c', { inx := true, unf := decide (c' % f.signBit < 2 ^ f.frac) })

/-- Fixed-point bits of the series below. -/
def fx : Nat := 120

/-- floor(ln 2 × 2^120) and floor(2π × 2^120). -/
def ln2Fx : Nat := 921350637599661305226344307672478454
def twoPiFx : Nat := 8351785813007552717653752915327115494

/-- Sum of x^n / n! from the term `t` of index `n`, at 2^−fx. -/
def expSeries : Nat → Nat → Nat → Nat → Nat
  | 0, _, _, _ => 0
  | k + 1, x, n, t => t + expSeries k x (n + 1) (t * x / 2 ^ fx / (n + 1))

/-- 2^fr for fr in [0, 1) at 2^−fx. -/
def exp2Frac (fr : Nat) : Nat := expSeries 40 (fr * ln2Fx / 2 ^ fx) 0 (2 ^ fx)

/-- Odd series of the inverse hyperbolic tangent: z + z³/3 + …, from the power `p`, at 2^−fx. -/
def atanhSeries : Nat → Nat → Nat → Nat → Nat
  | 0, _, _, _ => 0
  | k + 1, z2, n, p => p / (2 * n + 1) + atanhSeries k z2 (n + 1) (p * z2 / 2 ^ fx)

/-- log2 of m / 2^s in [1, 2) at 2^−fx. -/
def log2Frac (m s : Nat) : Nat :=
  let z := (m - 2 ^ s) * 2 ^ fx / (m + 2 ^ s)
  2 * atanhSeries 45 (z * z / 2 ^ fx) 0 z * 2 ^ fx / ln2Fx

/-- Alternating series 1 − x2/(a(a+1)) + … of sine (a = 2) and cosine (a = 1), at 2^−fx. -/
def trigSeries : Nat → Nat → Nat → Int → Int
  | 0, _, _, _ => 0
  | k + 1, x2, a, t => t + trigSeries k x2 (a + 2) (-(t * x2 / ((2 ^ fx * (a * (a + 1)) : Nat) : Int)))

/-- Slack of the fixed-point series, in units of 2^−fx. -/
def fxSlack : Nat := 4096

/-- sin(2π t) / t and cos(2π t) for t = m × 2^e in [0, 1/8]. -/
def sinOver (m : Nat) (e : Int) : Nat :=
  let t := if 0 ≤ (fx : Int) + e then m * 2 ^ ((fx : Int) + e).toNat else m / 2 ^ (-((fx : Int) + e)).toNat
  let th := t * twoPiFx / 2 ^ fx
  (trigSeries 30 (th * th / 2 ^ fx) 2 (2 ^ fx)).toNat * twoPiFx / 2 ^ fx

def cosOf (m : Nat) (e : Int) : Nat :=
  let t := if 0 ≤ (fx : Int) + e then m * 2 ^ ((fx : Int) + e).toNat else m / 2 ^ (-((fx : Int) + e)).toNat
  let th := t * twoPiFx / 2 ^ fx
  (trigSeries 30 (th * th / 2 ^ fx) 1 (2 ^ fx)).toNat

/-- The seven functions of R407. -/
inductive Fn where
  | rcp | rsq | sqrt | exp2 | log2 | sin | cos
  deriving DecidableEq, Repr

def Fn.code : Fn → Nat
  | .rcp => 0 | .rsq => 1 | .sqrt => 2 | .exp2 => 3 | .log2 => 4 | .sin => 5 | .cos => 6

/-- Whether a positive number is a power of two, and its exponent. -/
def pow2 (m : Nat) (e : Int) : Option Int :=
  let k := Nat.log2 m
  if m = 2 ^ k then some (e + k) else none

/-- What a function gives for an operand: an exact point or special value, or an enclosure to approximate. -/
inductive FnRes where
  | exact (r : Res)
  | approx (y : Encl) (ulps : Nat) (absE : Option Int)
  deriving DecidableEq, Repr

def rcpFn (a : FVal) : FnRes :=
  match a with
  | .nan _ => .exact (.nan (sigFlags a))
  | .inf n => .exact (.num { neg := n, m := 0, e := 0 })
  | .num n m e =>
    if m = 0 then .exact (.inf n Flags.divZero)
    else match pow2 m e with
      | some k => .exact (.num { neg := n, m := 1, e := -k })
      | none =>
        let q := quotient n 1 0 m e
        .approx { neg := n, lo := q.m, hi := q.m + 1, e := q.e } 1 none

def rsqFn (a : FVal) : FnRes :=
  match a with
  | .nan _ => .exact (.nan (sigFlags a))
  | .inf true => .exact (.nan Flags.invalid)
  | .inf false => .exact (.num { neg := false, m := 0, e := 0 })
  | .num n m e =>
    if m = 0 then .exact (.inf n Flags.divZero)
    else if n then .exact (.nan Flags.invalid)
    else
      let inexactRoot :=
        let s := sqrtExact m e
        let lo := quotient false 1 0 (s.m + 1) s.e
        let hi := quotient false 1 0 s.m s.e
        -- both quotients have the exponent of the finer one
        let q := min lo.e hi.e
        FnRes.approx { neg := false, lo := lo.m * 2 ^ (lo.e - q).toNat,
                       hi := (hi.m + 1) * 2 ^ (hi.e - q).toNat, e := q } 1 none
      match pow2 m e with
      | some k => if k % 2 = 0 then .exact (.num { neg := false, m := 1, e := -(k / 2) }) else inexactRoot
      | none => inexactRoot

/-- `exp2` into FP32: an x of 128 or more overflows to +∞ (R328). -/
def exp2Fn (a : FVal) : FnRes :=
  match a with
  | .nan _ => .exact (.nan (sigFlags a))
  | .inf true => .exact (.num { neg := false, m := 0, e := 0 })
  | .inf false => .exact (.inf false Flags.none)
  | .num n m e =>
    let x : Exact := { neg := n, m := m, e := e }
    let (k, p) := x.place 0
    if p = .exact then
      if 128 ≤ k && !n then .exact (.inf false { ovf := true, inx := true })
      else .exact (.num { neg := false, m := 1, e := if n then -((min k 2000 : Nat) : Int) else k })
    else if 128 ≤ k && !n then .exact (.inf false { ovf := true, inx := true })
    else
      -- floor(x) and the fraction x − floor(x) at 2^−fx; an x below 2^−fx in magnitude keeps a nonzero fraction
      let scaled := (x.place (-(fx : Int))).1
      let fr0 := scaled - k * 2 ^ fx
      let (fl, fr) : Int × Nat := if n then (-((min k 2000 : Nat) : Int) - 1, 2 ^ fx - fr0) else ((k : Int), fr0)
      let v := exp2Frac fr
      .approx { neg := false, lo := v - fxSlack, hi := v + fxSlack, e := fl - fx } 2 none

def log2Fn (a : FVal) : FnRes :=
  match a with
  | .nan _ => .exact (.nan (sigFlags a))
  | .inf true => .exact (.nan Flags.invalid)
  | .inf false => .exact (.inf false Flags.none)
  | .num n m e =>
    if m = 0 then .exact (.inf true Flags.divZero)
    else if n then .exact (.nan Flags.invalid)
    else match pow2 m e with
      | some k => .exact (.num { neg := decide (k < 0), m := k.natAbs, e := 0 })
      | none =>
        let s := Nat.log2 m
        let k : Int := e + s
        let fr := log2Frac m s
        let v : Int := k * (2 ^ fx : Nat) + (fr : Int)
        let near := decide (k = 0) || decide (k = -1)
        .approx { neg := decide (v < 0), lo := v.natAbs - fxSlack, hi := v.natAbs + fxSlack, e := -(fx : Int) } 2
          (if near then some (-22) else none)

/-- Sine of the turn t = m × 2^e with sign: reduction to an octant is exact (R328). `quarter` adds a quarter turn. -/
def trigFn (quarter : Bool) (a : FVal) : FnRes :=
  match a with
  | .nan _ => .exact (.nan (sigFlags a))
  | .inf _ => .exact (.nan Flags.invalid)
  | .num n m e =>
    if m = 0 then
      .exact (.num (if quarter then { neg := false, m := 1, e := 0 } else { neg := n, m := 0, e := 0 }))
    else
      -- all at the exponent q, where one turn is 2^(−q)
      let q : Int := min e (-3)
      let turn : Nat := 2 ^ (-q).toNat
      let x := m * 2 ^ (e - q).toNat
      let sgn := if quarter then false else n
      let y := (x + (if quarter then turn / 4 else 0)) % turn
      -- sin(2π y / turn) for y in [0, turn)
      let neg := sgn != decide (turn / 2 ≤ y)
      let z := y % (turn / 2)
      let w := if turn / 4 < z then turn / 2 - z else z
      if w = 0 then
        -- a multiple of half a turn: the sign of the argument for sin, +0 for cos
        .exact (.num { neg := if quarter then false else n, m := 0, e := 0 })
      else if w = turn / 4 then .exact (.num { neg := neg, m := 1, e := 0 })
      else if 8 * w ≤ turn then
        let v := sinOver w q
        .approx { neg := neg, lo := w * (v - fxSlack), hi := w * (v + fxSlack), e := q - fx } 2 none
      else
        let v := cosOf (turn / 4 - w) q
        .approx { neg := neg, lo := v - fxSlack, hi := v + fxSlack, e := -(fx : Int) } 2 none

/-- The function of an operand (R328). -/
def Fn.apply (fn : Fn) (a : FVal) : FnRes :=
  match fn with
  | .rcp => rcpFn a
  | .rsq => rsqFn a
  | .sqrt => .exact (sqrtVal a)
  | .exp2 => exp2Fn a
  | .log2 => log2Fn a
  | .sin => trigFn false a
  | .cos => trigFn true a

/-- A function in FP32 or FP64 (R328, R407), before saturation. -/
def Fn.eval (fn : Fn) (f : FFmt) (r : Rnd) (ftz : Bool) (c : Nat) : Nat × Flags :=
  match fn.apply (f.operand ftz c) with
  | .exact x => f.special r ftz x
  | .approx y ulps absE =>
    if (y.nearest f .rne).2.ovf then f.roundNum r false { neg := y.neg, m := y.lo, e := y.e, sticky := true }
    else f.flush ftz (y.pick f fn.code c ulps absE)

/-- A function on a 16-bit element: in FP32, then rounded once into the type, within 1 ulp of it (R328). -/
def Fn.eval16 (fn : Fn) (f : FFmt) (r : Rnd) (ftz : Bool) (c : Nat) : Nat × Flags :=
  match fn.apply (f.operand ftz c) with
  | .exact (.inf neg fl) =>
    if fl.ovf then (f.overflowCode r false neg, fl) else f.special r ftz (.inf neg fl)
  | .exact x => f.special r ftz x
  | .approx y ulps absE =>
    let w := y.pick .fp32 fn.code c ulps absE
    let (c1, fl1) := f.result r ftz false (FFmt.fp32.val w.1).res
    let ok := fl1.ovf || y.within f 1 none c1
    let (c2, fl2) := if ok then (c1, fl1) else f.flush ftz (y.nearest f .rne)
    (c2, { fl2 with inx := true, unf := fl2.unf || decide (c2 % f.signBit < 2 ^ f.frac) })

end Sys2Proof.Machine
end

