-- ==== Sys2Proof/Machine/GroupState.lean ====
section
/-!
DEFINITION. The state of a group, of its registers, windows and engine operations, and of its team
(08_core_execution.md, 10_consistency.md, 11_traps_preemption.md).
-/

namespace Sys2Proof.Machine

/-- One byte at an address; the form of Host.Cell. -/
abbrev Cell := Nat × Byte

/-- What a register name stores, with its shape tag (R212). -/
inductive RegVal where
  | uniform (u : Word)
  | affine (base stride : Word)
  | general (lanes : List Word)
  deriving DecidableEq, Repr

/-- A register name: storage and tag (R212), full bit (R217), poison bit (R299). -/
structure Reg where
  val : RegVal
  full : Bool
  poison : Bool
  deriving DecidableEq, Repr

/-- What a slot waits for (R221, R365, R368, R438, R440, R470). -/
inductive Wait where
  | none
  /-- The instruction at the PC waits at issue and is tried again after the next event (R218, R264, R271, R370). -/
  | retry
  /-- Waits at a `waitp` until a path counter is at most N or holds a fault (R370). -/
  | path (p : Path) (n : Nat)
  /-- Blocked in `bar` or `barw` on a barrier (R368). -/
  | barrier (b : Nat)
  /-- Asleep until a cycle (R365). -/
  | sleep (wake : Nat)
  /-- Blocked in `waitc` on a line, with a monitor or without one when the slice had none free: the address of its word, the
  value that does not end the wait, and the cycle of its last read (R438, R140). -/
  | monitor (line : Nat) (armed : Bool) (addr want at_ : Nat)
  /-- Blocked in `waitt` on a booth (R440). -/
  | booth (k : Nat)
  /-- Blocked in `bkt.seal` until the seal of a frame slot takes effect (R470). -/
  | seal (vf dev h : Nat)
  /-- Blocked in `bkt.claim` until the distributor answers into a register (R470, R135). -/
  | claim (d : RegName)
  /-- A scratchpad-window access or a team's window saved away (R253). -/
  | window (team : Nat)
  deriving DecidableEq, Repr

/-- A PC slot (R221). -/
structure Slot where
  pc : DWord
  mask : Mask
  jpc : Option DWord
  parked : Bool
  wait : Wait
  deriving DecidableEq, Repr

/-- An entry of the divergence stack (R223). -/
structure StackEntry where
  mask : Mask
  resume : DWord
  join : Option DWord
  deriving DecidableEq, Repr

/-- The byte spaces whose lines conflict (R261): memory by physical address, the scratchpad of a team, the grids of
the bucket store of a core. -/
inductive Space where
  | mem
  | scratch (team : Nat)
  | grid (core : Nat)
  deriving DecidableEq, Repr

/-- A 128-byte line of a space. -/
structure LineKey where
  space : Space
  line : Nat
  deriving DecidableEq, Repr

/-- The write of one lane: bytes from an address upward. -/
structure QWrite where
  space : Space
  addr : Nat
  data : List Byte
  /-- Bits that the write leaves alone, from the address upward (R476); empty when it writes all. -/
  keep : List Byte
  deriving DecidableEq, Repr

/-- What a group or an engine operation is parked on (R242, R245). -/
inductive Parked where
  /-- A fault record, or a fault waiting to be posted, by 4 KiB page. -/
  | page (p : Nat)
  /-- A page in migration, by the address of its leaf (R256). -/
  | move (leaf : Nat)
  /-- A pool whose ALLOC has reached LIMIT, by the address of its header and the LIMIT that it was seen to hold (R159); without a
  monitor, the cycle of the last read (R140). -/
  | pool (header limit : Nat) (unarmed : Option Nat)
  deriving DecidableEq, Repr

/-- What an outstanding long-latency producer is (R217). -/
inductive ProdKind where
  | load | div | trace | sample | raster | mrd | homeAtom
  deriving DecidableEq, Repr

/-- A result to be written into a name: its storage and whether it is poisoned (R299). -/
structure RegWrite where
  name : RegName
  val : RegVal
  poison : Bool
  deriving DecidableEq, Repr

/-- The hit held by a trace (R198). -/
structure RayHit where
  t : Nat
  b1 : Nat
  b2 : Nat
  prim : Nat
  geom : Nat
  deriving DecidableEq, Repr

/-- A trace on its way (R199): the reference that it visits and the triangle of it that comes next, its stack of references
with their stored tnear, the nearest on top, tcur and the held hit. The top eight entries stand in the short stack, the others
at their places in the ray-stack area (R200). -/
structure RayState where
  ref : Option Nat
  tri : Nat
  stack : List (Nat × Nat)
  tcur : Nat
  held : Option RayHit
  deriving DecidableEq, Repr

/-- How a trace stands (R201). -/
inductive RayEnd where
  | running (r : RayState)
  | ended (status : Nat) (held : Option RayHit)
  | poisoned
  deriving DecidableEq, Repr

/-- A ray of a `trace` in the ray unit: its lane, its eight captured words and the pair b (R481), its traversal, and what it
is parked on (R201). -/
structure LaneRay where
  lane : Nat
  words : List Word
  st : RayEnd
  parkedOn : Option Parked
  deriving DecidableEq, Repr

/-- An outstanding long-latency producer (R217, R269). -/
structure Producer where
  id : Nat
  kind : ProdKind
  /-- Issued inside the open window, so that a rollback cancels it (R268). -/
  inWindow : Bool
  dests : List RegName
  result : List RegWrite
  /-- Lines that its completion brings into L1 (R246). -/
  fills : List Nat
  /-- Grid handles that it names (R471). -/
  grids : List Nat := []
  /-- Rays of a `trace` (R199–R204, R481). -/
  rays : List LaneRay := []
  deriving DecidableEq, Repr

/-- The engine operations (R227, R228). -/
inductive OpKind where
  | copy | copyt | mma | mloop | bin | dice | resolve | enq | regroup | taskdec
  deriving DecidableEq, Repr

/-- Where an operation stands (R279, R301, R307). -/
inductive OpState where
  /-- Released to its engine and not started. -/
  | queued
  /-- Taken from its engine before it started, with its team (R301). -/
  | withheld
  | running
  /-- Stopped at its boundary with its team (R301). -/
  | stopped
  /-- Parked on a replayable fault (R245), or on a pool (R159). -/
  | parked
  deriving DecidableEq, Repr

/-- An engine operation with its operands captured at issue (R283). -/
structure EngineOp where
  id : Nat
  launch : Nat
  team : Nat
  /-- Group number in the team. -/
  group : Nat
  core : Nat
  kind : OpKind
  word : Word
  operands : List Word
  /-- Values captured per active lane of `regroup`: queue and payload (R486). -/
  lanes : List (List Word)
  /-- PROGRESS as R301 states; 1 for a `regroup` that waits for a row (R133). -/
  progress : Nat
  state : OpState
  /-- Power leave held (R112). -/
  leave : Bool
  /-- What it is parked on (R245, R256). -/
  parkedOn : Option Parked
  /-- Lines of host memory that it has read, and writes to lines of host memory that it has still to make after its single point,
  one line at a time, with the code of the cause with which it stops (R280). -/
  hostSeen : List (Nat × List Byte) := []
  hostDue : List (List (Nat × Byte)) := []
  ending : Option (BitVec 8) := none
  deriving DecidableEq, Repr

/-- A pending sample write of `swr` (R479): sample id, depth, colour halves, key. -/
structure SampleWrite where
  id : Nat
  depth : Word
  rg : Word
  ba : Word
  key : DWord
  deriving DecidableEq, Repr

/-- The checkpoint of a window (R263). -/
structure Checkpoint where
  slotA : Slot
  slotB : Slot
  stack : List StackEntry
  mode : Word
  preds : List Mask
  regs : List Reg
  deriving DecidableEq, Repr

/-- What an accumulator operation that waits at its engine does (R455–R458). -/
inductive TileWork where
  /-- The words of each lane go to the results of a producer. -/
  | read (prod : Nat) (lanes : List (Nat × List Nat))
  | write (words : List (Nat × Word))
  | convert (src : Nat) (target : TileType) (mode : Word)
  deriving DecidableEq, Repr

/-- An `mrd`, `mwr`, `mclr` or `mcvt` that has arrived at its engine and waits behind others on its tile (R444, R461). -/
structure TileOp where
  id : Nat
  team : Nat
  group : Nat
  tile : Nat
  work : TileWork
  /-- Engine operations on its tiles that arrived before it. -/
  after : List Nat
  deriving DecidableEq, Repr

/-- A run-ahead window (R262–R267, R460). -/
structure Window where
  ckpt : Checkpoint
  /-- PC of the instruction that opened it (R275). -/
  pc : DWord
  instrs : Nat
  /-- A limit of R264 has been reached: the group stalls until the window commits. -/
  stalled : Bool
  /-- General-capable names written, in order (R264). -/
  shadowed : List RegName
  /-- The store queue: one entry per store instruction (R264). -/
  stores : List (List QWrite)
  /-- Speculative atomics: the entry of the store queue and the producer of each (R264). -/
  atomOf : List (Nat × Nat)
  reads : List LineKey
  writes : List LineKey
  /-- Lines held by a speculative `atom` (R273). -/
  atoms : List LineKey
  /-- Cycle since which a line so held delays a request (R273; log entry 15). -/
  delayedAt : Option Nat := none
  deferred : List EngineOp
  shadowCfg : Option (BitVec 96)
  /-- Shadow tiles: number and words (R460). -/
  shadowTiles : List (Nat × List (Nat × Word))
  /-- `mrd`s behind a deferred multiplication of the window, which arrive when it commits (R460). -/
  lateReads : List TileOp := []
  samples : List SampleWrite
  /-- Grid handles that its `gst` name (R471). -/
  grids : List Nat := []
  /-- SRSEED as the window's draws and writes leave it (R332). -/
  srseed : Option Word
  /-- Stores to host memory reached with COH 0 in the window (R288). -/
  hostStores : Nat
  deriving DecidableEq, Repr

/-- A block of the whole group (R221). -/
inductive Block where
  | none
  /-- A window access travels as an active message (R271). -/
  | message
  /-- A fence of a scope waits for earlier work (R286). -/
  | fence (scope : Scope)
  /-- Parked on replayable faults (R242). -/
  | fault
  /-- Stopped for a save or a discard (R300). -/
  | stopped
  /-- Waits for the anchor of a line (R277). -/
  | anchor (k : LineKey)
  /-- A lane of a released `regroup` waits for a row (R133, R486). -/
  | rows
  deriving DecidableEq, Repr

/-- A resident group (R207, R211–R227, R293, R331, R493). -/
structure Group where
  id : Nat
  team : Nat
  /-- Number in the team. -/
  num : Nat
  /-- Core of the package, 64 × die + core (R206). -/
  core : Nat
  carousel : Nat
  /-- WIDTH: 16, 32 or 64 lanes. -/
  width : Nat
  /-- Class sizes G, A and U (R211). -/
  nG : Nat
  nA : Nat
  nU : Nat
  regs : List Reg
  preds : List Mask
  mode : Word
  slotA : Slot
  slotB : Slot
  /-- The slot that issued last is B (R221). -/
  lastB : Bool
  stack : List StackEntry
  divMax : Nat
  /-- Trap mode: the slot in it and the cycle of entry (R295, R297). -/
  trapB : Option Bool
  trapAt : Nat
  trapCause : Word
  trapPc : DWord
  trapMask : Mask
  trapDest : BitVec 8
  trapMode : Word
  trapBase : DWord
  srseed : Word
  specCount : Word
  clockH : Word
  /-- PATHCOUNT0–PATHCOUNT3 (R227). -/
  pathCount : List Nat
  /-- Pending fault of each path counter, 0 for none (R370). -/
  pathFault : List (BitVec 8)
  barPend : List Bool
  tileCfg : BitVec 96
  producers : List Producer
  window : Option Window
  block : Block
  /-- Rollbacks of the window at the checkpoint PC (R275). -/
  rollbacks : Nat
  rollPc : DWord
  /-- The next window runs narrowed (R276, R274). -/
  narrowed : Bool
  /-- Anchor ticket (R277) and the anchors held, by line. -/
  ticket : Option Nat
  anchors : List LineKey
  /-- Cycle up to which the time limit of its anchors is counted, once the first is granted to the window; the cycles counted;
  and whether the group issues nothing because of an access or an anchor (R277). -/
  anchorAt : Option Nat
  anchorWaited : Nat
  stuck : Bool
  /-- Lanes of home-performed atomics sent and not performed (R433). -/
  homeOut : Nat
  /-- `xst` messages not yet acknowledged (R490). -/
  xstOut : Nat
  /-- Stores to COH 0 host memory not yet known to have reached it (R286). -/
  hostOut : Nat
  /-- Presents the display engine has not yet read (R286). -/
  presents : Nat
  /-- Pass-cycles issued in a row on the carousel (R128). -/
  runCycles : Nat
  /-- The group issued last on its carousel (R128). -/
  onTurn : Bool
  /-- `yield` or 1,024 pass-cycles have ended its run (R128, R364). -/
  yields : Bool
  /-- Faults the group is parked on (R242). -/
  parkedOn : List Parked
  deriving DecidableEq, Repr

/-- Names of a group, v0–v119 then h0–h7. -/
def Group.regCount : Nat := 128

/-- A barrier of a team (R225). -/
structure Barrier where
  phase : Bool
  count : Nat
  deriving DecidableEq, Repr

/-- Where a team stands (R123–R127, R300–R308). -/
inductive TeamState where
  | running
  /-- Chosen for a save or discard; its groups stop at their boundaries (R300). -/
  | stopping
  /-- The save is being written (R304). -/
  | saving
  | saved
  | ended
  deriving DecidableEq, Repr

/-- A kernel descriptor as captured (R116). -/
structure Kernel where
  width : Nat
  pair : Bool
  groups : Nat
  nG : Nat
  nA : Nat
  nU : Nat
  scratch : Nat
  stack : Nat
  divstack : Nat
  copyq : Nat
  acc : Nat
  argn : Nat
  mode0 : BitVec 16
  entry : DWord
  handler : DWord
  pqtab : Nat
  pqn : Nat
  /-- The descriptor breaks R117 or could not be read. -/
  invalid : Bool
  deriving DecidableEq, Repr

/-- A team (R123–R127, R225, R250, R443). -/
structure Team where
  id : Nat
  launch : Nat
  /-- The kernel its groups run: the launch's, or the queue's of a queue group (R131). -/
  kernel : Kernel
  queue : Option Nat
  /-- Linear index (R123) and coordinates. -/
  index : Nat
  x : Nat
  y : Nat
  z : Nat
  /-- First core of the team (core 2k for a pair), 64 × die + core. -/
  core : Nat
  pair : Bool
  prio : Nat
  state : TeamState
  /-- Order of placement; the oldest is least (R142). -/
  age : Nat
  scratch : List Cell
  barriers : List Barrier
  /-- Accumulator words that are not +0, by 1,024 × tile + word (R443). -/
  acc : List (Nat × Word)
  /-- Bucket owned: frame slot key and bucket number (R174). -/
  bucket : Option (Nat × Nat)
  slot : Option Nat
  /-- The team is discarded rather than saved when it stops (R81). -/
  discard : Bool
  /-- What the device keeps of the groups of a saved team beside the record in memory (R490, R523). -/
  savedGroups : List Group
  /-- A saved team waits in the placement order again (R139, R144), since a cycle, and the launches that have displaced it. -/
  rejoin : Bool
  waitSince : Option Nat
  displacers : List Nat
  /-- Groups of the team that have ended (R207, R225). -/
  endedGroups : List Nat
  /-- Number of its latest decision to save it: saves are served in this order (R304). -/
  decided : Nat := 0
  /-- Argument words still to be read (R119). -/
  argsDue : Bool
  /-- Cycle since which every group has been in scheduler-visible waits, if so (R139). -/
  idleSince : Option Nat
  deriving DecidableEq, Repr

end Sys2Proof.Machine
end

