-- ==== Sys2Proof/Machine/RenderState.lean ====
section
/-!
DEFINITION. The state of frames, bucket stores and bucket distributors (05 R134–R137, 06 R150–R178, 07 R186–R188)
and of pipeline queues (05 R129–R133).
-/

namespace Sys2Proof.Machine

/-- State of a frame slot that is not FREE (R151). -/
inductive FrameState where
  | opened | sealed | done
  deriving DecidableEq, Repr

/-- State of a bucket of a sealed frame (R134, R174, R176). -/
inductive BucketState where
  /-- In a deque, or on its way to a thief. -/
  | dealt
  | owned (team : Nat)
  | done
  deriving DecidableEq, Repr

/-- What a distributor has been asked for: a claim of a group's slot (B when true), or a steal by another die (R135, R136). -/
inductive DequeAsk where
  | claim (group : Nat) (slotB : Bool)
  | steal (die : Nat)
  deriving DecidableEq, Repr

/-- The deque of a die for a frame, with what its distributor knows and does (R134–R136). -/
structure Deque where
  die : Nat
  /-- Morton indices, head first. -/
  buckets : List Nat
  /-- The remaining counts that the distributor knows of the other dies. -/
  known : List (Nat × Nat)
  /-- Dies excluded from the choice of a victim, until their count changes. -/
  excluded : List Nat
  /-- The victim of an outstanding steal, and the buckets taken once it is served. -/
  steal : Option Nat
  stolen : Option (List Nat)
  /-- Claims and steals that wait, in arrival order. -/
  asks : List DequeAsk
  deriving DecidableEq, Repr

/-- A remaining count on its way from one distributor to another (R136). -/
structure CountMsg where
  src : Nat
  dst : Nat
  count : Nat
  deriving DecidableEq, Repr

/-- A frame slot that is not FREE (R149–R152). -/
structure Frame where
  vf : Nat
  dev : Nat
  h : Nat
  st : FrameState
  /-- The captured descriptor, 512 bits. -/
  desc : Nat
  /-- A seal that has not taken effect: the `bin` operations it waits for (R152). -/
  sealing : Option (List Nat)
  buckets : List BucketState
  deques : List Deque
  counts : List CountMsg
  deriving DecidableEq, Repr

/-- A layer record (R187, R188). -/
structure Layer where
  sample : Nat
  z : Nat
  key : Nat
  rgba : Nat
  deriving DecidableEq, Repr

/-- A tail record (R187, R188); its sums are signed. -/
structure Tail where
  sample : Nat
  n : Nat
  sa : Nat
  scr : Int
  scg : Int
  scb : Int
  least : Layer
  deriving DecidableEq, Repr

/-- A live grid of a bucket (R169–R172, R471). -/
structure Grid where
  place : Nat
  gen : Nat
  nu : Nat
  nv : Nat
  /-- VA in the spill slab, when spilled. -/
  spill : Option Nat
  deriving DecidableEq, Repr

/-- The bucket store of a core while a bucket is owned on it (R169, R174). -/
structure Store where
  core : Nat
  team : Nat
  vf : Nat
  dev : Nat
  h : Nat
  /-- Morton index and coordinates of the bucket. -/
  bucket : Nat
  bx : Nat
  by_ : Nat
  /-- Opaque records that are not in their state at the claim, by sample id (R186). -/
  records : List (Nat × BitVec 128)
  layers : List Layer
  tails : List Tail
  grids : List Grid
  /-- Generations of the 256 places, where not 0. -/
  gens : List (Nat × Nat)
  /-- Bytes of the grids in the store, at 65,536 × place + offset. -/
  cells : List Cell
  /-- Index of the current slab, and the next byte of it (R171). -/
  slab : Option (Nat × Nat)
  /-- Lines of the store and of its slabs that layer and tail records take (R188), and the pool that it is parked on for a slab,
  with the LIMIT that it was seen to hold (R159). -/
  recLines : Nat
  recSpill : Nat
  parkedOn : Option (Nat × Nat)
  /-- A `resolve` has started on the bucket (R189). -/
  resolving : Option Nat
  deriving DecidableEq, Repr

/-- A row of a pipeline queue (R130). -/
structure Row where
  launch : Nat
  die : Nat
  queue : Nat
  /-- Place in the die's row storage. -/
  index : Nat
  /-- Cycle at which its first lane was filled. -/
  born : Nat
  filled : Mask
  /-- The row has reached its age limit (R131). -/
  aged : Bool
  deriving DecidableEq, Repr

end Sys2Proof.Machine
end

