-- ==== Sys2Proof/Machine/HubState.lean ====
section
/-!
DEFINITION. The state of the hub and of what dies share: queues (03), arbiters, cache ways, mesh and power leave (04),
die links and the fabric (01), scan-out and swap groups (02), and the management controller with Cytos (01 R31–R33,
03 R83–R91).
-/

namespace Sys2Proof.Machine

/-! ### Queues (R66–R81) -/

/-- OP of a submission record (R73). -/
inductive RecOp where
  | launch | signal | waitmem | counter | nop
  deriving DecidableEq, Repr

/-- A record that a queue has accepted and whose completion is not yet written (R72–R78). -/
structure SubRecord where
  seq : Nat
  op : RecOp
  order : Bool
  started : Bool
  /-- The launch of a LAUNCH record. -/
  launch : Option Nat
  /-- ADDR, VALUE and COND of a SIGNAL or WAITMEM; TASK and COUNT of a COUNTER. -/
  addr : Nat
  value : Nat
  cond : Nat
  /-- NTASK of a LAUNCH with NOTIFY_EN (R74). -/
  notify : Option Nat
  /-- STATUS and CAUSE, once it has completed (R77). -/
  result : Option (Nat × Nat)
  /-- The cycle at which it completed. -/
  doneAt : Nat
  parkedOn : Option Parked
  /-- A started WAITMEM without a monitor: the cycle of its last read (R140). -/
  checkAt : Option Nat
  deriving DecidableEq, Repr

/-- The context of a queue that is not DISABLED; its registers stand in State.vfq (R66). -/
structure QueueCtx where
  vf : Nat
  q : Nat
  /-- TAIL (R71). -/
  tail : Nat
  /-- Accepted records in SEQ order. -/
  records : List SubRecord
  /-- Held completions still to be written after a RESUME (R80). -/
  flush : Nat
  deriving DecidableEq, Repr

/-! ### Arbiters, ways, mesh and leave (R94–R114)

An arbiter is named by 2^20 × class + its number in the class; number 2^19 + p names every arbiter of the class in
partition p, and 2^19 + 16 every arbiter of the class, that has no level of its own. -/

/-- Bucket level of an owner at an arbiter (R100); owner 514 stands for the reserved traffic (R101). -/
structure Level where
  arb : Nat
  owner : Nat
  level : Int
  deriving DecidableEq, Repr

/-- An arbiter that traffic has still to pass: at a mesh output with its input port, virtual channel and flits (R107, R108);
at another, `flits` is the charge. A line that a die link carries is named with its source and destination die, and its charge
is found when it is granted (R13, R100). -/
structure Hop where
  arb : Nat
  input : Nat
  vc : Nat
  flits : Nat
  line : Option (Nat × Nat × Nat)
  deriving DecidableEq, Repr

/-- A waiting request at an arbiter that is no mesh output (R101), with the arbiters after it. Those of the fabric ports are
the messages at the hub. -/
structure ArbReq where
  arb : Nat
  owner : Nat
  charge : Nat
  reserved : Bool
  line : Option (Nat × Nat × Nat)
  vc : Nat
  rest : List Hop
  deriving DecidableEq, Repr

/-- A line of an L2 slice or remote-data cache slice, least recently used first (R105), and whether it has been written
since it was filled. -/
structure SliceLine where
  line : Nat
  owner : Nat
  way : Nat
  dirty : Bool
  deriving DecidableEq, Repr

/-- A slice: an L2 slice (0–63: 16 × die + cluster) or a remote-data cache slice (64 + the same) (R92, R105). -/
structure Slice where
  id : Nat
  /-- Ways dealt, by owner in number order. -/
  deal : List (Nat × Nat)
  /-- Epoch of the last fill of an owner. -/
  lastFill : List (Nat × Nat)
  /-- Owners whose ways are being reclaimed from borrowers. -/
  reclaim : List Nat
  /-- Cycles of the evictions for reclaim in the last 1,000. -/
  evictions : List Nat
  lines : List SliceLine
  deriving DecidableEq, Repr

/-- A packet in an input virtual channel of a router, in order of arrival; the first of a channel is its head (R108, R110).
An output is 80 × die + 5 × (4y + x) + port. -/
structure MeshHead where
  output : Nat
  input : Nat
  vc : Nat
  flits : Nat
  owner : Nat
  /-- Traffic of the reserved rate (R101). -/
  reserved : Bool
  /-- Age at cycle `asOf`. -/
  age : Nat
  asOf : Nat
  /-- The arbiters after this output. -/
  rest : List Hop
  deriving DecidableEq, Repr

/-- A mesh output: credits, channel pointer and last ports (R111), the PROMOTE of its round (R109), and the
cycle at which it is free. -/
structure MeshOut where
  output : Nat
  credits : List Nat
  p : Nat
  last : List Nat
  promote : Nat
  freeAt : Nat
  deriving DecidableEq, Repr

/-- Who asks for power leave (R112). -/
inductive LeaveFor where
  | op (id : Nat)
  /-- A `trace` burst of a core. -/
  | burst (core : Nat)
  deriving DecidableEq, Repr

/-- A request for power leave at a die's governor, in arrival order, or leave held (R113). -/
structure Leave where
  die : Nat
  units : Nat
  who : LeaveFor
  granted : Bool
  deriving DecidableEq, Repr

/-! ### Die links (R6–R22)

Direction 2 × link + 0 of a ring link runs from die `link` east, of a hub link from the die to the hub; + 1 runs back. -/

/-- One end's half of a direction: epoch, next sequence number, dictionary and insert pointer (R13, R17). -/
structure LinkEnd where
  epoch : Nat
  seq : Nat
  /-- Entries that are not zero. -/
  dict : List (Nat × Word)
  ptr : Nat
  deriving DecidableEq, Repr

/-- A die-link message of one line (R7, R8): source and destination die, 4 for the hub, and class, by the number of its
mesh channel (0 latency requests, 1 bulk requests, 2 responses, 3 coherence and active messages). -/
structure DieMsg where
  src : Nat
  dst : Nat
  cls : Nat
  line : BitVec 1024
  deriving DecidableEq, Repr

/-- A line held for retransmission (R20). -/
structure HeldLine where
  seq : Nat
  msg : DieMsg
  deriving DecidableEq, Repr

/-- A line packet (R13), with the source, the destination and the class of the message that it carries (R8). -/
structure LinePacket where
  header : Word
  payload : List Byte
  src : Nat
  dst : Nat
  cls : Nat
  deriving DecidableEq, Repr

/-- A direction of a die link. -/
structure LinkDir where
  dir : Nat
  tx : LinkEnd
  rx : LinkEnd
  /-- Lines not yet covered by an acknowledgement, oldest first. -/
  held : List HeldLine
  /-- Packets on their way, oldest first. -/
  wire : List LinePacket
  /-- A RESYNC(s, e) on its way to the sender. -/
  resync : Option (Nat × Nat)
  /-- The receiver discards lines of its epoch (R19). -/
  discarding : Bool
  /-- Messages that wait at the sender for the direction: those it forwards (R7) and those held for this path (R9). -/
  relay : List DieMsg
  /-- Messages delivered at their destination by this direction, in order. -/
  delivered : List DieMsg
  deriving DecidableEq, Repr

/-- The link layer of a die link (R11, R12). -/
structure LinkLayer where
  link : Nat
  /-- Retraining since a cycle, with the attempts made in a row. -/
  training : Option Nat
  attempts : Nat
  /-- Flits replayed from a retry buffer. -/
  replays : Nat
  deriving DecidableEq, Repr

/-- Traffic of a die to its opposite die (R7, R9): the path in use, the messages on it that are not yet accepted at their
destination, and the messages held at the source, each with its path (through the hub when true). -/
structure OppPath where
  die : Nat
  viaHub : Bool
  outstanding : Nat
  held : List (Bool × DieMsg)
  deriving DecidableEq, Repr

/-! ### The fabric (R27–R30, R489–R491) -/

/-- A message at the hub that has not been sent. `header` is the 64-byte content of its header flit. -/
structure FabMsg where
  id : Nat
  dst : Nat
  owner : Nat
  header : BitVec 512
  payload : List Word
  /-- Launch, team and group numbers of an `xst` (R490). -/
  source : Option (Nat × Nat × Nat)
  deriving DecidableEq, Repr

/-- A message sent and not yet acknowledged: device, SEQ, launch, team and group (R490). -/
structure FabWait where
  dst : Nat
  seq : Nat
  launch : Nat
  team : Nat
  group : Nat
  deriving DecidableEq, Repr

/-- A message that left by a port. -/
structure FabSent where
  port : Nat
  header : BitVec 512
  payload : List Word
  deriving DecidableEq, Repr

/-! ### Scan-out (R34–R61) -/

/-- An accepted frame record (R38, R39). -/
structure Presented where
  vf : Nat
  dev : Nat
  rec_ : BitVec 512
  /-- NET_EN is 1 and the network descriptor is valid (R49). -/
  net : Bool
  /-- SGSWAP at the acceptance (R58). -/
  swap : Word
  deriving DecidableEq, Repr

/-- A band whose window is open (R43, R44). -/
structure Band where
  band : Nat
  /-- The usable pose read for it, if any (R52). -/
  pose : Option (BitVec 512)
  /-- F3 of the band in the hold buffer, by pixel and channel; none where the spec fixes no value (R44). -/
  hold : List (Option Nat)
  deriving DecidableEq, Repr

/-- A frame whose last bands are fixed after the latch line of the next (R43). -/
structure Finishing where
  frame : Presented
  repeats : Bool
  previous : Option Presented
  rpose : Option (BitVec 512)
  bands : List Band
  map : List Byte
  deriving DecidableEq, Repr

/-- A store of the display engine that waits for its bytes to be free (R273, R280). -/
structure DisplayWrite where
  vf : Nat
  dev : Nat
  va : Nat
  data : List Byte
  deriving DecidableEq, Repr

/-- A port of the display engine. -/
structure Port where
  port : Nat
  pending : Option Presented
  /-- The frame being built for the next line 0, and whether it repeats the frame before. -/
  building : Option Presented
  repeats : Bool
  shown : Option Presented
  /-- The frame shown before the one that is being built (R45). -/
  previous : Option Presented
  /-- The usable render-time pose, and the last usable latest pose of the frame (R52). -/
  rpose : Option (BitVec 512)
  pose : Option (BitVec 512)
  bands : List Band
  /-- Map bytes of the bands fixed so far. -/
  map : List Byte
  /-- CUTOFF in use (R35). -/
  cutoff : Nat
  /-- Cycle of the last line 0 (R57), and the cycles of the frame that began there (R36, R55, R60). -/
  line0At : Nat
  frameLen : Nat
  /-- The latch line of that frame has been dealt with (R41). -/
  latched : Bool
  finishing : Option Finishing
  writes : List DisplayWrite
  /-- A frame edge of the genlock reference and its frame length in cycles, when the port has locked to it (R55). -/
  edge : Option (Nat × Nat)
  deriving DecidableEq, Repr

/-- A present handed to the display engine (R492). -/
structure PresentReq where
  vf : Nat
  dev : Nat
  va : Nat
  /-- Model number of the group, and its launch, team and group numbers. -/
  group : Nat
  source : Nat × Nat × Nat
  deriving DecidableEq, Repr

/-- The swap group of the device (R56–R60). -/
structure SwapGroup where
  /-- Devices whose arrival for the current swap has been recorded. -/
  arrived : List Nat
  /-- This member has sent its arrival for the current swap. -/
  sent : Bool
  /-- The decision received for the current frame: RELEASE when true. -/
  decision : Option Bool
  /-- The decision that ports of the group act on at the present latch line, and those that have still to reach it (R59). -/
  acting : Bool
  due : List Nat
  /-- θ in ns, ringmaster time less local time, and T_F (R60). -/
  skew : Int
  tf : Option Nat
  deriving DecidableEq, Repr

/-! ### Management (R31–R33, R83–R91) -/

/-- Counts of the lifetime record that Cytos keeps (R91). -/
structure Lifetime where
  recordNo : Nat
  serial : Nat
  hours : Nat
  boots : Nat
  alarms : Nat
  thermTrips : Nat
  /-- Uncorrectable and corrected reads by channel, retrains by link and port, where not 0. -/
  uncorr : List (Nat × Nat)
  corr : List (Nat × Nat)
  retrains : List (Nat × Nat)
  /-- TEMP_HIST and VOLT_HIST in minutes, ROLLBACK_HIST in hours, by bin. -/
  tempHist : List Nat
  voltHist : List Nat
  rollHist : List Nat
  deriving DecidableEq, Repr

/-- The management controller and Cytos. -/
structure Mgmt where
  powered : Bool
  /-- Stages of R31 completed. -/
  stage : Nat
  alarmed : Bool
  /-- The derived keys exist (R88, R90), and the device identity key and the attestation key. -/
  keys : Bool
  identity : Nat
  attest : Nat
  /-- AUTO_SVN and ALARM_POLICY of the configuration record (R87, R90). -/
  autoSvn : Bool
  alarmPolicy : Bool
  /-- Slot (0 is A), SVN and digest of the running images by kind, the configuration record last (R86), and the
  replay-protected counters (R87). -/
  active : List Nat
  svn : List Nat
  digests : List Nat
  counters : List Nat
  /-- The configuration record that the boot verified (R86). -/
  config : List Word
  /-- Flash: slot x of the image of kind k at 2k + x, for kinds 0 to 3, and the configuration record at 8 (R85, R86). -/
  flash : List (Nat × List Word)
  life : Lifetime
  /-- Latest version of the lifetime record, 128 words. -/
  record : List Word
  /-- Dies whose clock is throttled for temperature (R33). -/
  throttled : List Nat
  /-- SPDM responses delivered over DOE: request, measurements and signature (R89). -/
  spdm : List (Nat × List Nat × Nat)
  deriving DecidableEq, Repr

end Sys2Proof.Machine
end

