-- ==== Sys2Proof/Machine/State.lean ====
section
/-!
DEFINITION. The state of the package: everything the spec gives the machine, as plain data, and the state after
reset (INVENTORY.md lists every piece with its rule and its reset value).
-/

namespace Sys2Proof.Machine

/-- Why a step stops with a fault. -/
inductive Fault where
  /-- An instruction word was given to `exec` while no group is resident to issue it; raised by the issue operation.
  Safe: no rule of the spec gives an instruction an effect without a group (R207). -/
  | noGroup
  deriving DecidableEq, Repr

/-- Why an instruction has no meaning. -/
inductive Refusal where
  /-- The instruction is not modelled yet; raised by its arm of `exec`. Safe. -/
  | notModelled (mnemonic : String)
  deriving DecidableEq, Repr

/-- State of one cache line of an L1 or a remote-data cache (R246); I is absence. -/
inductive LineState where
  | shared | modified
  deriving DecidableEq, Repr

/-- A line held by a cache: `holder` is a core (0–255) for its L1, 256 + partition for the remote-data cache slices of a row
(R92), 512 + core for its instruction cache, and 1024 for the host (R289). -/
structure CacheLine where
  holder : Nat
  line : Nat
  st : LineState
  deriving DecidableEq, Repr

/-- An ownership request of a core on a line (R248). -/
structure OwnReq where
  core : Nat
  line : Nat
  /-- The home has granted; the grant has reached the core. -/
  granted : Bool
  received : Bool
  /-- Acknowledgements still to come. -/
  acks : Nat
  deriving DecidableEq, Repr

/-- An invalidation on its way to a holder, and the core that counts its acknowledgement (R248). -/
structure Inval where
  holder : Nat
  line : Nat
  requester : Nat
  /-- The holder has dropped its copy and the acknowledgement travels. -/
  acked : Bool
  deriving DecidableEq, Repr

/-- A cached translation (R239): the page, its leaf and where the leaf lies. `place` is a core, or 256 + die. -/
structure TlbEntry where
  place : Nat
  vf : Nat
  /-- VA of the page and log2 of its size. -/
  page : Nat
  size : Nat
  leaf : Nat
  leafAddr : Nat
  /-- Far-tier accesses counted (R255), in a die's cache. -/
  count : Nat
  deriving DecidableEq, Repr

/-- A locked range (R279, R280). -/
structure RangeLock where
  op : Nat
  space : Space
  lo : Nat
  /-- One past the last byte. -/
  hi : Nat
  write : Bool
  /-- Number of the range in its operation, and the table that holds it: a die, 4 for the hub, 5 for none (R279). -/
  range : Nat
  home : Nat
  deriving DecidableEq, Repr

/-- The agent that met a replayable fault (R242–R245, R75, R119). -/
inductive FaultAgent where
  | group (id : Nat)
  | engine (op : Nat)
  | record (vf q seq : Nat)
  | args (team : Nat)
  /-- A ray of a `trace` (R201): the producer. -/
  | ray (prod : Nat)
  deriving DecidableEq, Repr

/-- A replayable fault, posted with a TAG or waiting to be posted (R243). -/
structure FaultRec where
  vf : Nat
  page : Nat
  va : Nat
  write : Bool
  exec : Bool
  eng : Bool
  hub : Bool
  core : Nat
  tag : Option Nat
  agents : List FaultAgent
  deriving DecidableEq, Repr

/-- A scratchpad-window table entry (R251). `slot` is 64 × core + entry. -/
structure WinEntry where
  slot : Nat
  openerTeam : Option Nat
  offset : Nat
  sw : Bool
  gen : BitVec 8
  deriving DecidableEq, Repr

/-- What an active message does (R252). -/
inductive MsgKind where
  | load (sx : Bool)
  | store
  | atom (op : AtomOp)
  deriving DecidableEq, Repr

/-- A lane of an active message: byte in the block, and data of a store or operands of an atomic. -/
structure MsgLane where
  lane : Nat
  off : Nat
  v : Nat
  sv : Nat
  deriving DecidableEq, Repr

/-- An active message on its way to the opener's bank unit (R252). -/
structure ActiveMsg where
  target : Nat
  /-- Slot of the window table. -/
  slot : Nat
  group : Nat
  /-- The producer that its results complete. -/
  prod : Option Nat
  /-- Opener team and offset of the block. -/
  team : Nat
  base : Nat
  kind : MsgKind
  /-- Bytes of an access. -/
  size : Nat
  lanes : List MsgLane
  deriving DecidableEq, Repr

/-- A home-performed atomic: its lanes not yet performed (R433). -/
structure HomeAtomic where
  group : Nat
  producer : Option Nat
  op : AtomOp
  w64 : Bool
  /-- Lane, physical address, operand v, swap value s. -/
  lanes : List (Nat × Nat × Nat × Nat)
  deriving DecidableEq, Repr

/-- A ticket booth (R439). -/
structure Booth where
  k : Nat
  next : Word
  serving : Word
  deriving DecidableEq, Repr

/-- A task slot (R121); a slot not listed is IDLE with C and E 0. -/
structure TaskSlot where
  k : Nat
  c : Nat
  e : Nat
  held : Option Nat
  deriving DecidableEq, Repr

/-- Where a launch stands (R76, R121–R123). -/
inductive LaunchState where
  /-- Accepted, waiting for its start or its task slot. -/
  | waiting
  /-- In its priority level (R123). -/
  | ready
  | complete
  deriving DecidableEq, Repr

/-- A queue of a pipeline (R129), with its captured kernel. -/
structure PQueue where
  kernel : Kernel
  rows : Nat
  nrows : Nat
  pay : Nat
  age : Nat
  deriving DecidableEq, Repr

/-- A launch (R74, R115, R123). -/
structure Launch where
  id : Nat
  vf : Nat
  q : Nat
  seq : Word
  dev : Nat
  prio : Nat
  kernel : Kernel
  queues : List PQueue
  args : Nat
  gx : Nat
  gy : Nat
  gz : Nat
  state : LaunchState
  /-- Its record has started (R76), and the task slot that holds it. -/
  started : Bool
  task : Option Nat
  notify : Option Nat
  /-- Next team to place, and the cycle since which it has waited for placement (R127). -/
  next : Nat
  waitSince : Option Nat
  /-- Order of becoming ready within its level (R123). -/
  order : Nat
  /-- CAUSE and the faulting group, once it has faulted (R76). -/
  cause : Option Nat
  faultGroup : Nat
  faultPc : DWord
  aborted : Bool
  /-- Launched by `enq`: no completion record (R487). -/
  enq : Bool
  /-- Address of a kernel descriptor whose read still waits (R115). -/
  kdesc : Option Nat
  deriving DecidableEq, Repr

/-- A reservation of a core or pair for a waiting team (R127): the next team of a launch, or a saved team. -/
structure Reservation where
  die : Nat
  core : Nat
  pair : Bool
  launch : Nat
  team : Option Nat
  deriving DecidableEq, Repr

/-- A page move of the migration engine under its locks (R256). -/
structure Move where
  vf : Nat
  /-- Address of the leaf, the first of 16 for a 64 KiB page, and the number of leaves. -/
  leaf : Nat
  count : Nat
  /-- log2 of the page size. -/
  size : Nat
  /-- 52-bit addresses of the old and the new frame, and the new HP. -/
  oldPa : Nat
  newPa : Nat
  hp : Nat
  /-- Slot of the migration ring; none for a promotion by counters. -/
  slot : Option Nat
  /-- Address of the frame pool's element that a promotion took (R255). -/
  element : Option Nat
  deriving DecidableEq, Repr

/-- A decrement on its way to the task table (R122), with the `taskdec` operation that sent it. -/
structure TaskDec where
  vf : Nat
  k : Nat
  n : Nat
  op : Option Nat
  deriving DecidableEq, Repr

/-- The state of the package. -/
structure State where
  /-- Package cycle count (R493 CLOCK). -/
  cycle : Nat
  /-- The model's own: events that have occurred and wait for their step (log entry 2). -/
  agenda : List Instr
  /-- The model's own: the interleaving to come (log entry 2). -/
  turns : List Nat
  /-- The model's own: the group and slot (B when true) that issue (log entry 2). -/
  cur : Nat
  curB : Bool
  /-- The model's own: the counter that free values are applied to (log entry 3). -/
  draw : Nat
  /-- The model's own: the next number for a group, team, launch, producer, operation or message. -/
  nextId : Nat
  groups : List Group
  teams : List Team
  launches : List Launch
  /-- Memory of every region by canonical physical address (R233, R234). -/
  mem : List Cell
  /-- Poisoned lines (R25). -/
  poison : List Nat
  /-- Symbols in error by line, where any (R24): errors come from outside the machine. -/
  symErrs : List (Nat × Nat)
  caches : List CacheLine
  /-- Home partition of the far-tier lines of a 4 KiB frame, as the leaf of the last access names it (R235). -/
  homes : List (Nat × Nat)
  own : List OwnReq
  inval : List Inval
  tlb : List TlbEntry
  locks : List RangeLock
  faults : List FaultRec
  moves : List Move
  /-- Functions whose next fault record carries PHASE 0 (R243). -/
  oddPass : List Nat
  /-- Leaves whose HEAT has reached THRESH: function, address and log2 of the page (R255). -/
  hot : List (Nat × Nat × Nat)
  decs : List TaskDec
  wins : List WinEntry
  msgs : List ActiveMsg
  homeAtoms : List HomeAtomic
  booths : List Booth
  tasks : List TaskSlot
  ops : List EngineOp
  /-- Accumulator operations that wait at their engines, in the order of their arrival (R444). -/
  tileOps : List TileOp
  /-- Operations that have parked on pools, in the order in which they parked (R159). -/
  poolOrder : List Nat
  /-- MSI-X vectors signalled: function (512 for PF 0) and vector, oldest first. -/
  msix : List (Nat × Nat)
  frames : List Frame
  stores : List Store
  rows : List Row
  /-- The host port is attached through CXL (R63). -/
  cxl : Bool
  /-- Registers of PF 0 BAR0 by offset (R65) and of the queues (R66) that do not hold their reset values. -/
  pf : List (Nat × Word)
  vfq : List (Nat × Word)
  queues : List QueueCtx
  /-- Functions whose queues are STOPPED (R80). -/
  stopped : List Nat
  /-- Share entries in effect (R98), by their offset in PF 0 BAR0, where not 0. -/
  shares : List (Nat × Word)
  /-- Epoch boundaries passed (R97). -/
  epoch : Nat
  levels : List Level
  requests : List ArbReq
  /-- Owner last granted, plus 1, at an arbiter in a step of R101, by 2 × arbiter + step. -/
  roundRobin : List (Nat × Nat)
  slices : List Slice
  /-- Packets in the mesh (R107–R111). -/
  meshHeads : List MeshHead
  meshOuts : List MeshOut
  leaves : List Leave
  /-- Cycle since which the ray unit of a core with leave has had no ray in flight (R112). -/
  raysIdle : List (Nat × Nat)
  linkDirs : List LinkDir
  linkLayers : List LinkLayer
  oppPaths : List OppPath
  /-- Messages at the hub, sequence numbers by destination, messages not acknowledged, messages sent. -/
  fabWaiting : List FabMsg
  fabSeq : List (Nat × Nat)
  fabUnacked : List FabWait
  fabSent : List FabSent
  /-- Destinations whose new messages are held after a write of their route (R28). -/
  fabHeld : List Nat
  /-- Output ports that are down (R31). -/
  fabDown : List Nat
  /-- Flits replayed by port (R27). -/
  fabReplays : List (Nat × Nat)
  /-- The device's own number on the fabric (R29). -/
  device : Nat
  ports : List Port
  presents : List PresentReq
  swap : SwapGroup
  mgmt : Mgmt
  reserved : List Reservation
  deriving DecidableEq, Repr

/-! ### The state after reset -/

/-- Both ends of a direction as at reset (R17). -/
def LinkDir.reset (d : Nat) : LinkDir :=
  let e : LinkEnd := { epoch := 0, seq := 0, dict := [], ptr := 0 }
  { dir := d, tx := e, rx := e, held := [], wire := [], resync := none, discarding := false, relay := [],
    delivered := [] }

/-- A port as at reset (R35–R37). -/
def Port.reset (p : Nat) : Port :=
  { port := p, pending := none, building := none, repeats := false, shown := none, previous := none, rpose := none,
    pose := none, bands := [], map := [], cutoff := 0, line0At := 0, frameLen := 0, latched := false, finishing := none,
    writes := [], edge := none }

/-- The management state of a module whose supply has come on and which has completed no stage (R31, R84). -/
def Mgmt.reset : Mgmt :=
  { powered := true, stage := 0, alarmed := false, keys := false, identity := 0, attest := 0, autoSvn := false,
    alarmPolicy := false, active := [0, 0, 0, 0, 0], svn := [0, 0, 0, 0, 0], digests := [0, 0, 0, 0, 0],
    counters := [0, 0, 0, 0, 0], config := [], flash := [],
    life := { recordNo := 0, serial := 0, hours := 0, boots := 0, alarms := 0, thermTrips := 0, uncorr := [], corr := [],
              retrains := [], tempHist := List.replicate 16 0, voltHist := List.replicate 8 0,
              rollHist := List.replicate 8 0 },
    record := [], throttled := [], spdm := [] }

/-- The machine right after reset: power has come on, no stage of start-up has completed (R31), every register holds
its reset value and no program is resident (log entries 1 and 5). -/
def State.reset : State :=
  { cycle := 0, agenda := [], turns := [], cur := 0, curB := false, draw := 0, nextId := 1, groups := [], teams := [],
    launches := [], mem := [], poison := [], symErrs := [], caches := [], homes := [], own := [], inval := [], tlb := [], locks := [], faults := [],
    moves := [], oddPass := [], hot := [], decs := [], wins := [], msgs := [], homeAtoms := [], booths := [], tasks := [], ops := [], tileOps := [], poolOrder := [], msix := [],
    frames := [], stores := [], rows := [], cxl := true, pf := [], vfq := [], queues := [], stopped := [], shares := [], epoch := 0, levels := [],
    requests := [], roundRobin := [], slices := [], meshHeads := [], meshOuts := [], leaves := [], raysIdle := [],
    linkDirs := (List.range 16).map LinkDir.reset,
    linkLayers := (List.range 8).map (fun l => { link := l, training := none, attempts := 0, replays := 0 }),
    oppPaths := (List.range 4).map (fun d =>
      { die := d, viaHub := false, outstanding := 0, held := [] }),
    fabWaiting := [], fabSeq := [], fabUnacked := [], fabSent := [], fabHeld := [], fabDown := [], fabReplays := [],
    device := 0, ports := (List.range 4).map Port.reset, presents := [],
    swap := { arrived := [], sent := false, decision := none, acting := false, due := [], skew := 0, tf := none }, mgmt := Mgmt.reset, reserved := [] }

end Sys2Proof.Machine
end

