-- ==== Sys2Proof/Machine/Registers.lean ====
section
/-!
DEFINITION. Registers, lanes and MODE: reading a name in a lane (R212), its class (R211), the shape of a result
(R213), and the one write of a name under a mask (R214, R215); the fields of MODE (R342).
-/

namespace Sys2Proof.Machine

/-! ### Lanes -/

/-- Bit `l` of a mask. -/
def hasLane (m : Mask) (l : Nat) : Bool := m.getLsbD l

/-- A mask with one lane. -/
def oneLane (l : Nat) : Mask := 1#64 <<< l

/-- The lanes of a width. -/
def fullMask (w : Nat) : Mask := BitVec.ofNat 64 (2 ^ w - 1)

/-- The lanes of a mask below a width, ascending. -/
def lanesOf (w : Nat) (m : Mask) : List Nat := (List.range w).filter (fun l => hasLane m l)

/-- The mask of the lanes below a width for which `p` holds. -/
def maskWhere (w : Nat) (p : Nat → Bool) : Mask :=
  (List.range w).foldl (fun m l => if p l then m ||| oneLane l else m) 0

/-- Number of lanes. -/
def popLanes (w : Nat) (m : Mask) : Nat := (lanesOf w m).length

/-! ### Shapes -/

inductive Shape where
  | uniform | affine | general
  deriving DecidableEq, Repr

def Shape.code : Shape → Nat
  | .uniform => 0 | .affine => 1 | .general => 2

/-- The order of width (R215). -/
def Shape.le (a b : Shape) : Bool := decide (a.code ≤ b.code)

def RegVal.shape : RegVal → Shape
  | .uniform _ => .uniform
  | .affine _ _ => .affine
  | .general _ => .general

/-- The word that lane `l` reads (R212). -/
def RegVal.lane (v : RegVal) (l : Nat) : Word :=
  match v with
  | .uniform u => u
  | .affine b s => b + BitVec.ofNat 32 l * s
  | .general ws => ws.getD l 0

/-- A general value of a width. -/
def RegVal.ofLanes (w : Nat) (f : Nat → Word) : RegVal := .general ((List.range w).map f)

def Reg.default : Reg := { val := .uniform 0, full := true, poison := false }

/-- A name of a group. -/
def Group.reg (g : Group) (r : RegName) : Reg := g.regs.getD r.toNat Reg.default

def Group.setReg (g : Group) (r : RegName) (x : Reg) : Group := { g with regs := g.regs.set r.toNat x }

/-- The word a lane reads from a name. -/
def Group.word (g : Group) (r : RegName) (l : Nat) : Word := (g.reg r).val.lane l

/-- The 64-bit value a lane reads from a pair (R212). -/
def Group.pair (g : Group) (r : RegName) (l : Nat) : DWord := pairOf (g.word r l) (g.word (r + 1) l)

/-- Predicate bit of a lane (R219). -/
def Group.pred (g : Group) (p : PredName) (l : Nat) : Bool := hasLane (g.preds.getD p.toNat 0) l

/-- A predicate with the bits of some lanes written (R219). -/
def Group.setPred (g : Group) (p : PredName) (m : Mask) (f : Nat → Bool) : Group :=
  let old := g.preds.getD p.toNat 0
  { g with preds := g.preds.set p.toNat (maskWhere g.width (fun l => if hasLane m l then f l else hasLane old l)) }

/-! ### Slots -/

def Group.slot (g : Group) (b : Bool) : Slot := if b then g.slotB else g.slotA

def Group.setSlot (g : Group) (b : Bool) (x : Slot) : Group :=
  if b then { g with slotB := x } else { g with slotA := x }

/-- The live lanes: the masks of the slots and of the stack (R221). -/
def Group.live (g : Group) : Mask :=
  g.stack.foldl (fun m e => m ||| e.mask) (g.slotA.mask ||| g.slotB.mask)

def Group.inTrap (g : Group) : Bool := g.trapB.isSome

/-! ### Classes (R211) -/

/-- The widest shape a name may hold; none for an unallocated name and for h0–h7 outside trap mode (R211, R296). -/
def Group.cls (g : Group) (r : RegName) : Option Shape :=
  let n := r.toNat
  if 120 ≤ n then (if g.inTrap then some .general else none)
  else if n < g.nG then some .general
  else if n < g.nG + g.nA then some .affine
  else if n < g.nG + g.nA + g.nU then some .uniform
  else none

/-- Class of a name whatever the mode, for the save area and `rest` (R306, R498). -/
def Group.clsAny (g : Group) (r : RegName) : Option Shape :=
  if 120 ≤ r.toNat then some .general else g.cls r

/-- Which class a name lies in, as a number: a span must not cross one (R211); h0–h7 are a class of their own. -/
def Group.clsIndex (g : Group) (n : Nat) : Nat :=
  if 120 ≤ n then 4
  else if n < g.nG then 0
  else if n < g.nG + g.nA then 1
  else if n < g.nG + g.nA + g.nU then 2
  else 3

/-- The names of a span from a first name. -/
def spanNames (r : RegName) (n : Nat) : List RegName := (List.range n).map (fun i => r + BitVec.ofNat 7 i)

/-- A span of names is allocated, lies in one class and does not run past h7, and its first name is a multiple of
`align` (R211, R339). -/
def Group.spanOk (g : Group) (r : RegName) (n align : Nat) : Bool :=
  decide (r.toNat % align = 0) && decide (r.toNat + n ≤ 128) &&
    (List.range n).all (fun i =>
      (g.cls (r + BitVec.ofNat 7 i)).isSome && decide (g.clsIndex (r.toNat + i) = g.clsIndex r.toNat))

/-! ### The write of a name (R213–R215) -/

/-- A result to be written: per lane, with the shape it would have under a full mask. -/
def RegVal.at (v : RegVal) (s : Shape) (w : Nat) : RegVal :=
  match s with
  | .general => .ofLanes w v.lane
  | _ => v

/-- The value a name takes when `v` is written under `mask` while `live` lanes are live (R214): all of `v` when the
mask covers the live lanes; what is held when no active lane differs; otherwise general lanes. Lanes that are not
live keep what they read (R371). -/
def RegVal.write (held v : RegVal) (w : Nat) (mask live : Mask) : RegVal :=
  if live &&& ~~~mask = 0 then
    (match v with
     | .general ws => .ofLanes w (fun l => if hasLane mask l then ws.getD l 0 else held.lane l)
     | v => v)
  else if (lanesOf w mask).all (fun l => v.lane l = held.lane l) then held
  else .ofLanes w (fun l => if hasLane mask l then v.lane l else held.lane l)

/-- The value that a write leaves in a name, or `none` when it is wider than the name's class (R215). -/
def Group.written (g : Group) (r : RegName) (v : RegVal) (mask : Mask) : Option RegVal :=
  let x := (g.reg r).val.write v g.width mask g.live
  match g.cls r with
  | some c => if x.shape.le c then some x else none
  | none => none

/-- A name written with a checked value: poison is cleared by a write that covers every live lane (R299). -/
def Group.put (g : Group) (r : RegName) (v : RegVal) (mask : Mask) (full poison : Bool) : Group :=
  let old := g.reg r
  let keep := old.poison && decide (g.live &&& ~~~mask ≠ 0)
  g.setReg r { val := v, full := full, poison := poison || keep }

/-- Writes of several names, or `none` when one is wider than its class: then none is written (R385, R405). -/
def Group.writeAll (g : Group) (ws : List (RegName × RegVal)) (mask : Mask) : Option Group :=
  ws.foldl (fun acc (r, v) =>
    match acc with
    | none => none
    | some g' =>
      match g.written r v mask with
      | some x => some (g'.put r x mask true false)
      | none => none) (some g)

/-! ### MODE (R342) -/

def modeType (m : Word) : Option MType := MType.ofCode (m.extractLsb' 5 5)
def modeRnd (m : Word) : Nat := (m.extractLsb' 10 3).toNat
def modeSat (m : Word) : Bool := m.getLsbD 13
def modeFtz (m : Word) : Bool := m.getLsbD 14
def modeSr (m : Word) : Bool := m.getLsbD 15
def modeGpred (m : Word) : PredName := m.extractLsb' 0 3
def modeGen (m : Word) : Bool := m.getLsbD 3
def modeGneg (m : Word) : Bool := m.getLsbD 4
/-- Trap enables, in the order of TRAPCAUSE.FLAGS with IDZ on top. -/
def modeEnables (m : Word) : BitVec 6 := m.extractLsb' 16 6

/-- The lanes of a mask in which the guard of MODE holds (R345). -/
def Group.guarded (g : Group) (m : Mask) : Mask :=
  if modeGen g.mode then
    maskWhere g.width (fun l => hasLane m l && (g.pred (modeGpred g.mode) l != modeGneg g.mode))
  else m

end Sys2Proof.Machine
end

