-- ==== Sys2Proof/Machine/Alu.lean ====
section
/-!
DEFINITION. Arithmetic on the elements of a type (15_isa_integer_generic.md, 16_isa_float_convert.md): each function
takes MODE and the encodings of elements, and gives the encoding of the result with the exceptions it raises.
A unit is the 32-bit or 64-bit value of a lane, which holds one, two or four elements (R310).
-/

namespace Sys2Proof.Machine

/-- Bits of an element. -/
def elemBits : MType → Nat
  | .int32 | .uint32 | .fp32 => 32
  | .int16x2 | .uint16x2 | .fp16x2 | .bf16x2 => 16
  | .int64 | .uint64 | .fp64 => 64
  | .e4m3x4 | .e5m2x4 | .crumb8x4 | .int8x4 | .uint8x4 => 8

/-- Elements of a unit (R414). -/
def elemCount : MType → Nat
  | .int16x2 | .uint16x2 | .fp16x2 | .bf16x2 => 2
  | .e4m3x4 | .e5m2x4 | .crumb8x4 | .int8x4 | .uint8x4 => 4
  | _ => 1

/-- Register names of a unit (R310). -/
def unitNames : MType → Nat
  | .int64 | .uint64 | .fp64 => 2
  | _ => 1

/-- The floating format of a type. -/
def typeFmt : MType → Option FFmt
  | .fp32 => some .fp32 | .fp16x2 => some .fp16 | .bf16x2 => some .bf16 | .fp64 => some .fp64
  | .e4m3x4 => some .e4m3 | .e5m2x4 => some .e5m2 | .crumb8x4 => some .crumb8
  | _ => none

/-- Signed integer types. -/
def typeSigned : MType → Bool
  | .int32 | .int16x2 | .int64 | .int8x4 => true
  | _ => false

/-- The generic types of R382: I, H, L, F, P, D. -/
def isI (t : MType) : Bool := t = .int32 || t = .uint32
def isH (t : MType) : Bool := t = .int16x2 || t = .uint16x2
def isL (t : MType) : Bool := t = .int64 || t = .uint64
def isF (t : MType) : Bool := t = .fp32
def isP (t : MType) : Bool := t = .fp16x2 || t = .bf16x2
def isD (t : MType) : Bool := t = .fp64
def isGeneric (t : MType) : Bool := isI t || isH t || isL t || isF t || isP t || isD t
def isIHL (t : MType) : Bool := isI t || isH t || isL t
def isFPD (t : MType) : Bool := isF t || isP t || isD t

/-- Smallest and largest integer of w bits. -/
def intMin (signed : Bool) (w : Nat) : Int := if signed then -(2 ^ (w - 1) : Nat) else 0
def intMax (signed : Bool) (w : Nat) : Int := if signed then (2 ^ (w - 1) : Nat) - 1 else (2 ^ w : Nat) - 1

/-- An encoding read as an integer. -/
def intOf (signed : Bool) (w x : Nat) : Int :=
  let x := x % 2 ^ w
  if signed && decide (2 ^ (w - 1) ≤ x) then (x : Int) - (2 ^ w : Nat) else x

/-- The encoding of an integer modulo 2^w. -/
def encInt (w : Nat) (x : Int) : Nat := (x % (2 ^ w : Nat)).toNat

/-- Wrap, or clamp under MODE saturation (R387). -/
def wrapClamp (m : Word) (t : MType) (x : Int) : Nat :=
  let w := elemBits t
  let s := typeSigned t
  encInt w (if modeSat m then max (intMin s w) (min (intMax s w) x) else x)

/-- Element `e` of a unit. -/
def elemOf (t : MType) (u e : Nat) : Nat := bits u (elemBits t * e) (elemBits t)

/-- The unit of a list of elements, lowest first. -/
def unitOf (w : Nat) : List Nat → Nat
  | [] => 0
  | x :: xs => x % 2 ^ w + 2 ^ w * unitOf w xs

/-- A function of elements applied to units element by element. -/
def mapUnit (t : MType) (us : List Nat) (f : Nat → List Nat → Nat × Flags) : Nat × Flags :=
  let rs := (List.range (elemCount t)).map (fun e => f e (us.map (fun u => elemOf t u e)))
  (unitOf (elemBits t) (rs.map (·.1)), rs.foldl (fun fl r => fl.or r.2) Flags.none)

def arg (xs : List Nat) (i : Nat) : Nat := xs.getD i 0

/-- Rounding mode and flushing of MODE. -/
def rndOf (m : Word) : Rnd := .ofCode (modeRnd m)

/-- A floating operand of an element under MODE. -/
def fop_ (f : FFmt) (m : Word) (x : Nat) : FVal := f.operand (modeFtz m) x

/-- A floating arithmetic result under MODE: rounding, flushing and saturation (R391). -/
def farith (f : FFmt) (m : Word) (r : Res) : Nat × Flags :=
  f.clamp01 (modeSat m) (f.arith (rndOf m) (modeFtz m) r)

/-- The floating format of a generic type, FP32 for the others (which no rule sends here). -/
def fmtOf (t : MType) : FFmt := (typeFmt t).getD .fp32

def isFloat (t : MType) : Bool := (typeFmt t).isSome

/-- `add`, `sub`, `mul` (R387, R391). -/
def eAdd (m : Word) (t : MType) (x y : Nat) : Nat × Flags :=
  if isFloat t then farith (fmtOf t) m (addVal (rndOf m) (fop_ (fmtOf t) m x) (fop_ (fmtOf t) m y))
  else (wrapClamp m t (intOf (typeSigned t) (elemBits t) x + intOf (typeSigned t) (elemBits t) y), Flags.none)

def eSub (m : Word) (t : MType) (x y : Nat) : Nat × Flags :=
  if isFloat t then
    farith (fmtOf t) m (addVal (rndOf m) (fop_ (fmtOf t) m x) (fop_ (fmtOf t) m y).negate)
  else (wrapClamp m t (intOf (typeSigned t) (elemBits t) x - intOf (typeSigned t) (elemBits t) y), Flags.none)

def eMul (m : Word) (t : MType) (x y : Nat) : Nat × Flags :=
  if isFloat t then farith (fmtOf t) m (mulVal (fop_ (fmtOf t) m x) (fop_ (fmtOf t) m y))
  else (wrapClamp m t (intOf (typeSigned t) (elemBits t) x * intOf (typeSigned t) (elemBits t) y), Flags.none)

/-- `mad`: d + a × b, fused (R387, R391). -/
def eMad (m : Word) (t : MType) (d x y : Nat) : Nat × Flags :=
  if isFloat t then
    farith (fmtOf t) m (madVal (rndOf m) (fop_ (fmtOf t) m d) (fop_ (fmtOf t) m x) (fop_ (fmtOf t) m y))
  else
    let i := intOf (typeSigned t) (elemBits t)
    (wrapClamp m t (i d + i x * i y), Flags.none)

/-- `min` and `max` (R388, R324). -/
def eMin (m : Word) (t : MType) (x y : Nat) : Nat × Flags :=
  if isFloat t then
    let f := fmtOf t
    let a := fop_ f m x; let b := fop_ f m y
    (minCode f a b (f.flushCode (modeFtz m) x) (f.flushCode (modeFtz m) y), (sigFlags a).or (sigFlags b))
  else
    ((if intOf (typeSigned t) (elemBits t) x ≤ intOf (typeSigned t) (elemBits t) y then x else y), Flags.none)

def eMax (m : Word) (t : MType) (x y : Nat) : Nat × Flags :=
  if isFloat t then
    let f := fmtOf t
    let a := fop_ f m x; let b := fop_ f m y
    (maxCode f a b (f.flushCode (modeFtz m) x) (f.flushCode (modeFtz m) y), (sigFlags a).or (sigFlags b))
  else
    ((if intOf (typeSigned t) (elemBits t) x ≤ intOf (typeSigned t) (elemBits t) y then y else x), Flags.none)

/-- `clamp`: min(max(d, a), b) (R388, R391). -/
def eClamp (m : Word) (t : MType) (d x y : Nat) : Nat × Flags :=
  let (h, f1) := eMax m t d x
  let (r, f2) := eMin m t h y
  (r, f1.or f2)

/-- `abs` and `neg`: integers wrap or clamp (R387); floating types change the sign bit alone (R391). -/
def eAbs (m : Word) (t : MType) (x : Nat) : Nat × Flags :=
  if isFloat t then (x % (fmtOf t).signBit, Flags.none)
  else (wrapClamp m t (intOf (typeSigned t) (elemBits t) x).natAbs, Flags.none)

def eNeg (m : Word) (t : MType) (x : Nat) : Nat × Flags :=
  if isFloat t then
    let b := (fmtOf t).signBit
    ((if x % (2 * b) < b then x % (2 * b) + b else x % (2 * b) - b), Flags.none)
  else (wrapClamp m t (-(intOf (typeSigned t) (elemBits t) x)), Flags.none)

/-- `addi` (R387, R391): imm8 is signed, converted exactly into a floating type. -/
def eAddi (m : Word) (t : MType) (imm : Int) (x : Nat) : Nat × Flags :=
  if isFloat t then
    farith (fmtOf t) m (addVal (rndOf m) (fop_ (fmtOf t) m x) (.num (decide (imm < 0)) imm.natAbs 0))
  else (wrapClamp m t (intOf (typeSigned t) (elemBits t) x + imm), Flags.none)

/-- `mulh` (R389). -/
def eMulh (t : MType) (x y : Nat) : Nat × Flags :=
  let i := intOf (typeSigned t) (elemBits t)
  (encInt (elemBits t) (i x * i y / (2 ^ elemBits t : Nat)), Flags.none)

/-- `div` (R390, R391). -/
def eDiv (m : Word) (t : MType) (x y : Nat) : Nat × Flags :=
  if isFloat t then farith (fmtOf t) m (divVal (fop_ (fmtOf t) m x) (fop_ (fmtOf t) m y))
  else
    let w := elemBits t
    let a := intOf (typeSigned t) w x
    let b := intOf (typeSigned t) w y
    if b = 0 then (2 ^ w - 1, { idz := true })
    else (wrapClamp m t (a.tdiv b), Flags.none)

/-- `rem` (R390). -/
def eRem (t : MType) (x y : Nat) : Nat × Flags :=
  let w := elemBits t
  let a := intOf (typeSigned t) w x
  let b := intOf (typeSigned t) w y
  if b = 0 then (x, { idz := true }) else (encInt w (a - b * a.tdiv b), Flags.none)

/-- `shl`, `shr`, `rot` with count k (R398). -/
def eShl (m : Word) (t : MType) (k x : Nat) : Nat × Flags :=
  let w := elemBits t
  let a := intOf (typeSigned t) w x
  -- a count of w or more shifts every bit out; 2 × w keeps the exact product small (R398)
  (wrapClamp m t (a * (2 ^ min k (2 * w) : Nat)), Flags.none)

def eShr (t : MType) (k x : Nat) : Nat × Flags :=
  let w := elemBits t
  (encInt w (intOf (typeSigned t) w x / (2 ^ min k (2 * w) : Nat)), Flags.none)

def eRot (t : MType) (k x : Nat) : Nat × Flags :=
  let w := elemBits t
  let j := k % w
  ((x * 2 ^ j + x / 2 ^ (w - j)) % 2 ^ w, Flags.none)

/-- `bfe` and `bfi` (R399): position and length from the field operand. -/
def eBfe (t : MType) (fld x : Nat) : Nat × Flags :=
  let w := elemBits t
  let pos := bits fld 0 8
  let len := bits fld 8 8
  if len = 0 ∨ w ≤ pos then (0, Flags.none)
  else
    let n := min len (w - pos)
    (encInt w (intOf (typeSigned t) n (bits x pos n)), Flags.none)

def eBfi (t : MType) (fld d x : Nat) : Nat × Flags :=
  let w := elemBits t
  let pos := bits fld 0 8
  let len := bits fld 8 8
  if len = 0 ∨ w ≤ pos then (d, Flags.none)
  else
    let n := min len (w - pos)
    (d - bits d pos n * 2 ^ pos + bits x 0 n * 2 ^ pos, Flags.none)

/-- Bits of a number, lowest first. -/
def bitList : Nat → Nat → List Bool
  | 0, _ => []
  | k + 1, x => decide (x % 2 = 1) :: bitList k (x / 2)

/-- Leading `false` bits of a list. -/
def zerosHead : List Bool → Nat
  | false :: bs => zerosHead bs + 1
  | _ => 0

def natOfBits : List Bool → Nat
  | [] => 0
  | b :: bs => (if b then 1 else 0) + 2 * natOfBits bs

/-- `popc`, `clz`, `ctz`, `brev` (R400). -/
def ePopc (t : MType) (x : Nat) : Nat × Flags := ((bitList (elemBits t) x).countP id, Flags.none)
def eClz (t : MType) (x : Nat) : Nat × Flags := (zerosHead (bitList (elemBits t) x).reverse, Flags.none)
def eCtz (t : MType) (x : Nat) : Nat × Flags := (zerosHead (bitList (elemBits t) x), Flags.none)
def eBrev (t : MType) (x : Nat) : Nat × Flags := (natOfBits (bitList (elemBits t) x).reverse, Flags.none)

/-- Byte i of the result of `perm` (R401). -/
def permByte (a b sel : Nat) : Nat :=
  let k := sel % 8
  let src := if k < 4 then bits a (8 * k) 8 else bits b (8 * (k - 4)) 8
  match bits sel 3 2 with
  | 0 => src
  | 1 => 255 - src
  | 2 => 0
  | _ => natOfBits (bitList 8 src).reverse

/-- `perm` (R401). -/
def permWord (d a b : Nat) : Nat :=
  unitOf 8 ((List.range 4).map (fun i => permByte a b (bits d (8 * i) 8)))

/-- The condition of `cmp` on one element (R393). -/
def eCmp (m : Word) (t : MType) (cc : Cond) (d a : Nat) : Bool × Flags :=
  if isFloat t then
    let f := fmtOf t
    let x := fop_ f m d; let y := fop_ f m a
    let un := x.isNan || y.isNan
    (match cc with
     | .eq => x.eq y
     | .ne => un || !(x.eq y)
     | .lt => x.lt y
     | .le => x.lt y || x.eq y
     | .gt => y.lt x
     | .ge => y.lt x || x.eq y
     | .un => un
     | .or => !un, (sigFlags x).or (sigFlags y))
  else
    let x := intOf (typeSigned t) (elemBits t) d
    let y := intOf (typeSigned t) (elemBits t) a
    (match cc with
     | .eq => decide (x = y) | .ne => decide (x ≠ y) | .lt => decide (x < y) | .le => decide (x ≤ y)
     | .gt => decide (y < x) | .ge => decide (y ≤ x) | .un => false | .or => false, Flags.none)

/-! ### Floating-point functions (16_isa_float_convert.md) -/

/-- `rcp` … `cos` (R407). -/
def eFn (fn : Fn) (m : Word) (t : MType) (x : Nat) : Nat × Flags :=
  let f := fmtOf t
  f.clamp01 (modeSat m)
    (if isP t then fn.eval16 f (rndOf m) (modeFtz m) x else fn.eval f (rndOf m) (modeFtz m) x)

/-- `fract` (R408). -/
def eFract (m : Word) (t : MType) (x : Nat) : Nat × Flags :=
  let f := fmtOf t
  f.clamp01 (modeSat m)
    (match fop_ f m x with
     | .nan s => (f.nan, if s then Flags.invalid else Flags.none)
     | .inf _ => (f.nan, Flags.invalid)
     | .num n a e =>
       if 0 ≤ e then (0, Flags.none)
       else
         let den := 2 ^ (-e).toNat
         let r := a % den
         let r' := if n then (if r = 0 then 0 else den - r) else r
         f.result .rtz (modeFtz m) false (.num { neg := false, m := r', e := e }))

/-- `rnd` (R408). -/
def eRnd (m : Word) (t : MType) (x : Nat) : Nat × Flags :=
  let f := fmtOf t
  f.clamp01 (modeSat m)
    (match fop_ f m x with
     | .nan s => (f.nan, if s then Flags.invalid else Flags.none)
     | .inf _ => (x, Flags.none)
     | .num n a e =>
       if a = 0 then ((if n then f.signBit else 0), Flags.none)
       else
         let (i, _) := roundInt (rndOf m) n a e
         ((f.result .rne false false (.num { neg := n, m := i.natAbs, e := 0 })).1, Flags.none))

/-- `ldexp` (R409). -/
def eLdexp (m : Word) (t : MType) (n : Int) (x : Nat) : Nat × Flags :=
  let f := fmtOf t
  f.clamp01 (modeSat m)
    (match fop_ f m x with
     | .nan s => (f.nan, if s then Flags.invalid else Flags.none)
     | .inf _ => (x, Flags.none)
     | .num s a e => f.result (rndOf m) (modeFtz m) false (.num { neg := s, m := a, e := e + n }))

/-- `frexpm` (R410). -/
def eFrexpm (m : Word) (t : MType) (x : Nat) : Nat × Flags :=
  let f := fmtOf t
  match fop_ f m x with
  | .nan s => (f.nan, if s then Flags.invalid else Flags.none)
  | .inf _ => (x, Flags.none)
  | .num s a _ =>
    if a = 0 then ((if s then f.signBit else 0), Flags.none)
    else ((f.result .rne false false (.num { neg := s, m := a, e := -(Nat.log2 a : Int) - 1 })).1, Flags.none)

/-- `frexpe`, an integer of `w` bits (R410). -/
def eFrexpe (m : Word) (t : MType) (x : Nat) : Nat × Flags :=
  let f := fmtOf t
  let w := if isP t then 16 else 32
  match fop_ f m x with
  | .nan s => (0, if s then Flags.invalid else Flags.none)
  | .inf _ => (2 ^ (w - 1) - 1, Flags.none)
  | .num _ a e => ((if a = 0 then 0 else encInt w (e + Nat.log2 a + 1)), Flags.none)

/-- The class of an encoding: the bit of the mask of `class` (R411). -/
def classBit (f : FFmt) (x : Nat) : Nat :=
  match f.val x with
  | .nan true => 0
  | .nan false => 1
  | .inf _ => 2
  | .num _ a _ => if a = 0 then 5 else if f.isSub x then 4 else 3

/-- Whether an encoding qualifies (R411). -/
def eClass (t : MType) (sel : SignSel) (cls : BitVec 6) (x : Nat) : Bool :=
  let f := fmtOf t
  let s := decide (f.signBit ≤ x % 2 ^ f.width)
  cls.getLsbD (classBit f x) &&
    (match sel with
     | .any => true | .pos => !s | .neg => s)

/-- `copysign` (R412). -/
def eCopysign (t : MType) (x y : Nat) : Nat × Flags :=
  let b := (fmtOf t).signBit
  (x % b + (if b ≤ y % (2 * b) then b else 0), Flags.none)

/-- `dot2` (R413): d in FP32, a and b units of a 16-bit floating type. -/
def dot2Unit (m : Word) (t : MType) (d a b : Nat) : Nat × Flags :=
  let f := fmtOf t
  let v i x := fop_ f m (elemOf t x i)
  farith .fp32 m (dot2Val (rndOf m) (fop_ .fp32 m d) (v 0 a) (v 0 b) (v 1 a) (v 1 b))

/-- Range of an integer type as a target of a conversion. -/
def typeRange (t : MType) : Int × Int := (intMin (typeSigned t) (elemBits t), intMax (typeSigned t) (elemBits t))

/-- One element converted from type `st` to type `dt` (R415); `r` is the stochastic value when MODE[15] is 1. -/
def eCvt (m : Word) (st dt : MType) (r : Option Nat) (x : Nat) : Nat × Flags :=
  match typeFmt st, typeFmt dt with
  | some f, some g =>
    let v := (f.operand (modeFtz m) x).res
    (match r with
     | none => g.result (rndOf m) (modeFtz m) (modeSat m) v
     | some k => g.resultStoch k (modeFtz m) (modeSat m) v)
  | some f, none =>
    let v := f.operand (modeFtz m) x
    let (lo, hi) := typeRange dt
    let (i, fl) := match r with
      | none => toInt (rndOf m) lo hi v
      | some k => toIntStoch k lo hi v
    (encInt (elemBits dt) i, fl)
  | none, some g =>
    let v := intRes (intOf (typeSigned st) (elemBits st) x)
    (match r with
     | none => g.result (rndOf m) (modeFtz m) (modeSat m) v
     | some k => g.resultStoch k (modeFtz m) (modeSat m) v)
  | none, none =>
    let i := intOf (typeSigned st) (elemBits st) x
    let (lo, hi) := typeRange dt
    (encInt (elemBits dt) (max lo (min hi i)), Flags.none)

/-! ### Stochastic rounding (R331) -/

/-- One step of the generator. -/
def srNext (s : Word) : Word :=
  let s := if s = 0 then 1 else s
  let t := s >>> 1
  if s.getLsbD 0 then t ^^^ 0x80200003#32 else t

/-- The 16-bit value of lane l and element e. -/
def srDraw (s : Word) (l e : Nat) : Nat :=
  let h := s ^^^ (BitVec.ofNat 32 l * 0x9E3779B9#32) ^^^ (BitVec.ofNat 32 e * 0x85EBCA6B#32)
  let h := h ^^^ (h >>> 16)
  (h.extractLsb' 0 16).toNat

/-! ### Atomic operations (R429, R430) -/

/-- The value an atomic writes: `v` the operand, `sw` the swap value of `cas`. -/
def atomNew (op : AtomOp) (w64 : Bool) (old v sw : Nat) : Nat :=
  let w := if w64 then 64 else 32
  match op with
  | .add => (old + v) % 2 ^ w
  | .min => if intOf true w old ≤ intOf true w v then old else v
  | .umin => if old ≤ v then old else v
  | .max => if intOf true w old ≤ intOf true w v then v else old
  | .umax => if old ≤ v then v else old
  | .and => Nat.land old v
  | .or => Nat.lor old v
  | .xor => Nat.xor old v
  | .xchg => v
  | .cas => if old = v then sw else old
  | .inc => if v ≤ old then 0 else old + 1
  | .dec => if old = 0 ∨ v < old then v else old - 1
  | .fadd =>
    let f : FFmt := if w64 then .fp64 else .fp32
    (f.result .rne false false (addVal .rne (f.val old) (f.val v))).1

/-! ### FP32 arithmetic of the fixed units: RNE, subnormals kept -/

def f32 (r : Res) : Nat := (FFmt.fp32.arith .rne false r).1
def f32add (a b : Nat) : Nat := f32 (addVal .rne (FFmt.fp32.val a) (FFmt.fp32.val b))
def f32sub (a b : Nat) : Nat := f32 (addVal .rne (FFmt.fp32.val a) (FFmt.fp32.val b).negate)
def f32mul (a b : Nat) : Nat := f32 (mulVal (FFmt.fp32.val a) (FFmt.fp32.val b))
def f32div (a b : Nat) : Nat := f32 (divVal (FFmt.fp32.val a) (FFmt.fp32.val b))
def f32lt (a b : Nat) : Bool := (FFmt.fp32.val a).lt (FFmt.fp32.val b)
def f32le (a b : Nat) : Bool := f32lt a b || (FFmt.fp32.val a).eq (FFmt.fp32.val b)
def f32ofInt (i : Int) : Nat := (FFmt.fp32.result .rne false false (intRes i)).1
def f32finite (a : Nat) : Bool := match FFmt.fp32.val a with
  | .num _ _ _ => true
  | _ => false
/-- A code of another format converted to FP32 by RNE. -/
def f32of (f : FFmt) (c : Nat) : Nat := (FFmt.fp32.result .rne false false (f.val c).res).1
/-- FP32 converted to another format by RNE. -/
def f32to (f : FFmt) (c : Nat) : Nat := (f.result .rne false false (FFmt.fp32.val c).res).1
def f32neg (a : Nat) : Nat := if a < 2 ^ 31 then a + 2 ^ 31 else a - 2 ^ 31
def f32abs (a : Nat) : Nat := a % 2 ^ 31

/-! ### One block of the matrix engines (R334) -/

/-- Product of two operand values. -/
def matProd (a b : FVal) : FVal :=
  match a, b with
  | .nan _, _ => .nan false
  | _, .nan _ => .nan false
  | .inf n, .inf k => .inf (n != k)
  | .inf n, .num k m _ => if m = 0 then .nan false else .inf (n != k)
  | .num k m _, .inf n => if m = 0 then .nan false else .inf (n != k)
  | .num n m e, .num k p f => .num (n != k) (m * p) (e + f)

/-- Scales e of a block as powers: none when one is NaN. -/
def matBlock (acc : Nat) (as bs : List FVal) (scale : Option Int) : Nat :=
  let ps := List.zipWith matProd as bs
  let nan := ps.any FVal.isNan || (ps.any (· = .inf false) && ps.any (· = .inf true)) || scale.isNone
  let sc := scale.getD 0
  let put blk := f32 (addVal .rne (FFmt.fp32.val acc) (FFmt.fp32.val blk))
  if nan then put FFmt.fp32.nan
  else if ps.any (· = .inf false) then put FFmt.fp32.infinity
  else if ps.any (· = .inf true) then put (2 ^ 31 + FFmt.fp32.infinity)
  else
    let tops := ps.filterMap (fun p => match p with
      | .num _ m e => if m = 0 then none else some (e + (Nat.log2 m : Int))
      | _ => none)
    match tops with
    | [] => acc
    | t :: ts =>
      let e0 := ts.foldl max t - 27
      let s : Int := ps.foldl (fun acc p => match p with
        | .num n m e => let k : Int := (({ neg := n, m := m, e := e } : Exact).place e0).1; if n then acc - k else acc + k
        | _ => acc) 0
      if s = 0 then put 0
      else put (f32 (.num { neg := decide (s < 0), m := s.natAbs, e := e0 + sc }))

end Sys2Proof.Machine
end

