-- ==== Sys2Proof/Machine/Flags.lean ====
section
/-!
DEFINITION. Trap causes, their order, and the choice of the cause that an instruction reports (11 R290–R293, R406).
-/

namespace Sys2Proof.Machine

/-- The trap causes (R290). -/
inductive Cause where
  | illegalOpcode | illegalType | illegalRegister | shape | uniformity | emptyRead | misalignedPc
  | misalignedData | pageFault | rangeBusy | fpInvalid | fpDivZero | fpOverflow | fpUnderflow | fpInexact
  | intDivZero | software | preempt | stackOverflow | badHandle | bucketOwner | watchdog | double
  | eccUncorrectable | indirectDivergence
  deriving DecidableEq, Repr

/-- Code of a cause (R290). -/
def Cause.code : Cause → BitVec 8
  | .illegalOpcode => 0x01 | .illegalType => 0x02 | .illegalRegister => 0x03 | .shape => 0x04
  | .uniformity => 0x05 | .emptyRead => 0x06 | .misalignedPc => 0x07 | .misalignedData => 0x08
  | .pageFault => 0x09 | .rangeBusy => 0x0A | .fpInvalid => 0x0B | .fpDivZero => 0x0C | .fpOverflow => 0x0D
  | .fpUnderflow => 0x0E | .fpInexact => 0x0F | .intDivZero => 0x10 | .software => 0x11 | .preempt => 0x12
  | .stackOverflow => 0x13 | .badHandle => 0x14 | .bucketOwner => 0x15 | .watchdog => 0x16 | .double => 0x17
  | .eccUncorrectable => 0x18 | .indirectDivergence => 0x19

/-- The cause of a code, for a pending fault of a path counter (R370). -/
def Cause.ofPending (c : BitVec 8) : Cause :=
  if c = 0x14 then .badHandle else if c = 0x18 then .eccUncorrectable else .pageFault

/-- Place of a cause in the order of R292, read from left to right. -/
def Cause.rank : Cause → Nat
  | .illegalOpcode => 0 | .illegalRegister => 1 | .illegalType => 2 | .shape => 3
  | .emptyRead => 4 | .eccUncorrectable => 5
  | .uniformity => 6 | .indirectDivergence => 7 | .misalignedPc => 8 | .stackOverflow => 9
  | .bucketOwner => 10 | .badHandle => 11
  | .misalignedData => 12 | .pageFault => 13 | .rangeBusy => 14
  -- SHAPE at write stands at 15
  | .fpInvalid => 16 | .fpDivZero => 17 | .fpOverflow => 18 | .fpUnderflow => 19 | .fpInexact => 20
  | .intDivZero => 21
  | .software => 22 | .preempt => 23 | .watchdog => 24 | .double => 25

/-- A trap to be taken: cause, lanes, destination and exceptions (R293). -/
structure Trap where
  cause : Cause
  lanes : Mask
  dest : BitVec 8
  flags : BitVec 5
  deriving DecidableEq, Repr

/-- The cause of least rank among lane faults, with its lanes (R242, R292). -/
def laneTrap (dest : BitVec 8) (fs : List (Nat × Cause)) : Option Trap :=
  match fs with
  | [] => none
  | (_, c0) :: _ =>
    let c := fs.foldl (fun c f => if f.2.rank < c.rank then f.2 else c) c0
    some { cause := c, dest := dest, flags := 0,
           lanes := fs.foldl (fun m f => if f.2 = c then m ||| oneLane f.1 else m) 0 }

/-- The exceptions of MODE's enables, in the order of R292, with the test of each. -/
def exceptionOrder : List (Nat × Cause × (Flags → Bool)) :=
  [(0, .fpInvalid, (·.inv)), (1, .fpDivZero, (·.dz)), (2, .fpOverflow, (·.ovf)), (3, .fpUnderflow, (·.unf)),
   (4, .fpInexact, (·.inx)), (5, .intDivZero, (·.idz))]

/-- The completing trap of the exceptions of the active lanes: the first enabled exception that occurred, the lanes
in which it occurred, and every exception of every lane in FLAGS (R292, R293, R406). -/
def completingTrap (mode : Word) (dest : BitVec 8) (fs : List (Nat × Flags)) : Option Trap :=
  let all := fs.foldl (fun a f => a.or f.2) Flags.none
  match exceptionOrder.find? (fun (i, _, p) => (modeEnables mode).getLsbD i && p all) with
  | none => none
  | some (_, c, p) =>
    some { cause := c, dest := dest, flags := all.code,
           lanes := fs.foldl (fun m f => if p f.2 then m ||| oneLane f.1 else m) 0 }

end Sys2Proof.Machine
end

