-- ==== Sys2Proof/Machine/Memory.lean ====
section
/-!
DEFINITION. Byte memories in one canonical form, physical addresses (09 R233–R236) and the bytes and lines of the
spaces of State.
-/

namespace Sys2Proof.Machine

/-! ### Canonical byte memories: addresses strictly rising, no zero byte listed (log entry 4) -/

/-- The byte at an address; an unlisted byte reads 0 (R31, R250; log entry 4). -/
def Memory.get : List Cell → Nat → Byte
  | [], _ => 0
  | (k, b) :: m, a => if a = k then b else if a < k then 0 else Memory.get m a

/-- A memory with one byte written, in canonical form. -/
def Memory.set : List Cell → Nat → Byte → List Cell
  | [], a, b => if b = 0 then [] else [(a, b)]
  | (k, c) :: m, a, b =>
    if a = k then (if b = 0 then m else (k, b) :: m)
    else if a < k then (if b = 0 then (k, c) :: m else (a, b) :: (k, c) :: m)
    else (k, c) :: Memory.set m a b

/-- Every listed address is at least `lo`, the addresses rise strictly and no listed byte is 0. -/
def Memory.wfFrom : Nat → List Cell → Bool
  | _, [] => true
  | lo, (k, b) :: m => decide (lo ≤ k) && decide (b ≠ 0) && Memory.wfFrom (k + 1) m

/-- The canonical form. -/
def Memory.wf (m : List Cell) : Bool := Memory.wfFrom 0 m

/-- Bytes from an address upward, written. -/
def Memory.setBytes (m : List Cell) (a : Nat) : List Byte → List Cell
  | [] => m
  | b :: bs => Memory.setBytes (Memory.set m a b) (a + 1) bs

/-- `n` bytes from an address upward. -/
def Memory.getBytes (m : List Cell) (a : Nat) : Nat → List Byte
  | 0 => []
  | n + 1 => Memory.get m a :: Memory.getBytes m (a + 1) n

/-- The value of bytes in ascending address order: little-endian (R1). -/
def leNat : List Byte → Nat
  | [] => 0
  | b :: bs => b.toNat + 256 * leNat bs

/-- The low `n` bytes of a number, little-endian (R1). -/
def toLe : Nat → Nat → List Byte
  | 0, _ => []
  | n + 1, x => BitVec.ofNat 8 x :: toLe n (x / 256)

/-- The same for words. -/
def wordsOf : Nat → Nat → List Word
  | 0, _ => []
  | n + 1, x => BitVec.ofNat 32 x :: wordsOf n (x / 2 ^ 32)

/-- The number whose words, lowest first, are given. -/
def natOfWords : List Word → Nat
  | [] => 0
  | w :: ws => w.toNat + 2 ^ 32 * natOfWords ws

/-! ### Physical addresses (R233–R235) -/

/-- Presentation modes (R145). -/
inductive PMode where
  | unified | paired | perDie
  deriving DecidableEq, Repr

def PMode.ofCode (c : Nat) : PMode :=
  match c with
  | 0 => .unified | 1 => .paired | _ => .perDie

/-- Where a physical address leads. -/
inductive Region where
  | near | far | host | peer
  deriving DecidableEq, Repr

/-- The region of a 52-bit physical address (R233). -/
def regionOf (pa : Nat) : Option Region :=
  match bits pa 48 4 with
  | 0 => some .near | 1 => some .far | 2 => some .host | 3 => some .peer | _ => none

/-- Die, channel and block of a near-tier address under a presentation mode, for device `dev` (R234). -/
def nearPlace (m : PMode) (dev pa : Nat) : Nat × Nat × Nat :=
  match m with
  | .perDie => (bits pa 35 2, bits pa 33 2, bits pa 12 21)
  | .paired => (2 * dev + bits pa 12 1, bits pa 34 2, bits pa 13 21)
  | .unified => (bits pa 12 2, bits pa 35 2, bits pa 14 21)

/-- The address exists: no reserved region or bit and no missing block (R233, R234). -/
def paExists (m : PMode) (dev pa : Nat) : Bool :=
  match regionOf pa with
  | some .near =>
    decide (bits pa 37 11 = 0) && decide ((nearPlace m dev pa).2.2 < Config.channelBlocks) &&
      (m ≠ .paired || decide (bits pa 36 1 = 0))
  | some .far => decide (bits pa 39 9 = 0)
  | some _ => true
  | none => false

/-- The one name of a byte of memory: the per-die address of the near tier, the address itself elsewhere. -/
def canonPa (m : PMode) (dev pa : Nat) : Nat :=
  match regionOf pa with
  | some .near =>
    let (d, y, b) := nearPlace m dev pa
    d * 2 ^ 35 + y * 2 ^ 33 + b * 2 ^ 12 + pa % 4096
  | _ => pa

/-- Line of a byte address. -/
def lineOf (a : Nat) : Nat := a / 128

/-- Home die of a line named by a canonical address; `hp` is the home partition of a far-tier page (R235). -/
def homeDie (pa hp : Nat) : Nat :=
  match regionOf pa with
  | some .near => bits pa 35 2
  | some .far => hp / 4
  | _ => 4

/-! ### PCIe registers (R65, R66) -/

/-- A number with a field replaced. -/
def putBits (x lo w v : Nat) : Nat := x - bits x lo w * 2 ^ lo + v % 2 ^ w * 2 ^ lo

/-- Fields of given widths, lowest first, as one number. -/
def packBits : List (Nat × Nat) → Nat
  | [] => 0
  | (w, v) :: fs => v % 2 ^ w + 2 ^ w * packBits fs

/-- Offset of the management space of a render die, and of the hub (R65). -/
def dieSpace (d : Nat) : Nat := 0x1000000 + 0x100000 * d
def hubSpace : Nat := 0x1400000

/-- Reset value of a PF 0 BAR0 register by its offset: those whose reset is not 0 (R22, R109, R114, R141). -/
def pfReset (off : Nat) : Word :=
  if off = 0x112000 then 0x00100040
  else if off < 0x1000000 then 0
  else if off < hubSpace then
    match off % 0x100000 with
    | 0 | 8 | 0x10 => 0x1F
    | 0x100 => 0x40002412
    | 0x200 => 600
    | _ => 0
  else if off < hubSpace + 32 ∧ off % 8 = 0 then 0x1F
  else 0

/-- A register of PF 0 BAR0. -/
def lookup (d : Word) : List (Nat × Word) → Nat → Word
  | [], _ => d
  | (k, v) :: m, a => if a = k then v else lookup d m a

/-- A sparse register file with one register written; the default value is not listed, offsets rise. -/
def assign (d : Word) : List (Nat × Word) → Nat → Word → List (Nat × Word)
  | [], a, v => if v = d then [] else [(a, v)]
  | (k, w) :: m, a, v =>
    if a = k then (if v = d then m else (k, v) :: m)
    else if a < k then (if v = d then (k, w) :: m else (a, v) :: (k, w) :: m)
    else (k, w) :: assign d m a v

def State.pfGet (s : State) (off : Nat) : Nat := (lookup (pfReset off) s.pf off).toNat

def State.pfSet (s : State) (off v : Nat) : State :=
  { s with pf := assign (pfReset off) s.pf off (BitVec.ofNat 32 v) }

/-- A 64-bit register at two offsets. -/
def State.pfGet64 (s : State) (off : Nat) : Nat := s.pfGet off + 2 ^ 32 * s.pfGet (off + 4)

/-- VFBIND of a function (R95). -/
def State.vfbind (s : State) (vf : Nat) : Nat := s.pfGet (0x100000 + 0x40 * vf)
/-- PMASK of a function (R95). -/
def State.pmask (s : State) (vf : Nat) : Nat := bits (s.vfbind vf) 0 16
/-- Presentation mode of a function (R120, R145). -/
def State.pmode (s : State) (vf : Nat) : PMode := .ofCode (bits (s.pfGet (0x110000 + 0x10 * vf + 4)) 0 2)
/-- TASKALLOT (R120). -/
def State.taskallot (s : State) (vf : Nat) : Nat := s.pfGet (0x110000 + 0x10 * vf)
/-- Task slots of a function: 64 × COUNT (R120). -/
def State.taskCount (s : State) (vf : Nat) : Nat := 64 * bits (s.taskallot vf) 0 11
/-- First hub slot of a function: 64 × BASE. -/
def State.taskBase (s : State) (vf : Nat) : Nat := 64 * bits (s.taskallot vf) 16 10
/-- BOOTHALLOT (R439). -/
def State.boothallot (s : State) (vf : Nat) : Nat := s.pfGet (0x116000 + 4 * vf)
/-- ROOT of a function's page tables (R237). -/
def State.root (s : State) (vf : Nat) : Nat := s.pfGet64 (0x120000 + 0x40 * vf)
/-- TCTL.REPLAY (R237). -/
def State.replay (s : State) (vf : Nat) : Bool := decide (bits (s.pfGet (0x120000 + 0x40 * vf + 0x10)) 31 1 = 1)

/-- Partition p is bound to the function (R95). -/
def State.bound (s : State) (vf p : Nat) : Bool := decide (bits (s.pmask vf) p 1 = 1)

/-! ### Reading and writing the spaces -/

/-- Bytes of memory. -/
def State.readMem (s : State) (a n : Nat) : List Byte := Memory.getBytes s.mem a n

/-- A little-endian number of memory. -/
def State.readNat (s : State) (a n : Nat) : Nat := leNat (s.readMem a n)

/-- The team of a number. -/
def State.team? (s : State) (t : Nat) : Option Team := s.teams.find? (fun x => x.id = t)
def State.group? (s : State) (g : Nat) : Option Group := s.groups.find? (fun x => x.id = g)
def State.launch? (s : State) (l : Nat) : Option Launch := s.launches.find? (fun x => x.id = l)
def State.op? (s : State) (o : Nat) : Option EngineOp := s.ops.find? (fun x => x.id = o)

def State.setTeam (s : State) (t : Team) : State :=
  { s with teams := s.teams.map (fun x => if x.id = t.id then t else x) }
def State.setGroup (s : State) (g : Group) : State :=
  { s with groups := s.groups.map (fun x => if x.id = g.id then g else x) }
def State.setLaunch (s : State) (l : Launch) : State :=
  { s with launches := s.launches.map (fun x => if x.id = l.id then l else x) }
def State.setOp (s : State) (o : EngineOp) : State :=
  { s with ops := s.ops.map (fun x => if x.id = o.id then o else x) }

def State.modTeam (s : State) (t : Nat) (f : Team → Team) : State :=
  { s with teams := s.teams.map (fun x => if x.id = t then f x else x) }
def State.modGroup (s : State) (g : Nat) (f : Group → Group) : State :=
  { s with groups := s.groups.map (fun x => if x.id = g then f x else x) }
def State.modLaunch (s : State) (l : Nat) (f : Launch → Launch) : State :=
  { s with launches := s.launches.map (fun x => if x.id = l then f x else x) }
def State.modOp (s : State) (o : Nat) (f : EngineOp → EngineOp) : State :=
  { s with ops := s.ops.map (fun x => if x.id = o then f x else x) }

/-- A fresh number of the model (ids of groups, teams, launches, producers and operations). -/
def State.fresh (s : State) : Nat × State := (s.nextId, { s with nextId := s.nextId + 1 })

/-! ### Memory errors (R24–R26, R91) -/

/-- A counter of the lifetime record raised by 1, saturating at `top` (R91). -/
def bump (m : List (Nat × Nat)) (k top : Nat) : List (Nat × Nat) :=
  m.filter (fun p => p.1 ≠ k) ++ [(k, min top (((m.find? (fun p => p.1 = k)).map (·.2)).getD 0 + 1))]

def State.modLife (s : State) (f : Lifetime → Lifetime) : State := { s with mgmt := { s.mgmt with life := f s.mgmt.life } }

/-- Channel of a line in the counts of the lifetime record: near channels 4d + c, then far channels (R91, R233). -/
def channelOf (line : Nat) : Option Nat :=
  let a := 128 * line
  match regionOf a with
  | some .near => if paExists .perDie 0 a then some (4 * bits a 35 2 + bits a 33 2) else none
  | some .far => if paExists .perDie 0 a then some (16 + bits a 7 4) else none
  | _ => none

/-- Symbols of a line that have gone wrong (R24). -/
def State.addErrs (s : State) (line n : Nat) : State :=
  let old := ((s.symErrs.find? (fun p => p.1 = line)).map (·.2)).getD 0
  if n = 0 then s else { s with symErrs := s.symErrs.filter (fun p => p.1 ≠ line) ++ [(line, old + n)] }

/-- What the code makes of `n` symbols in error in a line (R24): two or three are detected and not corrected; of more, which
the code need not detect, Config.choice says whether it does (log entry 9). -/
def uncorrectable (line n : Nat) : Bool :=
  decide (2 ≤ n) && (decide (n ≤ 3) || decide (Config.choice (2 ^ 64 * n + line) % 2 = 0))

/-- A line with symbols in error is read (R24, R25): one is corrected, and the data written back; an uncorrectable read
poisons the line; a line whose errors go undetected holds free bytes. -/
def State.eccLine (s : State) (line n : Nat) : State :=
  match channelOf line with
  | none => s
  | some c =>
    let s : State := { s with symErrs := s.symErrs.filter (fun p => p.1 ≠ line) }
    if n ≤ 1 then s.modLife (fun x => { x with corr := bump x.corr c (2 ^ 32 - 1) })
    else if uncorrectable line n then
      { s with poison := if s.poison.contains line then s.poison else s.poison ++ [line] }.modLife
        (fun x => { x with uncorr := bump x.uncorr c 65535 })
    else
      { s with draw := s.draw + 32,
               mem := Memory.setBytes s.mem (128 * line)
                 ((List.range 32).flatMap (fun i => toLe 4 (Config.freeWord (s.draw + i)).toNat)) }

/-- Lines of memory are read: those with symbols in error meet the code (R25). -/
def State.eccRead (s : State) (lines : List Nat) : State :=
  (s.symErrs.filter (fun p => lines.contains p.1)).foldl (fun s p => s.eccLine p.1 p.2) s

/-- A line that a read finds poisoned (R25, R299). -/
def State.badLine (s : State) (line : Nat) : Bool :=
  s.poison.contains line || s.symErrs.any (fun p => decide (p.1 = line) && uncorrectable line p.2 && (channelOf line).isSome)

/-- Lines are written whole: their poison and their errors go (R25). -/
def State.cleanLines (s : State) (lines : List Nat) : State :=
  { s with poison := s.poison.filter (fun l => !lines.contains l),
           symErrs := s.symErrs.filter (fun p => !lines.contains p.1) }

/-- Device of a die under a presentation mode (R145). -/
def devOfDie (m : PMode) (die : Nat) : Nat :=
  match m with
  | .unified => 0 | .paired => die / 2 | .perDie => die

/-- Device of a queue (R145). -/
def devOfQueue (m : PMode) (q : Nat) : Nat :=
  match m with
  | .unified => 0 | .paired => q / 32 | .perDie => q / 16

/-- Dies of a device (R145). -/
def diesOf (m : PMode) (dev : Nat) : List Nat :=
  match m with
  | .unified => [0, 1, 2, 3] | .paired => [2 * dev, 2 * dev + 1] | .perDie => [dev]

end Sys2Proof.Machine
end

