-- ==== Sys2Proof/Machine/Ops.lean ====
section
/-!
DEFINITION. The shared operations of a group: reconvergence (08 R224), barriers (R225), run-ahead windows
(10 R262–R268), the end and the halt of a group (08 R207, 03 R76, 11 R297), taking a trap (11 R295), returning from
one (R298), and the issue of an instruction with its checks in the order of R292 and R346.
-/

namespace Sys2Proof.Machine

/-! ### Reconvergence (R224) -/

/-- What a merged slot goes on waiting for: a wait that outlives its instruction (R368, R365, R470; log entry 12). -/
def mergeWait (a b : Wait) : Wait :=
  let keeps : Wait → Bool
    | .barrier _ | .sleep _ | .seal _ _ _ | .claim _ => true
    | _ => false
  if keeps a then a else if keeps b then b else .none

def emptySlot : Slot := { pc := 0, mask := 0, jpc := none, parked := false, wait := .none }

/-- The rules of R224 for slot X (B when `b`), once. -/
def Group.joinSlot (g : Group) (b : Bool) : Group :=
  -- an empty slot takes the top of the stack
  let g :=
    match (if (g.slot b).mask = 0 then g.stack else []) with
    | t :: rest =>
      ({ g with stack := rest }).setSlot b
        { pc := t.resume, mask := t.mask, jpc := t.join, parked := false, wait := .none }
    | [] => g
  let x := g.slot b
  let y := g.slot (!b)
  -- two slots at one PC merge into A
  if x.mask ≠ 0 ∧ y.mask ≠ 0 ∧ x.pc = y.pc then
    { g with
      slotA := { pc := x.pc, mask := g.slotA.mask ||| g.slotB.mask, jpc := none, parked := false,
                 wait := mergeWait g.slotA.wait g.slotB.wait }
      slotB := emptySlot }
  else if x.mask ≠ 0 ∧ x.jpc = some x.pc then
    match g.stack with
    | t :: rest =>
      if t.join = x.jpc then
        if t.resume = x.pc then
          ({ g with stack := rest }).setSlot b { x with mask := x.mask ||| t.mask, parked := false }
        else
          ({ g with stack := { t with resume := x.pc, mask := x.mask } :: rest }).setSlot b
            { x with pc := t.resume, mask := t.mask, parked := false }
      else if x.parked then g
      else if y.mask ≠ 0 ∧ y.jpc = x.jpc then g.setSlot b { x with parked := true }
      else g.setSlot b { x with jpc := none }
    | [] =>
      if y.mask ≠ 0 ∧ (x.parked ∨ y.jpc = x.jpc) then g.setSlot b { x with parked := true }
      else g.setSlot b { x with jpc := none, parked := false }
  else g

/-- The rules of R224, A first and then B, until no rule changes anything. -/
def Group.joinFix : Nat → Group → Group
  | 0, g => g
  | n + 1, g =>
    let g' := (g.joinSlot false).joinSlot true
    if g' = g then g else Group.joinFix n g'

/-- The instruction boundary: R224, which trap mode suspends (R296). -/
def Group.boundary (g : Group) : Group := if g.inTrap then g else Group.joinFix 130 g

/-! ### Barriers (R225, R368) -/

/-- Groups of a team: resident ones. -/
def State.teamGroups (s : State) (t : Nat) : List Group := s.groups.filter (fun g => g.team = t)

/-- Groups T of a team. -/
def Team.size (t : Team) : Nat := t.kernel.groups

/-- Barrier b of a team completes its phase when every group has arrived or ended (R225). -/
def State.barrierCheck (s : State) (tid b : Nat) : State :=
  match s.team? tid with
  | none => s
  | some t =>
    let gs := s.teamGroups tid
    let arrived := (gs.filter (fun g => g.barPend.getD b false)).length + t.endedGroups.length
    if gs ≠ [] ∧ t.size ≤ arrived ∧ (gs.any (fun g => g.barPend.getD b false)) then
      let wake (x : Slot) : Slot := if x.wait = .barrier b then { x with wait := .none } else x
      { s with
        groups := s.groups.map (fun g =>
          if g.team = tid then
            { g with barPend := g.barPend.set b false, slotA := wake g.slotA, slotB := wake g.slotB }
          else g)
        teams := s.teams.map (fun x =>
          if x.id = tid then
            let old := x.barriers.getD b { phase := false, count := 0 }
            { x with barriers := x.barriers.set b ({ phase := !old.phase, count := 0 } : Barrier) }
          else x) }
    else s

/-- The group arrives at barrier b: its first arrival in the phase counts (R225, R368). -/
def State.arrive (s : State) (g : Group) (b : Nat) : State :=
  if g.barPend.getD b false then s
  else
    let s := s.modGroup g.id (fun g => { g with barPend := g.barPend.set b true })
    let s := s.modTeam g.team (fun t =>
      let x := t.barriers.getD b { phase := false, count := 0 }
      { t with barriers := t.barriers.set b { x with count := x.count + 1 } })
    s.barrierCheck g.team b

/-! ### Windows (R262–R268) -/

/-- The checkpoint of a group as it stands (R263). -/
def Group.checkpoint (g : Group) : Checkpoint :=
  { slotA := g.slotA, slotB := g.slotB, stack := g.stack, mode := g.mode, preds := g.preds,
    regs := g.regs }

/-- A window with no access yet (R262). -/
def Window.fresh (c : Checkpoint) (pc : DWord) : Window :=
  { ckpt := c, pc := pc, instrs := 0, stalled := false, shadowed := [], stores := [], atomOf := [], reads := [], writes := [], atoms := [], deferred := [],
    shadowCfg := none, shadowTiles := [], samples := [], srseed := none, hostStores := 0 }

/-- A new window at the PC of the issuing slot (R262). A window at another PC than the last rolled back one starts
the rollback count and the narrowing anew (R275). -/
def Group.openWindow (g : Group) (b : Bool) : Group :=
  match g.window with
  | some _ => g
  | none =>
    let pc := (g.slot b).pc
    let same := decide (pc = g.rollPc)
    { g with
      window := some (.fresh g.checkpoint pc)
      rollbacks := if same then g.rollbacks else 0
      narrowed := g.narrowed && same }

/-- The group with its window changed, if one is open. -/
def Group.modWindow (g : Group) (f : Window → Window) : Group :=
  { g with window := g.window.map f }

/-- Path counter index (R227). -/
def pathIndex : Path → Nat
  | .copy => 0 | .matrix => 1 | .render => 2 | .queue => 3

/-- The path of an engine operation (R227). -/
def OpKind.path : OpKind → Path
  | .copy | .copyt => .copy
  | .mma | .mloop => .matrix
  | .bin | .dice | .resolve => .render
  | .enq | .regroup | .taskdec => .queue

def Group.pathUp (g : Group) (p : Path) : Group :=
  { g with pathCount := g.pathCount.set (pathIndex p) (g.pathCount.getD (pathIndex p) 0 + 1) }

def Group.pathDown (g : Group) (p : Path) : Group :=
  { g with pathCount := g.pathCount.set (pathIndex p) (g.pathCount.getD (pathIndex p) 0 - 1) }

/-- Rollback of the open window (R268). `counts`: the rollback counts towards escalation (R275–R277). -/
def Group.rollback (g : Group) (counts : Bool) : Group :=
  match g.window with
  | none => g
  | some w =>
    -- producers issued before the window have written their results into the checkpoint as well (R269); those
    -- still outstanding stay outstanding
    let g1 : Group :=
      { g with
        slotA := { w.ckpt.slotA with wait := .none }
        slotB := { w.ckpt.slotB with wait := .none }
        stack := w.ckpt.stack
        mode := w.ckpt.mode
        preds := w.ckpt.preds
        regs := w.ckpt.regs
        producers := g.producers.filter (fun p => !p.inWindow)
        -- while lanes of a home-performed atomic are outstanding, the group runs in a window (R433)
        window := if g.homeOut = 0 then none else some (.fresh w.ckpt w.pc)
        anchors := []
        anchorAt := none
        anchorWaited := 0
        stuck := false
        specCount := g.specCount + 1
        rollPc := w.pc
        rollbacks := if counts then g.rollbacks + 1 else g.rollbacks
        block := (match g.block with | .anchor _ => .none | x => x) }
    let g2 := w.deferred.foldl (fun g o => g.pathDown o.kind.path) g1
    -- waits of the checkpoint that outlive their instruction are kept while they last (R368, R470)
    let lasts (w : Wait) : Bool := decide (g.slotA.wait = w) || decide (g.slotB.wait = w)
    let keep (old : Slot) (x : Slot) : Slot :=
      match old.wait with
      | .barrier b => if g.barPend.getD b false then { x with wait := .barrier b } else x
      | .sleep n => { x with wait := .sleep n }
      | .seal vf dev h => if lasts (.seal vf dev h) then { x with wait := .seal vf dev h } else x
      | .claim d => if lasts (.claim d) then { x with wait := .claim d } else x
      | _ => x
    let g3 := { g2 with slotA := keep w.ckpt.slotA g2.slotA, slotB := keep w.ckpt.slotB g2.slotB }
    { g3 with narrowed := g3.narrowed || decide (4 ≤ g3.rollbacks) }

/-- Rollback of a group of the package, with its anchor ticket when the count reaches 8 (R277): `State.nextId`
numbers the tickets. -/
def State.rollback (s : State) (gid : Nat) (counts : Bool) : State :=
  let s1 := s.modGroup gid (fun g => g.rollback counts)
  -- an `mrd` of the window that still waits at its engine is cancelled with its producer
  let cancelled (t : TileOp) : Bool :=
    match t.work with
    | .read p _ => decide (t.group = gid) && !(s1.group? gid).any (fun g => g.producers.any (fun x => x.id = p))
    | _ => false
  let s1 := { s1 with tileOps := s1.tileOps.filter (fun t => !cancelled t) }
  match s.group? gid, s1.group? gid with
  | some g0, some g =>
    if g0.window.isSome && decide (8 ≤ g.rollbacks) && g.ticket.isNone then
      let (n, s2) := s1.fresh
      s2.modGroup gid (fun g => { g with ticket := some n })
    else s1
  | _, _ => s1

/-- The window holds a line it has read or written. -/
def Window.holds (w : Window) (k : LineKey) : Bool := w.reads.contains k || w.writes.contains k

/-- Which open windows an external request to a line rolls back (R266 cases 1 and 2): those that have written it,
and those that have read it when the request writes. -/
def Window.hit (w : Window) (k : LineKey) (write : Bool) : Bool :=
  w.writes.contains k || (write && w.reads.contains k)

/-- An external request on a line by an agent other than group `who`: every other open window that it conflicts
with rolls back (R266). The lines a speculative atom or an anchor holds are asked for before this (R273, R277). -/
def State.external (s : State) (who : Option Nat) (k : LineKey) (write : Bool) : State :=
  s.groups.foldl (fun s g =>
    match g.window with
    | some w => if some g.id ≠ who && w.hit k write then s.rollback g.id true else s
    | none => s) s

/-- A line is held against external requests: by a speculative atom (R273) or by an anchor (R277) of another group. -/
def State.delayed (s : State) (who : Option Nat) (k : LineKey) (write : Bool) : Bool :=
  s.groups.any (fun g =>
    match g.window with
    | some w => some g.id ≠ who && (w.atoms.contains k || (g.anchors.contains k && w.hit k write))
    | none => false)

/-- A write to memory or to a space becomes an event of the order: other windows that hold its line roll back. -/
def State.externalLines (s : State) (who : Option Nat) (ks : List LineKey) (write : Bool) : State :=
  ks.foldl (fun s k => s.external who k write) s

/-- A saved team waits in the placement order again (R139, R144). -/
def Team.rejoins (t : Team) (cycle : Nat) : Team :=
  { t with rejoin := true, waitSince := if t.state = .saved then some (t.waitSince.getD cycle) else t.waitSince }

/-! ### The end of a group, and halts -/

/-- The launch of a group. -/
def State.launchOf (s : State) (g : Group) : Option Launch :=
  match s.team? g.team with
  | some t => s.launch? t.launch
  | none => none

/-- Windows that a team opened are closed and their generation advances (R251). -/
def State.closeWindows (s : State) (t : Nat) : State :=
  { s with wins := s.wins.map (fun w =>
      if w.openerTeam = some t then { w with openerTeam := none, gen := w.gen + 1 } else w) }

/-- Every team of a launch is to be discarded (R81). -/
def State.discardTeams (s : State) (l : Nat) : State :=
  { s with teams := s.teams.map (fun t =>
      if t.launch = l ∧ t.state ≠ .ended then { t with discard := true, state := if t.state = .running then .stopping else t.state }
      else t) }

/-- The launch fails: the first cause is kept, and everything of the launch is discarded as by ABORT (R76, R81). -/
def State.failLaunch (s : State) (l cause group : Nat) (pc : DWord) : State :=
  (s.modLaunch l (fun x =>
    { x with cause := some (x.cause.getD cause), faultGroup := if x.cause.isSome then x.faultGroup else group,
             faultPc := if x.cause.isSome then x.faultPc else pc, aborted := true })).discardTeams l

/-- A group ends (R207, R367): it leaves its carousel, counts as arrived at every barrier, and its team ends with
its last group; windows of an ended team are closed (R251). A pending fault of a path counter fails the launch
(R245). -/
def State.endGroup (s : State) (g : Group) : State :=
  let s := { s with groups := s.groups.filter (fun x => x.id ≠ g.id) }
  let s := s.modTeam g.team (fun t => { t with endedGroups := t.endedGroups ++ [g.num] })
  let s := (List.range 8).foldl (fun s b => s.barrierCheck g.team b) s
  let s :=
    match s.team? g.team with
    | some t =>
      if t.size ≤ t.endedGroups.length then
        (s.modTeam t.id (fun t => { t with state := .ended })).closeWindows t.id
      else s
    | none => s
  match g.pathFault.find? (fun c => c ≠ 0) with
  | some c =>
    match s.team? g.team with
    | some t => s.failLaunch t.launch c.toNat g.num 0
    | none => s
  | none => s

/-- A group halts (R76, R297): its window rolls back, its producers are cancelled, its lanes end, and its launch
fails with the cause. -/
def State.haltGroup (s : State) (g : Group) (cause : Cause) (pc : DWord) : State :=
  let g1 := { g.rollback false with producers := [], pathFault := [0, 0, 0, 0] }
  let s := (s.setGroup g1).endGroup g1
  match s.team? g.team with
  | some t => s.failLaunch t.launch cause.code.toNat g.num pc
  | none => s

/-! ### Taking a trap and returning from one -/

/-- Bit 8 of TRAPCAUSE and the fields around it (R293). -/
def trapCauseWord (t : Trap) (b : Bool) : Word :=
  (0#11 ++ t.flags ++ 0#7 ++ bit b ++ t.cause.code : BitVec 32)

/-- A group in trap mode at its handler (R293, R295). -/
def Group.enterTrap (g : Group) (b : Bool) (t : Trap) (cycle : Nat) : Group :=
  let x := g.slot b
  ({ g with
      trapCause := trapCauseWord t b
      trapPc := x.pc &&& 0x1FFFFFFFFFFFC#64
      trapMask := t.lanes
      trapDest := t.dest
      trapMode := g.mode
      mode := 0
      trapB := some b
      trapAt := cycle }).setSlot b { x with pc := g.trapBase, wait := .none }

/-- A trap of the issuing group, with no window open (R274): the handler, or a halt when there is none (R295), or
DOUBLE in trap mode (R296). -/
def State.takeTrap (s : State) (g : Group) (b : Bool) (t : Trap) : State :=
  if g.inTrap then s.haltGroup g .double (g.slot b).pc
  else if g.trapBase = 0 then s.haltGroup g t.cause (g.slot b).pc
  else s.setGroup (g.enterTrap b t s.cycle)

/-- The bits of MODE that are not reserved (R342). -/
def modeBits (w : Word) : Word := w &&& 0x3FFFFF#32

/-- The return from a trap (R298): MODE takes TRAPMODE and slot X resumes at `pc`; the other slot thaws. -/
def Group.leaveTrap (g : Group) (b : Bool) (pc : DWord) : Group :=
  ({ g with mode := modeBits g.trapMode, trapB := none }).setSlot b { g.slot b with pc := pc, wait := .none }

/-! ### The issue of an instruction -/

/-- What the effect of an instruction comes to. -/
inductive Done where
  /-- The effect was made, taking pass-cycles; the slot goes to the next word. -/
  | next (s : State) (cycles : Nat)
  /-- As `next`, and the effect has placed the slots itself. -/
  | jump (s : State) (cycles : Nat)
  /-- As `next`, and the slot then blocks. -/
  | block (s : State) (cycles : Nat) (w : Wait)
  /-- A trap: `s` holds the results that a completing trap writes first. -/
  | trap (s : State) (t : Trap)
  /-- The instruction waits at issue and is tried again. -/
  | wait (w : Wait)
  /-- As `wait`, and it has changed the state (a request or a rollback it made). -/
  | waitIn (s : State) (w : Wait)
  /-- The state as it stands: the group has parked, or waits as a whole (R242, R277). -/
  | stay (s : State)

/-- What issue checks before any lane acts, and the effect (R346). -/
structure Op where
  /-- Unused or absent in this mode (R340, R493, R497, R498). -/
  legal : Bool
  /-- The register fields are allocated, aligned and within one class (R211, R339). -/
  regs : Bool
  /-- The MODE type is supported (R220, R382, R403). -/
  typed : Bool
  /-- An always-general result goes to a general-capable name (R215). -/
  general : Bool
  /-- The source names with their trap-on-empty bits (R218). -/
  srcs : List (RegName × Bool)
  /-- The destination names (R218). -/
  dsts : List RegName
  /-- The guard of MODE applies (R345). -/
  guarded : Bool
  /-- The instruction settles (R270, R271). -/
  settles : Bool
  /-- TRAPDEST of its traps (R293). -/
  dest : BitVec 8
  /-- The effect: state, group, slot, active lanes. -/
  body : State → Group → Bool → Mask → Done

/-- The cause found at decode, in the order of R292. -/
def Op.decodeCause (o : Op) : Option Cause :=
  if !o.legal then some .illegalOpcode
  else if !o.regs then some .illegalRegister
  else if !o.typed then some .illegalType
  else if !o.general then some .shape
  else none

/-- The slot waits at issue (R221). -/
def Group.waits (g : Group) (b : Bool) (w : Wait) : Group := g.setSlot b { g.slot b with wait := w }

/-- General-capable names that a window writes for the first time (R264). -/
def Group.newShadows (g : Group) (w : Window) (ds : List RegName) : List RegName :=
  ds.filter (fun r => decide (r.toNat < g.nG ∨ 120 ≤ r.toNat) && !w.shadowed.contains r)

/-- Words of the checkpoint buffer of a core in use (R264). -/
def State.shadowWords (s : State) (core : Nat) : Nat :=
  s.groups.foldl (fun n g =>
    match g.window with
    | some w => if g.core = core then n + g.width * w.shadowed.length else n
    | none => n) 0

/-- Shadows that the instruction would need pass the ninth name, or the words that the checkpoint buffer has free (R264). -/
def State.shadowFull (s : State) (g : Group) (o : Op) : Bool :=
  match g.window with
  | none => false
  | some w =>
    let fresh := g.newShadows w o.dsts
    fresh ≠ [] && (decide (8 < w.shadowed.length + fresh.length) ||
      decide (65536 < s.shadowWords g.core + g.width * fresh.length))

/-- A core holds a line modified. -/
def State.owns (s : State) (core line : Nat) : Bool :=
  s.caches.any (fun x => x.holder = core && x.line = line && x.st = .modified)

/-- A producer is an access of a window that performs in it: a `trace` reads from the commit on (R202, R270). -/
def ProdKind.isAccess : ProdKind → Bool
  | .div | .mrd | .trace => false
  | _ => true

/-- A written line has not been gained: it is not owned, or its grant or an acknowledgement is still to come (R248, R267). -/
def State.ungained (s : State) (core : Nat) (k : LineKey) : Bool :=
  k.space = .mem && (!s.owns core k.line ||
    s.own.any (fun o => o.core = core && o.line = k.line && (!o.received || decide (0 < o.acks))))

/-- Access instructions of a window that have not performed (R264, R267): outstanding producers, stores and atomics whose
lines have not been gained, and home-performed operations without a result. -/
def State.unperformed (s : State) (g : Group) : Nat :=
  match g.window with
  | none => 0
  | some w =>
    let pending := (g.producers.filter (fun p => p.inWindow && p.kind.isAccess)).map (·.id)
    let stores := w.stores.zipIdx.filter (fun x =>
      x.1.any (fun q => s.ungained g.core { space := q.space, line := q.addr / 128 }) &&
        !w.atomOf.any (fun a => decide (a.1 = x.2) && pending.contains a.2))
    pending.length + stores.length + (s.homeAtoms.filter (fun h => decide (h.group = g.id) && h.producer.all (fun p => !pending.contains p))).length

/-- A window after an instruction of it: at a limit the group stalls until the window commits (R264). -/
def State.noteLimit (s : State) (g : Group) : Group :=
  g.modWindow (fun w => { w with
    stalled := w.stalled || decide (64 ≤ w.instrs) || decide (16 ≤ w.stores.length) || decide (16 ≤ s.unperformed g) })

/-- The pass of an instruction: cycles of the package and of the run (R128, R208). -/
def State.charge (s : State) (gid n : Nat) : State :=
  ({ s with cycle := s.cycle + n }).modGroup gid (fun g => { g with runCycles := g.runCycles + n, stuck := false })

/-- The instruction boundary of a group after an instruction (R224, R264): counted in the window, slot `b` issued
last, and R224 applied; the group ends when no lane is live (R207). -/
def State.afterIssue (s : State) (gid : Nat) (b : Bool) (ds : List RegName) : State :=
  match s.group? gid with
  | none => s
  | some g =>
    let g := g.modWindow (fun w =>
      { w with instrs := w.instrs + 1, shadowed := w.shadowed ++ g.newShadows w ds })
    let g := (s.noteLimit { g with lastB := b }).boundary
    if g.live = 0 then (s.setGroup g).endGroup g else s.setGroup g

/-- The slot of a group moved to the next word. -/
def State.advance (s : State) (gid : Nat) (b : Bool) (w : Wait) : State :=
  s.modGroup gid (fun g => g.setSlot b { g.slot b with pc := (g.slot b).pc + 4, wait := w })

/-- What an effect comes to, put into the state. A trap inside an open window waits until the window has committed
up to the instruction (R274). -/
def State.conclude (s : State) (g : Group) (b : Bool) (o : Op) (d : Done) : State :=
  match d with
  | .next s' n => ((s'.charge g.id n).advance g.id b .none).afterIssue g.id b o.dsts
  | .jump s' n => (s'.charge g.id n).afterIssue g.id b o.dsts
  | .block s' n w => ((s'.charge g.id n).advance g.id b w).afterIssue g.id b o.dsts
  | .trap s' t =>
    if g.window.isSome then s.setGroup (g.waits b .retry)
    else
      match s'.group? g.id with
      | some g' => s'.takeTrap { g' with lastB := b } b t
      | none => s'
  | .wait w => s.setGroup ({ g with stuck := g.stuck || decide (0 < s.unperformed g) }.waits b w)
  | .waitIn s' w => s'.modGroup g.id (fun g => { g with stuck := g.stuck || decide (0 < s.unperformed g) }.waits b w)
  | .stay s' => s'

/-- Whole-instruction trap of the slot (R293). -/
def slotTrap (g : Group) (b : Bool) (c : Cause) (dest : BitVec 8) : Trap :=
  { cause := c, lanes := (g.slot b).mask, dest := dest, flags := 0 }

/-- The state that an effect leaves, when the instruction has issued. -/
def Done.issued : Done → Option State
  | .next s _ | .jump s _ | .block s _ _ => some s
  | _ => none

/-- The window that an instruction has opened finds no room for its shadows in the checkpoint buffer (R264). -/
def State.opensFull (s : State) (g : Group) (o : Op) (d : Done) : Bool :=
  match d.issued.bind (fun t => t.group? g.id), g.window with
  | some h, none =>
    h.window.any (fun w =>
      let fresh := g.newShadows w o.dsts
      fresh ≠ [] && decide (65536 < s.shadowWords g.core + g.width * fresh.length))
  | _, _ => false

/-- What an instruction comes to at issue: decode (R346), collection of operands (R218, R299), settling (R271), no
active lane (R346), window limits (R264), and its effect. -/
def Op.issueIn (o : Op) (s : State) (g : Group) (b : Bool) : Done :=
  let mask := (g.slot b).mask
  let active := if o.guarded then g.guarded mask else mask
  if g.window.any (·.stalled) then .wait .retry
  else match o.decodeCause with
  | some c => .trap s (slotTrap g b c (if c = .illegalOpcode then 0xFF else o.dest))
  | none =>
    if o.srcs.any (fun r => r.2 && !(g.reg r.1).full) then
      .trap s { cause := .emptyRead, lanes := active, dest := o.dest, flags := 0 }
    else if o.srcs.any (fun r => !(g.reg r.1).full) || o.dsts.any (fun r => !(g.reg r).full) then .wait .retry
    else if active = 0 then .next s 1
    else if o.srcs.any (fun r => (g.reg r.1).poison) then
      .trap s { cause := .eccUncorrectable, lanes := active, dest := o.dest, flags := 0 }
    else if o.settles && (g.window.isSome || g.producers.any (fun p => p.kind = .trace)) then .wait .retry
    else if s.shadowFull g o then
      .waitIn (s.modGroup g.id (fun g => g.modWindow (fun w => { w with stalled := true }))) .retry
    else
      let d := o.body s g b active
      if s.opensFull g o d then .wait .retry else d

/-- The issue of an instruction by the slot that State.cur and State.curB name. -/
def issue (o : Group → Op) (s : State) : Host.Outcome State Fault Refusal :=
  match s.group? s.cur with
  | none => .fault .noGroup
  | some g => .next (s.conclude g s.curB (o g) ((o g).issueIn s g s.curB))

/-! ### Effects that write registers -/

/-- Names written under a mask, or SHAPE as a suppressing trap of the whole instruction (R215, R385). -/
def writeRegs (s : State) (g : Group) (b : Bool) (dest : BitVec 8) (ws : List (RegName × RegVal)) (mask : Mask)
    (cycles : Nat) : Done :=
  match g.writeAll ws mask with
  | some g' => .next (s.setGroup g') cycles
  | none => .trap s (slotTrap g b .shape dest)

/-- As `writeRegs`, followed by a completing trap when an enabled exception occurred (R291, R406). -/
def writeRegsTrap (s : State) (g : Group) (b : Bool) (dest : BitVec 8) (ws : List (RegName × RegVal)) (mask : Mask)
    (cycles : Nat) (fs : List (Nat × Flags)) : Done :=
  match g.writeAll ws mask with
  | some g' =>
    match completingTrap g.mode dest fs with
    | some t => .trap ((s.setGroup g').charge g.id cycles) t
    | none => .next (s.setGroup g') cycles
  | none => .trap s (slotTrap g b .shape dest)

/-- Pass-cycles of a result shape in a 32-bit type (R208); a tag that turns general takes the live lanes. -/
def shapeCycles (s : Shape) (n : Nat) : Nat :=
  match s with
  | .uniform => 1
  | .affine => 2
  | .general => max 4 n

/-- Active lanes, or the live lanes when the write turns a name general (R208). -/
def passLanes (g : Group) (ws : List (RegName × RegVal)) (mask : Mask) : Nat :=
  let turns := ws.any (fun (r, v) =>
    let held := (g.reg r).val
    held.shape ≠ .general && (held.write v g.width mask g.live).shape = .general)
  if turns then popLanes g.width g.live else popLanes g.width mask

/-- Shape of what a list of writes leaves behind, the widest one. -/
def writtenShape (g : Group) (ws : List (RegName × RegVal)) (mask : Mask) : Shape :=
  ws.foldl (fun s (r, v) =>
    let x := ((g.reg r).val.write v g.width mask g.live).shape
    if s.le x then x else s) .uniform

end Sys2Proof.Machine
end

