-- ==== Sys2Proof/Machine/Operands.lean ====
section
/-!
DEFINITION. Operand forms: units of one or two names read in a lane (R212, R384), descriptors of uniform names
(R347), the results of lane-by-lane instructions with their shapes and pass-cycles (R208, R210, R213, R385, R405).
-/

namespace Sys2Proof.Machine

/-- The type in MODE, INT32 when reserved (which no instruction that reads the type gets to use, R220). -/
def Group.type (g : Group) : MType := (modeType g.mode).getD .int32

/-- MODE holds a type that the instruction accepts (R220). -/
def Group.typeOk (g : Group) (p : MType → Bool) : Bool :=
  match modeType g.mode with
  | some t => p t
  | none => false

/-- The unit of `n` names that a lane reads, as a number. -/
def Group.unit (g : Group) (r : RegName) (n l : Nat) : Nat :=
  if n = 1 then (g.word r l).toNat
  else natOfWords ((spanNames r n).map (fun x => g.word x l))

/-- Every name of a span holds a uniform tag. -/
def Group.uniformSpan (g : Group) (r : RegName) (n : Nat) : Bool :=
  (spanNames r n).all (fun x => (g.reg x).val.shape = .uniform)

/-- The lowest active lane. -/
def lowest (w : Nat) (m : Mask) : Nat := ((lanesOf w m).head?).getD 0

/-- Source list of a span with one trap bit. -/
def srcSpan (r : RegName) (n : Nat) (t : Bool) : List (RegName × Bool) := (spanNames r n).map (fun x => (x, t))

/-- A general-capable span (R215). -/
def Group.generalSpan (g : Group) (r : RegName) (n : Nat) : Bool :=
  (spanNames r n).all (fun x => g.cls x = some .general)

/-- The words of uniform descriptor names (R347). -/
def Group.descriptor (g : Group) (r : RegName) (n : Nat) : List Word :=
  (spanNames r n).map (fun x => g.word x 0)

/-- The writes of a unit of `n` names: one uniform value, or a value per lane. -/
def unitWrites (_g : Group) (d : RegName) (n : Nat) (uniform : Bool) (vals : List Nat) (l0 : Nat) :
    List (RegName × RegVal) :=
  (List.range n).map (fun i =>
    (d + BitVec.ofNat 7 i,
     if uniform then .uniform (BitVec.ofNat 32 (vals.getD l0 0 / 2 ^ (32 * i)))
     else .general (vals.map (fun v => BitVec.ofNat 32 (v / 2 ^ (32 * i))))))

/-- The results of the active lanes of a lane-by-lane function; on the uniform datapath it is computed once, and
its exceptions occur in every active lane (R210, R406). -/
def laneResults (g : Group) (active : Mask) (uniform : Bool) (f : Nat → Nat × Flags) : List (Nat × Flags) :=
  if uniform then
    let r := f (lowest g.width active)
    (List.range g.width).map (fun l => if hasLane active l then r else (0, Flags.none))
  else (List.range g.width).map (fun l => if hasLane active l then f l else (0, Flags.none))

/-- Exceptions by active lane. -/
def laneFlags (active : Mask) (rs : List (Nat × Flags)) : List (Nat × Flags) :=
  (rs.zipIdx.filter (fun p => hasLane active p.2)).map (fun p => (p.2, p.1.2))

/-- Cycle factor of a type (R208). -/
def typeFactor (t : MType) : Nat :=
  if isL t then 2 else if isD t then 16 else 1

/-- The effect of a lane-by-lane instruction: sources as spans, `n` destination names a unit, the function of the
source units of a lane, an affine result where R213 gives one, and the cycle factor. -/
def laneEffect (d : RegName) (n : Nat) (dest : BitVec 8) (uniform : Bool) (affine : Option (Word × Word))
    (factor : Nat) (f : Group → Nat → Nat × Flags) (s : State) (g : Group) (b : Bool) (active : Mask) : Done :=
  match affine with
  | some (base, stride) =>
    let ws := [(d, RegVal.affine base stride)]
    writeRegs s g b dest ws active (factor * shapeCycles (writtenShape g ws active) (passLanes g ws active))
  | none =>
    let rs := laneResults g active uniform (f g)
    let ws := unitWrites g d n uniform (rs.map (·.1)) (lowest g.width active)
    writeRegsTrap s g b dest ws active
      (factor * shapeCycles (writtenShape g ws active) (passLanes g ws active)) (laneFlags active rs)

/-- TRAPDEST of a name (R293). -/
def destOf (d : RegName) : BitVec 8 := 0#1 ++ d

/-- TRAPDEST of a predicate (R293). -/
def destPred (p : PredName) : BitVec 8 := 0x80#8 + (0#5 ++ p)

/-- A typed register instruction: units of the MODE type in every operand but those given as single names. -/
structure Alu where
  types : MType → Bool
  /-- Sources: first name, trap bit, and whether it is a unit of the type (else one name, R384). -/
  srcs : List (RegName × Bool × Bool)
  /-- The destination is a unit of the type (else one name, R405). -/
  dUnit : Bool
  d : RegName
  /-- MODE, type, and the source units of a lane. -/
  f : Word → MType → List Nat → Nat × Flags
  /-- Affine result from the group (R213). -/
  affine : Group → Option (Word × Word)

/-- The issue record of a typed register instruction (R382–R386, R403–R405). -/
def Alu.op (a : Alu) (g : Group) : Op :=
  let t := g.type
  let n := unitNames t
  let len (u : Bool) : Nat := if u then n else 1
  let dn := len a.dUnit
  { legal := true
    regs := a.srcs.all (fun (r, _, u) => g.spanOk r (len u) (len u)) && g.spanOk a.d dn dn
    typed := g.typeOk a.types
    general := true
    srcs := a.srcs.flatMap (fun (r, tr, u) => srcSpan r (len u) tr)
    dsts := spanNames a.d dn
    guarded := true
    settles := false
    dest := destOf a.d
    body := laneEffect a.d dn (destOf a.d) (a.srcs.all (fun (r, _, u) => g.uniformSpan r (len u)))
      (if (t = .int32 || t = .uint32) && !modeSat g.mode then a.affine g else none) (typeFactor t)
      (fun g l => a.f g.mode t (a.srcs.map (fun (r, _, u) => g.unit r (len u) l))) }

/-- Base and stride of a uniform or affine name (R213). -/
def affinePart (v : RegVal) : Option (Word × Word) :=
  match v with
  | .uniform u => some (u, 0)
  | .affine b s => some (b, s)
  | .general _ => none

/-- No affine row of R213 applies. -/
def noAffine (_ : Group) : Option (Word × Word) := none

/-- `add`, `sub`: affine and uniform in either order, or affine and affine (R213). -/
def affineLinear (a b : RegName) (f : Word → Word → Word) (g : Group) : Option (Word × Word) :=
  match affinePart (g.reg a).val, affinePart (g.reg b).val with
  | some (b1, s1), some (b2, s2) =>
    if (g.reg a).val.shape = .uniform ∧ (g.reg b).val.shape = .uniform then none
    else some (f b1 b2, f s1 s2)
  | _, _ => none

/-- `addi`: an affine source (R213). -/
def affineAddi (a : RegName) (imm : Word) (g : Group) : Option (Word × Word) :=
  match (g.reg a).val with
  | .affine b s => some (b + imm, s)
  | _ => none

/-- `mul`: affine and uniform in either order (R213). -/
def affineMul (a b : RegName) (g : Group) : Option (Word × Word) :=
  match (g.reg a).val, (g.reg b).val with
  | .affine p q, .uniform u => some (p * u, q * u)
  | .uniform u, .affine p q => some (u * p, u * q)
  | _, _ => none

/-- Base and stride shifted left (R213, R398). -/
def affineShift (k : Nat) (v : RegVal) : Option (Word × Word) :=
  match v with
  | .affine p q => some (p <<< k, q <<< k)
  | _ => none

/-- The result of a producer is held back: the names are marked empty with the tag of the result, and a producer
that writes it is outstanding (R217). `g'` is the group with the result in its names, or none for SHAPE (R215). -/
def pendGroup (s : State) (g : Group) (b : Bool) (dest : BitVec 8) (kind : ProdKind) (names : List RegName)
    (g' : Option Group) (cycles : Nat) (poison : Bool) (inWindow : Bool) (fills : List Nat) : Done :=
  match g' with
  | none => .trap s (slotTrap g b .shape dest)
  | some g' =>
    let (id, s) := s.fresh
    let p : Producer :=
      { id := id, kind := kind, inWindow := inWindow, dests := names,
        result := names.map (fun r => { name := r, val := (g'.reg r).val, poison := (g'.reg r).poison || poison }),
        fills := fills }
    -- the tag of the result over what the name held (R217)
    let empty (g0 : Group) (r : RegName) : Group :=
      let old := g0.reg r
      let v : RegVal :=
        match (g'.reg r).val.shape with
        | .uniform => .uniform (old.val.lane 0)
        | .affine => .affine (old.val.lane 0) (old.val.lane 1 - old.val.lane 0)
        | .general => .ofLanes g.width old.val.lane
      g0.setReg r { old with val := v, full := false }
    let g2 := names.foldl empty g
    .next (s.setGroup { g2 with producers := g2.producers ++ [p] }) cycles

/-- A producer of writes under one mask. -/
def pendRegs (s : State) (g : Group) (b : Bool) (dest : BitVec 8) (kind : ProdKind) (ws : List (RegName × RegVal))
    (mask : Mask) (cycles : Nat) (poison : Bool) (inWindow : Bool) (fills : List Nat) : Done :=
  pendGroup s g b dest kind (ws.map (·.1)) (g.writeAll ws mask) cycles poison inWindow fills

/-- A type-free register instruction on 32-bit words. -/
def wordOp (srcs : List (RegName × Bool)) (ds : List RegName) (regs : Bool) (general : Bool) (dest : BitVec 8)
    (body : State → Group → Bool → Mask → Done) : Op :=
  { legal := true, regs := regs, typed := true, general := general, srcs := srcs, dsts := ds, guarded := true,
    settles := false, dest := dest, body := body }

/-- A control instruction: it acts on the slot as a whole (R345, R355). -/
def slotOp (srcs : List (RegName × Bool)) (ds : List RegName) (regs settles : Bool)
    (body : State → Group → Bool → Mask → Done) : Op :=
  { legal := true, regs := regs, typed := true, general := true, srcs := srcs, dsts := ds, guarded := false,
    settles := settles, dest := 0xFF, body := body }

end Sys2Proof.Machine
end

