-- ==== Sys2Proof/Machine/Integer.lean ====
section
/-!
DEFINITION. The generic and integer instructions, opcodes 0x20 to 0x49 (15_isa_integer_generic.md R382–R402).
-/

namespace Sys2Proof.Machine

/-- Two units to one under the MODE type. -/
def alu2 (types : MType → Bool) (d a b : RegName) (ta tb : Bool) (affine : Group → Option (Word × Word))
    (f : Word → MType → Nat → Nat → Nat × Flags) : Group → Op :=
  Alu.op { types := types, srcs := [(a, ta, true), (b, tb, true)], dUnit := true, d := d, affine := affine,
           f := fun m t us => mapUnit t us (fun _ xs => f m t (arg xs 0) (arg xs 1)) }

/-- d, a and b to d. -/
def alu3 (types : MType → Bool) (d a b : RegName) (ta tb k : Bool)
    (f : Word → MType → Nat → Nat → Nat → Nat × Flags) : Group → Op :=
  Alu.op { types := types, srcs := [(d, k, true), (a, ta, true), (b, tb, true)], dUnit := true, d := d,
           affine := noAffine,
           f := fun m t us => mapUnit t us (fun _ xs => f m t (arg xs 0) (arg xs 1) (arg xs 2)) }

/-- One unit to one. -/
def alu1 (types : MType → Bool) (d a : RegName) (ta : Bool) (affine : Group → Option (Word × Word))
    (f : Word → MType → Nat → Nat × Flags) : Group → Op :=
  Alu.op { types := types, srcs := [(a, ta, true)], dUnit := true, d := d, affine := affine,
           f := fun m t us => mapUnit t us (fun _ xs => f m t (arg xs 0)) }

/-- ADD (R387, R391). -/
def execAdd (d a b : RegName) (ta tb : Bool) : State → Host.Outcome State Fault Refusal :=
  issue (alu2 isGeneric d a b ta tb (affineLinear a b (· + ·)) eAdd)

/-- SUB (R387, R391). -/
def execSub (d a b : RegName) (ta tb : Bool) : State → Host.Outcome State Fault Refusal :=
  issue (alu2 isGeneric d a b ta tb (affineLinear a b (· - ·)) eSub)

/-- MUL (R387, R391). -/
def execMul (d a b : RegName) (ta tb : Bool) : State → Host.Outcome State Fault Refusal :=
  issue (alu2 isGeneric d a b ta tb (affineMul a b) eMul)

/-- MAD (R387, R391). -/
def execMad (d a b : RegName) (ta tb k : Bool) : State → Host.Outcome State Fault Refusal :=
  issue (alu3 isGeneric d a b ta tb k eMad)

/-- MIN (R388, R324). -/
def execMin (d a b : RegName) (ta tb : Bool) : State → Host.Outcome State Fault Refusal :=
  issue (alu2 isGeneric d a b ta tb noAffine eMin)

/-- MAX (R388, R324). -/
def execMax (d a b : RegName) (ta tb : Bool) : State → Host.Outcome State Fault Refusal :=
  issue (alu2 isGeneric d a b ta tb noAffine eMax)

/-- ABS (R387, R391). -/
def execAbs (d a : RegName) (ta : Bool) : State → Host.Outcome State Fault Refusal :=
  issue (alu1 isGeneric d a ta noAffine eAbs)

/-- NEG (R387, R391). -/
def execNeg (d a : RegName) (ta : Bool) : State → Host.Outcome State Fault Refusal :=
  issue (alu1 isGeneric d a ta noAffine eNeg)

/-- The bit of `cmp` over the elements of a unit: all of them, or any (R393). -/
def cmpUnit (m : Word) (t : MType) (cc : Cond) (any : Bool) (d a : Nat) : Bool × Flags :=
  let rs := (List.range (elemCount t)).map (fun e => eCmp m t cc (elemOf t d e) (elemOf t a e))
  ((if any then rs.any (·.1) else rs.all (·.1)), rs.foldl (fun fl r => fl.or r.2) Flags.none)

/-- A predicate result: bits of the active lanes written, then a completing trap (R219, R291). -/
def predEffect (x : PredName) (uniform : Bool) (factor : Nat) (f : Group → Nat → Bool × Flags) (s : State)
    (g : Group) (_ : Bool) (active : Mask) : Done :=
  let r0 := f g (lowest g.width active)
  let rs := (List.range g.width).map (fun l => if uniform then r0 else if hasLane active l then f g l else (false, Flags.none))
  let g' := g.setPred x active (fun l => (rs.getD l (false, Flags.none)).1)
  let n := factor * (if uniform then 1 else max 4 (popLanes g.width active))
  let fs := (lanesOf g.width active).map (fun l => (l, (rs.getD l (false, Flags.none)).2))
  match completingTrap g.mode (destPred x) fs with
  | some t => .trap ((s.setGroup g').charge g.id n) t
  | none => .next (s.setGroup g') n

/-- CMP (R393). -/
def execCmp (d a : RegName) (any : Bool) (cc : Cond) (ta : Bool) (x : PredName) :
    State → Host.Outcome State Fault Refusal :=
  issue (fun g =>
    let t := g.type
    let n := unitNames t
    { legal := true
      regs := g.spanOk d n n && g.spanOk a n n
      typed := g.typeOk (fun t => isGeneric t && (isFloat t || (cc ≠ .un && cc ≠ .or)) && (!any || isH t || isP t))
      general := true
      srcs := srcSpan d n false ++ srcSpan a n ta
      dsts := []
      guarded := true
      settles := false
      dest := destPred x
      body := predEffect x (g.uniformSpan d n && g.uniformSpan a n) (typeFactor t)
        (fun g l => cmpUnit g.mode t cc any (g.unit d n l) (g.unit a n l)) })

/-- The names of a copied span take the source's storage and shape (R395). -/
def copyWrites (g : Group) (d a : RegName) (n : Nat) : List (RegName × RegVal) :=
  (List.range n).map (fun i => (d + BitVec.ofNat 7 i, (g.reg (a + BitVec.ofNat 7 i)).val))

/-- The copy of `mov` and `sel` under a mask (R394, R395). -/
def copyEffect (d a : RegName) (n factor : Nat) (s : State) (g : Group) (b : Bool) (mask : Mask) : Done :=
  let ws := copyWrites g d a n
  writeRegs s g b (destOf d) ws mask (factor * shapeCycles (writtenShape g ws mask) (passLanes g ws mask))

/-- SEL (R394): a `mov` in the active lanes whose predicate bit holds. -/
def execSel (d a : RegName) (neg ta : Bool) (x : PredName) : State → Host.Outcome State Fault Refusal :=
  issue (fun g =>
    let t := g.type
    let n := unitNames t
    { legal := true
      regs := g.spanOk d n n && g.spanOk a n n
      typed := g.typeOk isGeneric
      general := true
      srcs := srcSpan d n false ++ srcSpan a n ta
      dsts := spanNames d n
      guarded := true
      settles := false
      dest := destOf d
      body := fun s g b active =>
        let m := maskWhere g.width (fun l => hasLane active l && (g.pred x l != neg))
        if m = 0 then .next s (typeFactor t * (if g.uniformSpan d n && g.uniformSpan a n then 1 else max 4 (popLanes g.width active)))
        else copyEffect d a n (typeFactor t) s g b m })

/-- ADDI (R387, R391). -/
def execAddi (d a : RegName) (imm : BitVec 8) (ta : Bool) : State → Host.Outcome State Fault Refusal :=
  issue (alu1 isGeneric d a ta (affineAddi a (imm.signExtend 32)) (fun m t x => eAddi m t imm.toInt x))

/-- MOVL (R395). -/
def execMovl (d : RegName) (imm : BitVec 16) : State → Host.Outcome State Fault Refusal :=
  issue (fun g => wordOp [] [d] (g.spanOk d 1 1) true (destOf d) (fun s g b active =>
    let ws := [(d, RegVal.uniform (imm.setWidth 32))]
    writeRegs s g b (destOf d) ws active (shapeCycles (writtenShape g ws active) (passLanes g ws active))))

/-- MOVH (R395): uniform when d is, general otherwise. -/
def execMovh (d : RegName) (imm : BitVec 16) (k : Bool) : State → Host.Outcome State Fault Refusal :=
  issue (fun g => wordOp [(d, k)] [d] (g.spanOk d 1 1) true (destOf d)
    (laneEffect d 1 (destOf d) (g.uniformSpan d 1) none 1
      (fun g l => ((imm ++ (g.word d l).extractLsb' 0 16 : BitVec 32).toNat, Flags.none))))

/-- MOV (R395). -/
def execMov (d a : RegName) (ta : Bool) : State → Host.Outcome State Fault Refusal :=
  issue (fun g =>
    let t := g.type
    let n := unitNames t
    { legal := true
      regs := g.spanOk d n n && g.spanOk a n n
      typed := g.typeOk isGeneric
      general := true
      srcs := srcSpan a n ta
      dsts := spanNames d n
      guarded := true
      settles := false
      dest := destOf d
      body := copyEffect d a n (typeFactor t) })

/-- CLAMP (R388, R391). -/
def execClamp (d a b : RegName) (ta tb k : Bool) : State → Host.Outcome State Fault Refusal :=
  issue (alu3 isGeneric d a b ta tb k eClamp)

/-- MULH (R389). -/
def execMulh (d a b : RegName) (ta tb : Bool) : State → Host.Outcome State Fault Refusal :=
  issue (alu2 isIHL d a b ta tb noAffine (fun _ t x y => eMulh t x y))

/-- The enables that `div` can raise under a type (R392). -/
def divEnables (m : Word) (t : MType) : Bool :=
  if isFloat t then m.extractLsb' 16 5 ≠ 0 else m.getLsbD 21

/-- The effect of `div`: a producer, or at once with its trap when an enable is set (R390, R392). -/
def divEffect (d a b : RegName) (s : State) (g : Group) (sl : Bool) (active : Mask) : Done :=
  let t := g.type
  let n := unitNames t
  let f (g : Group) (l : Nat) : Nat × Flags :=
    mapUnit t [g.unit a n l, g.unit b n l] (fun _ xs => eDiv g.mode t (arg xs 0) (arg xs 1))
  let u := g.uniformSpan a n && g.uniformSpan b n
  let rs := laneResults g active u (f g)
  let ws := unitWrites g d n u (rs.map (·.1)) (lowest g.width active)
  let cycles := typeFactor t * shapeCycles (writtenShape g ws active) (passLanes g ws active)
  if divEnables g.mode t then writeRegsTrap s g sl (destOf d) ws active cycles (laneFlags active rs)
  else pendRegs s g sl (destOf d) .div ws active cycles false g.window.isSome []

/-- DIV (R390–R392). -/
def execDiv (d a b : RegName) (ta tb : Bool) : State → Host.Outcome State Fault Refusal :=
  issue (fun g =>
    let o := alu2 isGeneric d a b ta tb noAffine eDiv g
    { o with body := divEffect d a b })

/-- REM (R390). -/
def execRem (d a b : RegName) (ta tb : Bool) : State → Host.Outcome State Fault Refusal :=
  issue (alu2 isIHL d a b ta tb noAffine (fun _ t x y => eRem t x y))

/-- `addc` and `subb` (R396): the sum and the carry of each lane. -/
def carryOp (d a b : RegName) (ta tb k : Bool) (f : Nat → Nat → Nat → Int) (g : Group) : Op :=
  { legal := true
    regs := g.spanOk d 2 2 && g.spanOk a 1 1 && g.spanOk b 1 1
    typed := g.typeOk isI
    general := true
    srcs := [(d + 1, k), (a, ta), (b, tb)]
    dsts := [d, d + 1]
    guarded := true
    settles := false
    dest := destOf d
    body := laneEffect d 2 (destOf d)
      (g.uniformSpan a 1 && g.uniformSpan b 1 && g.uniformSpan (d + 1) 1) none 1
      (fun g l =>
        let x := f (g.word a l).toNat (g.word b l).toNat ((g.word (d + 1) l).toNat % 2)
        (encInt 32 x + (if x < 0 ∨ 2 ^ 32 ≤ x then 2 ^ 32 else 0), Flags.none)) }

/-- ADDC (R396). -/
def execAddc (d a b : RegName) (ta tb k : Bool) : State → Host.Outcome State Fault Refusal :=
  issue (carryOp d a b ta tb k (fun x y c => (x : Int) + y + c))

/-- SUBB (R396). -/
def execSubb (d a b : RegName) (ta tb k : Bool) : State → Host.Outcome State Fault Refusal :=
  issue (carryOp d a b ta tb k (fun x y c => (x : Int) - y - c))

/-- Bitwise functions of a unit (R397). -/
def notBits (t : MType) (x : Nat) : Nat := 2 ^ elemBits t - 1 - x % 2 ^ elemBits t

/-- AND (R397). -/
def execAnd (d a b : RegName) (ta tb : Bool) : State → Host.Outcome State Fault Refusal :=
  issue (alu2 isGeneric d a b ta tb noAffine (fun _ _ x y => (Nat.land x y, Flags.none)))

/-- OR (R397). -/
def execOr (d a b : RegName) (ta tb : Bool) : State → Host.Outcome State Fault Refusal :=
  issue (alu2 isGeneric d a b ta tb noAffine (fun _ _ x y => (Nat.lor x y, Flags.none)))

/-- XOR (R397). -/
def execXor (d a b : RegName) (ta tb : Bool) : State → Host.Outcome State Fault Refusal :=
  issue (alu2 isGeneric d a b ta tb noAffine (fun _ _ x y => (Nat.xor x y, Flags.none)))

/-- ANDN (R397). -/
def execAndn (d a b : RegName) (ta tb : Bool) : State → Host.Outcome State Fault Refusal :=
  issue (alu2 isGeneric d a b ta tb noAffine (fun _ t x y => (Nat.land x (notBits t y), Flags.none)))

/-- NOT (R397). -/
def execNot (d a : RegName) (ta : Bool) : State → Host.Outcome State Fault Refusal :=
  issue (alu1 isGeneric d a ta noAffine (fun _ t x => (notBits t x, Flags.none)))

/-- A shift by a register count: one name read as UINT32, or under H types the element of it (R384, R398). -/
def shiftOp (d a b : RegName) (ta tb : Bool) (affine : Group → Option (Word × Word))
    (f : Word → MType → Nat → Nat → Nat × Flags) : Group → Op :=
  Alu.op { types := isIHL, srcs := [(a, ta, true), (b, tb, false)], dUnit := true, d := d, affine := affine,
           f := fun m t us => mapUnit t [arg us 0] (fun e xs =>
             f m t (if isH t then elemOf t (arg us 1) e else arg us 1) (arg xs 0)) }

/-- SHL (R398). -/
def execShl (d a b : RegName) (ta tb : Bool) : State → Host.Outcome State Fault Refusal :=
  issue (shiftOp d a b ta tb
    (fun g => match (g.reg b).val with
      | .uniform u => affineShift (min u.toNat 32) (g.reg a).val
      | _ => none) eShl)

/-- SHR (R398). -/
def execShr (d a b : RegName) (ta tb : Bool) : State → Host.Outcome State Fault Refusal :=
  issue (shiftOp d a b ta tb noAffine (fun _ t k x => eShr t k x))

/-- ROT (R398). -/
def execRot (d a b : RegName) (ta tb : Bool) : State → Host.Outcome State Fault Refusal :=
  issue (shiftOp d a b ta tb noAffine (fun _ t k x => eRot t k x))

/-- SHLI (R398). -/
def execShli (d a : RegName) (n : BitVec 6) (ta : Bool) : State → Host.Outcome State Fault Refusal :=
  issue (alu1 isIHL d a ta (fun g => affineShift n.toNat (g.reg a).val) (fun m t x => eShl m t n.toNat x))

/-- SHRI (R398). -/
def execShri (d a : RegName) (n : BitVec 6) (ta : Bool) : State → Host.Outcome State Fault Refusal :=
  issue (alu1 isIHL d a ta noAffine (fun _ t x => eShr t n.toNat x))

/-- ANDI (R397). -/
def execAndi (d a : RegName) (imm : BitVec 8) (ta : Bool) : State → Host.Outcome State Fault Refusal :=
  issue (alu1 isIHL d a ta noAffine (fun _ _ x => (Nat.land x imm.toNat, Flags.none)))

/-- ORI (R397). -/
def execOri (d a : RegName) (imm : BitVec 8) (ta : Bool) : State → Host.Outcome State Fault Refusal :=
  issue (alu1 isIHL d a ta noAffine (fun _ _ x => (Nat.lor x imm.toNat, Flags.none)))

/-- XORI (R397). -/
def execXori (d a : RegName) (imm : BitVec 8) (ta : Bool) : State → Host.Outcome State Fault Refusal :=
  issue (alu1 isIHL d a ta noAffine (fun _ _ x => (Nat.xor x imm.toNat, Flags.none)))

/-- BFE (R399): the field operand is one name (R384). -/
def execBfe (d a b : RegName) (ta tb : Bool) : State → Host.Outcome State Fault Refusal :=
  issue (Alu.op { types := fun t => isI t || isL t, srcs := [(a, ta, true), (b, tb, false)], dUnit := true, d := d,
                  affine := noAffine, f := fun _ t us => eBfe t (arg us 1) (arg us 0) })

/-- BFI (R399). -/
def execBfi (d a b : RegName) (ta tb k : Bool) : State → Host.Outcome State Fault Refusal :=
  issue (Alu.op { types := fun t => isI t || isL t, srcs := [(d, k, true), (a, ta, true), (b, tb, false)],
                  dUnit := true, d := d, affine := noAffine,
                  f := fun _ t us => eBfi t (arg us 2) (arg us 0) (arg us 1) })

/-- POPC (R400). -/
def execPopc (d a : RegName) (ta : Bool) : State → Host.Outcome State Fault Refusal :=
  issue (alu1 isIHL d a ta noAffine (fun _ t x => ePopc t x))

/-- CLZ (R400). -/
def execClz (d a : RegName) (ta : Bool) : State → Host.Outcome State Fault Refusal :=
  issue (alu1 isIHL d a ta noAffine (fun _ t x => eClz t x))

/-- CTZ (R400). -/
def execCtz (d a : RegName) (ta : Bool) : State → Host.Outcome State Fault Refusal :=
  issue (alu1 isIHL d a ta noAffine (fun _ t x => eCtz t x))

/-- BREV (R400). -/
def execBrev (d a : RegName) (ta : Bool) : State → Host.Outcome State Fault Refusal :=
  issue (alu1 isIHL d a ta noAffine (fun _ t x => eBrev t x))

/-- PERM (R401). -/
def execPerm (d a b : RegName) (ta tb k : Bool) : State → Host.Outcome State Fault Refusal :=
  issue (fun g => wordOp [(d, k), (a, ta), (b, tb)] [d] (g.spanOk d 1 1 && g.spanOk a 1 1 && g.spanOk b 1 1) true
    (destOf d)
    (laneEffect d 1 (destOf d) (g.uniformSpan d 1 && g.uniformSpan a 1 && g.uniformSpan b 1) none 1
      (fun g l => (permWord (g.word d l).toNat (g.word a l).toNat (g.word b l).toNat, Flags.none))))

/-- LEA (R402): timed as a 64-bit result. -/
def execLea (d a : RegName) (zx : Bool) (sh : BitVec 3) (ta : Bool) : State → Host.Outcome State Fault Refusal :=
  issue (fun g => wordOp (srcSpan d 2 false ++ [(a, ta)]) [d, d + 1] (g.spanOk d 2 2 && g.spanOk a 1 1) true
    (destOf d)
    (laneEffect d 2 (destOf d) (g.uniformSpan d 2 && g.uniformSpan a 1) none 2
      (fun g l =>
        let x := if zx then (g.word a l).setWidth 64 else (g.word a l).signExtend 64
        ((g.pair d l + (x <<< sh.toNat)).toNat, Flags.none))))

end Sys2Proof.Machine
end

