-- ==== Sys2Proof/Machine/Float.lean ====
section
/-!
DEFINITION. The floating-point and conversion instructions, opcodes 0x60 to 0x72 (16_isa_float_convert.md
R403–R418).
-/

namespace Sys2Proof.Machine

/-- Types of `exp2` … `cos` (R403). -/
def isFP (t : MType) : Bool := isF t || isP t

/-- RCP (R407). -/
def execRcp (d a : RegName) (ta : Bool) : State → Host.Outcome State Fault Refusal :=
  issue (alu1 isFPD d a ta noAffine (eFn .rcp))

/-- RSQ (R407). -/
def execRsq (d a : RegName) (ta : Bool) : State → Host.Outcome State Fault Refusal :=
  issue (alu1 isFPD d a ta noAffine (eFn .rsq))

/-- SQRT (R407). -/
def execSqrt (d a : RegName) (ta : Bool) : State → Host.Outcome State Fault Refusal :=
  issue (alu1 isFPD d a ta noAffine (eFn .sqrt))

/-- EXP2 (R407). -/
def execExp2 (d a : RegName) (ta : Bool) : State → Host.Outcome State Fault Refusal :=
  issue (alu1 isFP d a ta noAffine (eFn .exp2))

/-- LOG2 (R407). -/
def execLog2 (d a : RegName) (ta : Bool) : State → Host.Outcome State Fault Refusal :=
  issue (alu1 isFP d a ta noAffine (eFn .log2))

/-- SIN (R407). -/
def execSin (d a : RegName) (ta : Bool) : State → Host.Outcome State Fault Refusal :=
  issue (alu1 isFP d a ta noAffine (eFn .sin))

/-- COS (R407). -/
def execCos (d a : RegName) (ta : Bool) : State → Host.Outcome State Fault Refusal :=
  issue (alu1 isFP d a ta noAffine (eFn .cos))

/-- FRACT (R408). -/
def execFract (d a : RegName) (ta : Bool) : State → Host.Outcome State Fault Refusal :=
  issue (alu1 isFPD d a ta noAffine eFract)

/-- RND (R408). -/
def execRnd (d a : RegName) (ta : Bool) : State → Host.Outcome State Fault Refusal :=
  issue (alu1 isFPD d a ta noAffine eRnd)

/-- LDEXP (R409): n is the word of b, or its INT16 element under a packed type (R405). -/
def execLdexp (d a b : RegName) (ta tb : Bool) : State → Host.Outcome State Fault Refusal :=
  issue (Alu.op { types := isFPD, srcs := [(a, ta, true), (b, tb, false)], dUnit := true, d := d, affine := noAffine,
                  f := fun m t us => mapUnit t [arg us 0] (fun e xs =>
                    let n := if isP t then intOf true 16 (elemOf t (arg us 1) e) else intOf true 32 (arg us 1)
                    eLdexp m t n (arg xs 0)) })

/-- FREXPM (R410). -/
def execFrexpm (d a : RegName) (ta : Bool) : State → Host.Outcome State Fault Refusal :=
  issue (alu1 isFPD d a ta noAffine eFrexpm)

/-- FREXPE (R410): d is one name (R405). -/
def execFrexpe (d a : RegName) (ta : Bool) : State → Host.Outcome State Fault Refusal :=
  issue (Alu.op { types := isFPD, srcs := [(a, ta, true)], dUnit := false, d := d, affine := noAffine,
                  f := fun m t us => mapUnit t us (fun _ xs => eFrexpe m t (arg xs 0)) })

/-- CLASS (R411). -/
def execFpClass (sel : SignSel) (a : RegName) (cls : BitVec 6) (ta : Bool) (x : PredName) :
    State → Host.Outcome State Fault Refusal :=
  issue (fun g =>
    let t := g.type
    let n := unitNames t
    { legal := true
      regs := g.spanOk a n n
      typed := g.typeOk isFPD
      general := true
      srcs := srcSpan a n ta
      dsts := []
      guarded := true
      settles := false
      dest := destPred x
      body := predEffect x (g.uniformSpan a n) (typeFactor t)
        (fun g l =>
          let u := g.unit a n l
          ((List.range (elemCount t)).all (fun e => eClass t sel cls (elemOf t u e)), Flags.none)) })

/-- COPYSIGN (R412). -/
def execCopysign (d a b : RegName) (ta tb : Bool) : State → Host.Outcome State Fault Refusal :=
  issue (alu2 isFPD d a b ta tb noAffine (fun _ t x y => eCopysign t x y))

/-- DOT2 (R413). -/
def execDot2 (d a b : RegName) (ta tb k : Bool) : State → Host.Outcome State Fault Refusal :=
  issue (Alu.op { types := isP, srcs := [(d, k, true), (a, ta, true), (b, tb, true)], dUnit := true, d := d,
                  affine := noAffine, f := fun m t us => dot2Unit m t (arg us 0) (arg us 1) (arg us 2) })

/-- One word of `pack` from the words of a pair (R418). -/
def packWord (m : Word) (t : MType) (x0 x1 : Nat) : Nat :=
  let e (x : Nat) : Nat :=
    if isH t && modeSat m then
      let i := intOf (typeSigned t) 32 x
      encInt 16 (max (intMin (typeSigned t) 16) (min (intMax (typeSigned t) 16) i))
    else x % 2 ^ 16
  e x0 + 2 ^ 16 * e x1

/-- PACK (R418). -/
def execPack (d a : RegName) (ta : Bool) : State → Host.Outcome State Fault Refusal :=
  issue (fun g =>
    { legal := true
      regs := g.spanOk d 1 1 && g.spanOk a 2 2
      typed := g.typeOk (fun t => isP t || isH t)
      general := true
      srcs := srcSpan a 2 ta
      dsts := [d]
      guarded := true
      settles := false
      dest := destOf d
      body := laneEffect d 1 (destOf d) (g.uniformSpan a 2) none 1
        (fun g l => (packWord g.mode g.type (g.word a l).toNat (g.word (a + 1) l).toNat, Flags.none)) })

/-- The pair of `unpack` as a number (R418). -/
def unpackPair (t : MType) (x : Nat) : Nat :=
  let e (i : Nat) : Nat :=
    let h := elemOf t x i
    if t = .int16x2 then encInt 32 (intOf true 16 h) else h
  e 0 + 2 ^ 32 * e 1

/-- UNPACK (R418). -/
def execUnpack (d a : RegName) (ta : Bool) : State → Host.Outcome State Fault Refusal :=
  issue (fun g =>
    { legal := true
      regs := g.spanOk d 2 2 && g.spanOk a 1 1
      typed := g.typeOk (fun t => isP t || isH t)
      general := true
      srcs := [(a, ta)]
      dsts := [d, d + 1]
      guarded := true
      settles := false
      dest := destOf d
      body := laneEffect d 2 (destOf d) (g.uniformSpan a 1) none 2
        (fun g l => (unpackPair g.type (g.word a l).toNat, Flags.none)) })

/-! ### Conversion (R414–R417) -/

/-- Elements moved from type `st` to type `dt`. -/
def cvtElems (st dt : MType) : Nat := max (elemCount st) (elemCount dt)
/-- Names of the source and of the destination. -/
def cvtSrcNames (st dt : MType) : Nat := cvtElems st dt / elemCount st * unitNames st
def cvtDstNames (st dt : MType) : Nat := cvtElems st dt / elemCount dt * unitNames dt

/-- The elements of a lane converted, as one number of the destination span. -/
def cvtLane (m : Word) (st dt : MType) (draw : Option (Nat → Nat)) (u : Nat) : Nat × Flags :=
  let rs := (List.range (cvtElems st dt)).map (fun i =>
    eCvt m st dt (draw.map (fun r => r (i % elemCount dt))) (elemOf st u i))
  (unitOf (elemBits dt) (rs.map (·.1)), rs.foldl (fun f r => f.or r.2) Flags.none)

/-- SRSEED as the instructions of the group see it for a draw: the window's own value when it has one (R332). -/
def Group.seed (g : Group) : Word :=
  match g.window with
  | some w => w.srseed.getD g.srseed
  | none => g.srseed

/-- SRSEED after a draw or a write: at once, or with the commit of the window (R332). -/
def Group.setSeed (g : Group) (v : Word) : Group :=
  match g.window with
  | some w => { g with window := some { w with srseed := some v } }
  | none => { g with srseed := v }

/-- Cycle factor of a conversion (R416). -/
def cvtFactor (st dt : MType) : Nat :=
  (cvtElems st dt / elemCount dt) * (if isD st || isD dt then 16 else if isL st || isL dt then 2 else 1)

/-- CVT (R414–R416). -/
def execCvt (d a : RegName) (src : MType) (ta : Bool) : State → Host.Outcome State Fault Refusal :=
  issue (fun g =>
    let dt := g.type
    let ns := cvtSrcNames src dt
    let nd := cvtDstNames src dt
    let sr := modeSr g.mode
    { legal := true
      regs := decide (4 < ns ∨ 4 < nd) || (g.spanOk a ns ns && g.spanOk d nd nd)
      typed := g.typeOk (fun _ => true) && decide (ns ≤ 4 ∧ nd ≤ 4)
      general := !sr || g.generalSpan d nd
      srcs := srcSpan a ns ta
      dsts := spanNames d nd
      guarded := true
      settles := false
      dest := destOf d
      body := fun s g b active =>
        if sr then
          let v := srNext g.seed
          laneEffect d nd (destOf d) false none (cvtFactor src dt)
            (fun g l => cvtLane g.mode src dt (some (fun e => srDraw v l (if elemCount dt = 1 then 0 else e))) (g.unit a ns l))
            (s.setGroup (g.setSeed v)) (g.setSeed v) b active
        else
          laneEffect d nd (destOf d) (g.uniformSpan a ns) none (cvtFactor src dt)
            (fun g l => cvtLane g.mode src dt none (g.unit a ns l)) s g b active })

end Sys2Proof.Machine
end

