-- ==== Sys2Proof/Decode.lean ====
section
/-!
DEFINITION. The decoder and the encoder of the instruction words (13_isa_encoding.md R336–R344 and the encoding
tables R356, R372, R383, R404, R420, R459, R468 and R488). `decode` is total on every word and rejects by name;
every rejection is an ILLEGAL_OPCODE of the machine (R340, R344). `encode` is written from the same tables.
-/

namespace Sys2Proof

/-- Why a word is no instruction. -/
inductive DecodeError where
  /-- The opcode is unassigned (R344). -/
  | unassignedOpcode
  /-- A field the instruction does not use is not zero (R340). -/
  | reservedField
  /-- A sub value the instruction does not assign (R340). -/
  | unassignedSub
  deriving DecidableEq, Repr

/-! ### The fields of the formats (R337) -/

def fop (w : Word) : BitVec 8 := w.extractLsb' 24 8
def fd (w : Word) : RegName := w.extractLsb' 17 7
def fa (w : Word) : RegName := w.extractLsb' 10 7
def fb (w : Word) : RegName := w.extractLsb' 3 7
/-- ta of format A; formats E has it at bit 3 and formats B and M at bit 1 (R337). -/
def fta (w : Word) : Bool := w.getLsbD 2
def ftb (w : Word) : Bool := w.getLsbD 1
def fk (w : Word) : Bool := w.getLsbD 0
def fimm8 (w : Word) : BitVec 8 := w.extractLsb' 2 8
def fimm16 (w : Word) : BitVec 16 := w.extractLsb' 1 16
def foff24 (w : Word) : BitVec 24 := w.extractLsb' 0 24
def fsub (w : Word) : BitVec 6 := w.extractLsb' 4 6
def ftaE (w : Word) : Bool := w.getLsbD 3
def fx (w : Word) : PredName := w.extractLsb' 0 3
def fsz (w : Word) : BitVec 2 := w.extractLsb' 8 2
def foff6 (w : Word) : BitVec 6 := w.extractLsb' 2 6

/-! ### Decoders of one shape of fields each (R340: a field not used is zero) -/

/-- d, a, b, ta, tb. -/
def regs3 (w : Word) (c : RegName → RegName → RegName → Bool → Bool → Instr) : Except DecodeError Instr :=
  if fk w then .error .reservedField else .ok (c (fd w) (fa w) (fb w) (fta w) (ftb w))

/-- d, a, b, ta, tb, k. -/
def regs3k (w : Word) (c : RegName → RegName → RegName → Bool → Bool → Bool → Instr) : Except DecodeError Instr :=
  .ok (c (fd w) (fa w) (fb w) (fta w) (ftb w) (fk w))

/-- d, a, ta. -/
def regs2 (w : Word) (c : RegName → RegName → Bool → Instr) : Except DecodeError Instr :=
  if fb w ≠ 0 || ftb w || fk w then .error .reservedField else .ok (c (fd w) (fa w) (fta w))

/-- d, a, ta, k. -/
def regs2k (w : Word) (c : RegName → RegName → Bool → Bool → Instr) : Except DecodeError Instr :=
  if fb w ≠ 0 || ftb w then .error .reservedField else .ok (c (fd w) (fa w) (fta w) (fk w))

/-- a, ta. -/
def regs1 (w : Word) (c : RegName → Bool → Instr) : Except DecodeError Instr :=
  if fd w ≠ 0 || fb w ≠ 0 || ftb w || fk w then .error .reservedField else .ok (c (fa w) (fta w))

/-- a, b, ta, tb. -/
def regs2s (w : Word) (c : RegName → RegName → Bool → Bool → Instr) : Except DecodeError Instr :=
  if fd w ≠ 0 || fk w then .error .reservedField else .ok (c (fa w) (fb w) (fta w) (ftb w))

/-- Format J without an operand. -/
def plainJ (w : Word) (i : Instr) : Except DecodeError Instr :=
  if foff24 w ≠ 0 then .error .reservedField else .ok i

/-- Format C with imm16 alone. -/
def imm16C (w : Word) (c : BitVec 16 → Instr) : Except DecodeError Instr :=
  if fd w ≠ 0 || fk w then .error .reservedField else .ok (c (fimm16 w))

/-- Format C with an imm16 of 0 to 7 alone (R356, R437). -/
def imm3C (w : Word) (c : BitVec 3 → Instr) : Except DecodeError Instr :=
  if fd w ≠ 0 || fk w || w.extractLsb' 4 13 ≠ 0 then .error .reservedField else .ok (c (w.extractLsb' 1 3))

/-- Format B with imm8. -/
def immB (w : Word) (c : RegName → RegName → BitVec 8 → Bool → Instr) : Except DecodeError Instr :=
  if fk w then .error .reservedField else .ok (c (fd w) (fa w) (fimm8 w) (w.getLsbD 1))

/-- Format B with a count in imm8[5:0] (R341). -/
def countB (w : Word) (c : RegName → RegName → BitVec 6 → Bool → Instr) : Except DecodeError Instr :=
  if fk w || w.extractLsb' 8 2 ≠ 0 then .error .reservedField
  else .ok (c (fd w) (fa w) (w.extractLsb' 2 6) (w.getLsbD 1))

/-- A load of format M. -/
def loadM (w : Word) (c : RegName → RegName → AccSize → BitVec 6 → Bool → Instr) : Except DecodeError Instr :=
  if fk w then .error .reservedField else .ok (c (fd w) (fa w) (.ofCode (fsz w)) (foff6 w) (w.getLsbD 1))

/-- A store of format M. -/
def storeM (w : Word) (c : RegName → RegName → AccSize → BitVec 6 → Bool → Bool → Instr) :
    Except DecodeError Instr :=
  .ok (c (fd w) (fa w) (.ofCode (fsz w)) (foff6 w) (w.getLsbD 1) (fk w))

/-- `atom` and `atoms`: sub[5] is H or W, sub[4:0] the operation, x[0] the width (R420). -/
def atomE (w : Word) (c : RegName → RegName → Bool → AtomOp → Bool → Bool → Instr) : Except DecodeError Instr :=
  if w.extractLsb' 1 2 ≠ 0 then .error .reservedField
  else match AtomOp.ofCode (w.extractLsb' 4 5) with
    | none => .error .unassignedSub
    | some op => .ok (c (fd w) (fa w) (w.getLsbD 9) op (ftaE w) (w.getLsbD 0))

/-- `red` (R420, R429). -/
def redE (w : Word) : Except DecodeError Instr :=
  if w.extractLsb' 1 2 ≠ 0 || w.getLsbD 9 then .error .reservedField
  else match AtomOp.ofCode (w.extractLsb' 4 5) with
    | none => .error .unassignedSub
    | some .xchg => .error .unassignedSub
    | some .cas => .error .unassignedSub
    | some op => .ok (.red (fd w) (fa w) op (ftaE w) (w.getLsbD 0))

/-- `cmp` (R383, R393). -/
def cmpE (w : Word) : Except DecodeError Instr :=
  if w.getLsbD 9 then .error .unassignedSub
  else match Cond.ofCode (w.extractLsb' 4 4) with
    | none => .error .unassignedSub
    | some cc => .ok (.cmp (fd w) (fa w) (w.getLsbD 8) cc (ftaE w) (fx w))

/-- `class` (R404). -/
def classE (w : Word) : Except DecodeError Instr :=
  if w.extractLsb' 19 5 ≠ 0 then .error .reservedField
  else match SignSel.ofCode (w.extractLsb' 17 2) with
    | none => .error .unassignedSub
    | some sel => .ok (.fpClass sel (fa w) (fsub w) (ftaE w) (fx w))

/-- `cvt` (R404). -/
def cvtE (w : Word) : Except DecodeError Instr :=
  if w.getLsbD 9 || fx w ≠ 0 then .error .reservedField
  else match MType.ofCode (w.extractLsb' 4 5) with
    | none => .error .unassignedSub
    | some src => .ok (.cvt (fd w) (fa w) src (ftaE w))

/-- `mcvt` (R458, R459). -/
def mcvtE (w : Word) : Except DecodeError Instr :=
  if w.getLsbD 9 || fx w ≠ 0 then .error .reservedField
  else match TileType.ofCode (w.extractLsb' 4 5) with
    | none => .error .unassignedSub
    | some target => .ok (.mcvt (fd w) (fa w) target (ftaE w))

/-- `pfold` (R372). -/
def pfoldE (w : Word) : Except DecodeError Instr :=
  if w.extractLsb' 20 4 ≠ 0 || fa w ≠ 0 || w.extractLsb' 8 2 ≠ 0 || w.getLsbD 6 || w.getLsbD 3 then
    .error .reservedField
  else match FoldKind.ofCode (w.extractLsb' 4 2) with
    | none => .error .unassignedSub
    | some kind => .ok (.pfold (w.extractLsb' 17 3) (w.getLsbD 7) kind (fx w))

/-- `ballot` (R372). -/
def ballotE (w : Word) : Except DecodeError Instr :=
  if fa w ≠ 0 || w.extractLsb' 8 2 ≠ 0 || w.extractLsb' 4 3 ≠ 0 || w.getLsbD 3 then .error .reservedField
  else .ok (.ballot (fd w) (w.getLsbD 7) (fx w))

/-- `reduce` (R372). -/
def reduceE (w : Word) : Except DecodeError Instr :=
  if w.extractLsb' 7 3 ≠ 0 || fx w ≠ 0 then .error .reservedField
  else match LaneOp.ofCode (w.extractLsb' 4 3) with
    | none => .error .unassignedSub
    | some op => .ok (.reduce (fd w) (fa w) op (ftaE w))

/-- `scan` (R372). -/
def scanE (w : Word) : Except DecodeError Instr :=
  if w.extractLsb' 8 2 ≠ 0 || fx w ≠ 0 then .error .reservedField
  else match LaneOp.ofCode (w.extractLsb' 4 3) with
    | none => .error .unassignedSub
    | some op => .ok (.scan (fd w) (fa w) (w.getLsbD 7) op (ftaE w))

/-- `bkt`: the b field is the operation (R468, R470). -/
def bktA (w : Word) : Except DecodeError Instr :=
  if ftb w || fk w then .error .reservedField
  else match (fb w).toNat with
    | 0 => .ok (.bktOpen (fd w) (fa w) (fta w))
    | 1 => if fd w ≠ 0 then .error .reservedField else .ok (.bktSeal (fa w) (fta w))
    | 2 => .ok (.bktClaim (fd w) (fa w) (fta w))
    | 3 => .ok (.bktClose (fd w) (fa w) (fta w))
    | 4 => if fd w ≠ 0 then .error .reservedField else .ok (.bktFree (fa w) (fta w))
    | _ => .error .unassignedSub

/-- The decoder: the opcode map of R344, each opcode with the fields of its encoding table. -/
def decode (w : Word) : Except DecodeError Instr :=
  match (fop w).toNat with
  | 0x01 => plainJ w .nop
  | 0x02 => imm16C w .mode
  | 0x03 => if fd w ≠ 0 || fk w || w.extractLsb' 7 10 ≠ 0 then .error .reservedField else .ok (.modex (w.extractLsb' 1 6))
  | 0x04 => .ok (.bra (foff24 w))
  | 0x05 => .ok (.brc (w.getLsbD 23) (w.getLsbD 22) (w.extractLsb' 19 3) (w.extractLsb' 0 19))
  | 0x06 => if w.getLsbD 23 then .error .reservedField else .ok (.brn (w.getLsbD 22) (w.extractLsb' 19 3) (w.extractLsb' 0 19))
  | 0x07 => if fk w then .error .reservedField else .ok (.call (fd w) (fimm16 w))
  | 0x08 => regs1 w .ret
  | 0x09 => regs1 w .jr
  | 0x0A => .ok (.join (foff24 w))
  | 0x0B => plainJ w .yield
  | 0x0C => imm16C w .sleep
  | 0x0D => plainJ w .stop
  | 0x0E => imm3C w .bar
  | 0x0F => imm3C w .barc
  | 0x10 => imm3C w .barw
  | 0x11 => if fd w ≠ 0 || fk w then .error .reservedField else .ok (.waitp (.ofCode (w.extractLsb' 15 2)) (w.extractLsb' 1 14))
  | 0x12 => plainJ w .settle
  | 0x20 => regs3 w .add
  | 0x21 => regs3 w .sub
  | 0x22 => regs3 w .mul
  | 0x23 => regs3k w .mad
  | 0x24 => regs3 w .min
  | 0x25 => regs3 w .max
  | 0x26 => regs2 w .abs
  | 0x27 => regs2 w .neg
  | 0x28 => cmpE w
  | 0x29 => if w.extractLsb' 5 5 ≠ 0 then .error .unassignedSub else .ok (.sel (fd w) (fa w) (w.getLsbD 4) (w.getLsbD 3) (fx w))
  | 0x2A => immB w .addi
  | 0x2B => if fk w then .error .reservedField else .ok (.movl (fd w) (fimm16 w))
  | 0x2C => .ok (.movh (fd w) (fimm16 w) (fk w))
  | 0x2D => regs2 w .mov
  | 0x2E => regs3k w .clamp
  | 0x30 => regs3 w .mulh
  | 0x31 => regs3 w .div
  | 0x32 => regs3 w .rem
  | 0x33 => regs3k w .addc
  | 0x34 => regs3k w .subb
  | 0x35 => regs3 w .and
  | 0x36 => regs3 w .or
  | 0x37 => regs3 w .xor
  | 0x38 => regs3 w .andn
  | 0x39 => regs2 w .not
  | 0x3A => regs3 w .shl
  | 0x3B => regs3 w .shr
  | 0x3C => regs3 w .rot
  | 0x3D => countB w .shli
  | 0x3E => countB w .shri
  | 0x3F => immB w .andi
  | 0x40 => immB w .ori
  | 0x41 => immB w .xori
  | 0x42 => regs3 w .bfe
  | 0x43 => regs3k w .bfi
  | 0x44 => regs2 w .popc
  | 0x45 => regs2 w .clz
  | 0x46 => regs2 w .ctz
  | 0x47 => regs2 w .brev
  | 0x48 => regs3k w .perm
  | 0x49 => if w.extractLsb' 8 2 ≠ 0 || fx w ≠ 0 then .error .reservedField else .ok (.lea (fd w) (fa w) (w.getLsbD 7) (w.extractLsb' 4 3) (w.getLsbD 3))
  | 0x60 => regs2 w .rcp
  | 0x61 => regs2 w .rsq
  | 0x62 => regs2 w .sqrt
  | 0x63 => regs2 w .exp2
  | 0x64 => regs2 w .log2
  | 0x65 => regs2 w .sin
  | 0x66 => regs2 w .cos
  | 0x67 => regs2 w .fract
  | 0x68 => regs2 w .rnd
  | 0x69 => regs3 w .ldexp
  | 0x6A => regs2 w .frexpm
  | 0x6B => regs2 w .frexpe
  | 0x6C => classE w
  | 0x6D => cvtE w
  | 0x6E => regs2 w .pack
  | 0x6F => regs2 w .unpack
  | 0x70 => regs3 w .copysign
  | 0x72 => regs3k w .dot2
  | 0x80 => regs3 w .shfl
  | 0x81 => regs3 w .shflx
  | 0x82 => regs3 w .shflu
  | 0x83 => regs3 w .shfld
  | 0x84 => pfoldE w
  | 0x85 => ballotE w
  | 0x86 => regs2 w .rdfirst
  | 0x87 => regs3 w .rdlane
  | 0x88 => regs3k w .wrlane
  | 0x89 => regs2 w .matchLanes
  | 0x8A => reduceE w
  | 0x8B => scanE w
  | 0x8C => regs3 w .aff
  | 0x8D => regs2 w .shape
  | 0x8E => regs2 w .gen
  | 0x8F => regs2 w .uni
  | 0xA0 => loadM w .ld
  | 0xA1 => storeM w .st
  | 0xA2 => if w.getLsbD 9 || fk w then .error .reservedField else .ok (.ldb (fd w) (fa w) (w.getLsbD 8) (foff6 w) (w.getLsbD 1))
  | 0xA3 => if fsz w ≠ 0 then .error .reservedField else .ok (.stb (fd w) (fa w) (foff6 w) (w.getLsbD 1) (fk w))
  | 0xA4 => loadM w .lds
  | 0xA5 => storeM w .sts
  | 0xA6 => loadM w .ldw
  | 0xA7 => storeM w .stw
  | 0xA8 => atomE w .atom
  | 0xA9 => redE w
  | 0xAA => atomE w .atoms
  | 0xAB => if fd w ≠ 0 || fk w then .error .reservedField else .ok (.pref (fa w) (.ofCode (fsz w)) (foff6 w) (w.getLsbD 1))
  | 0xAC => loadM w .ldone
  | 0xAD => if w.extractLsb' 3 7 ≠ 0 || fk w then .error .reservedField else .ok (.wopen (fd w) (fa w) (w.getLsbD 2) (w.getLsbD 1))
  | 0xAE => regs1 w .wclose
  | 0xC0 => imm3C w (fun s => .fence (.ofCode s))
  | 0xC1 => regs2s w .waitc
  | 0xC2 => regs2 w .ticket
  | 0xC3 => regs1 w .serve
  | 0xC4 => regs2s w .waitt
  | 0xC5 => if fd w ≠ 0 || fk w then .error .reservedField else .ok (.taskdec (fa w) (fimm8 w) (w.getLsbD 1))
  | 0xD0 => regs1 w .mcfg
  | 0xD1 => regs1 w .mma
  | 0xD2 => regs1 w .mloop
  | 0xD3 => regs3 w .mrd
  | 0xD4 => regs3k w .mwr
  | 0xD5 => regs1 w .mclr
  | 0xD6 => mcvtE w
  | 0xD7 => regs1 w .copy
  | 0xD8 => regs1 w .copyt
  | 0xE0 => regs1 w .bin
  | 0xE1 => regs1 w .dice
  | 0xE2 => loadM w .gld
  | 0xE3 => storeM w .gst
  | 0xE4 => regs3 w .rast5
  | 0xE5 => regs3 w .rast3
  | 0xE6 => regs2k w .swr
  | 0xE7 => regs1 w .resolve
  | 0xE8 => regs3 w .trace
  | 0xE9 => regs2k w .regroup
  | 0xEA => regs1 w .enq
  | 0xEB => regs3 w .sample
  | 0xEC => regs3 w .sampleg
  | 0xED => bktA w
  | 0xF0 => regs3k w .xst
  | 0xF1 => regs1 w .present
  | 0xF2 => if w.extractLsb' 0 5 ≠ 0 then .error .reservedField else .ok (.csrr (fd w) (w.extractLsb' 5 12))
  | 0xF3 => if w.extractLsb' 1 4 ≠ 0 then .error .reservedField else .ok (.csrw (fd w) (w.extractLsb' 5 12) (w.getLsbD 0))
  | 0xF4 => imm16C w .trap
  | 0xF5 => if fd w ≠ 0 || fk w || w.extractLsb' 2 15 ≠ 0 then .error .reservedField else .ok (.rft (w.getLsbD 1))
  | 0xF6 => regs1 w .save
  | 0xF7 => regs1 w .rest
  | _ => .error .unassignedOpcode

/-! ### The encoder -/

/-- Format A (R337). -/
def fmtA (op : BitVec 8) (d a b : RegName) (ta tb k : Bool) : Word :=
  op ++ d ++ a ++ b ++ bit ta ++ bit tb ++ bit k
/-- Format B (R337). -/
def fmtB (op : BitVec 8) (d a : RegName) (imm : BitVec 8) (ta k : Bool) : Word :=
  op ++ d ++ a ++ imm ++ bit ta ++ bit k
/-- Format C (R337). -/
def fmtC (op : BitVec 8) (d : RegName) (imm : BitVec 16) (k : Bool) : Word :=
  op ++ d ++ imm ++ bit k
/-- Format D (R337). -/
def fmtD (op : BitVec 8) (u n : Bool) (p : PredName) (off : BitVec 19) : Word :=
  op ++ bit u ++ bit n ++ p ++ off
/-- Format J (R337). -/
def fmtJ (op : BitVec 8) (off : BitVec 24) : Word :=
  op ++ off
/-- Format E (R337). -/
def fmtE (op : BitVec 8) (d a : RegName) (sub : BitVec 6) (ta : Bool) (x : BitVec 3) : Word :=
  op ++ d ++ a ++ sub ++ bit ta ++ x
/-- Format M (R337). -/
def fmtM (op : BitVec 8) (d a : RegName) (sz : BitVec 2) (off : BitVec 6) (ta k : Bool) : Word :=
  op ++ d ++ a ++ sz ++ off ++ bit ta ++ bit k
/-- Format S (R337). -/
def fmtS (op : BitVec 8) (d : RegName) (csr : BitVec 12) (x : BitVec 5) : Word :=
  op ++ d ++ csr ++ x

/-- The word of an instruction; an event has none. -/
def encode : Instr → Option Word
  | .nop => some (fmtJ 0x01 0)
  | .mode imm => some (fmtC 0x02 0 imm false)
  | .modex imm => some (fmtC 0x03 0 (0#10 ++ imm) false)
  | .bra off => some (fmtJ 0x04 off)
  | .brc u n p off => some (fmtD 0x05 u n p off)
  | .brn n p off => some (fmtD 0x06 false n p off)
  | .call d off => some (fmtC 0x07 d off false)
  | .ret a ta => some (fmtA 0x08 0 a 0 ta false false)
  | .jr a ta => some (fmtA 0x09 0 a 0 ta false false)
  | .join off => some (fmtJ 0x0A off)
  | .yield => some (fmtJ 0x0B 0)
  | .sleep n => some (fmtC 0x0C 0 n false)
  | .stop => some (fmtJ 0x0D 0)
  | .bar b => some (fmtC 0x0E 0 (0#13 ++ b) false)
  | .barc b => some (fmtC 0x0F 0 (0#13 ++ b) false)
  | .barw b => some (fmtC 0x10 0 (0#13 ++ b) false)
  | .waitp path n => some (fmtC 0x11 0 (path.code ++ n) false)
  | .settle => some (fmtJ 0x12 0)
  | .add d a b ta tb => some (fmtA 0x20 d a b ta tb false)
  | .sub d a b ta tb => some (fmtA 0x21 d a b ta tb false)
  | .mul d a b ta tb => some (fmtA 0x22 d a b ta tb false)
  | .mad d a b ta tb k => some (fmtA 0x23 d a b ta tb k)
  | .min d a b ta tb => some (fmtA 0x24 d a b ta tb false)
  | .max d a b ta tb => some (fmtA 0x25 d a b ta tb false)
  | .abs d a ta => some (fmtA 0x26 d a 0 ta false false)
  | .neg d a ta => some (fmtA 0x27 d a 0 ta false false)
  | .cmp d a any cc ta x => some (fmtE 0x28 d a (0#1 ++ bit any ++ cc.code) ta x)
  | .sel d a neg ta x => some (fmtE 0x29 d a (0#5 ++ bit neg) ta x)
  | .addi d a imm ta => some (fmtB 0x2A d a imm ta false)
  | .movl d imm => some (fmtC 0x2B d imm false)
  | .movh d imm k => some (fmtC 0x2C d imm k)
  | .mov d a ta => some (fmtA 0x2D d a 0 ta false false)
  | .clamp d a b ta tb k => some (fmtA 0x2E d a b ta tb k)
  | .mulh d a b ta tb => some (fmtA 0x30 d a b ta tb false)
  | .div d a b ta tb => some (fmtA 0x31 d a b ta tb false)
  | .rem d a b ta tb => some (fmtA 0x32 d a b ta tb false)
  | .addc d a b ta tb k => some (fmtA 0x33 d a b ta tb k)
  | .subb d a b ta tb k => some (fmtA 0x34 d a b ta tb k)
  | .and d a b ta tb => some (fmtA 0x35 d a b ta tb false)
  | .or d a b ta tb => some (fmtA 0x36 d a b ta tb false)
  | .xor d a b ta tb => some (fmtA 0x37 d a b ta tb false)
  | .andn d a b ta tb => some (fmtA 0x38 d a b ta tb false)
  | .not d a ta => some (fmtA 0x39 d a 0 ta false false)
  | .shl d a b ta tb => some (fmtA 0x3A d a b ta tb false)
  | .shr d a b ta tb => some (fmtA 0x3B d a b ta tb false)
  | .rot d a b ta tb => some (fmtA 0x3C d a b ta tb false)
  | .shli d a n ta => some (fmtB 0x3D d a (0#2 ++ n) ta false)
  | .shri d a n ta => some (fmtB 0x3E d a (0#2 ++ n) ta false)
  | .andi d a imm ta => some (fmtB 0x3F d a imm ta false)
  | .ori d a imm ta => some (fmtB 0x40 d a imm ta false)
  | .xori d a imm ta => some (fmtB 0x41 d a imm ta false)
  | .bfe d a b ta tb => some (fmtA 0x42 d a b ta tb false)
  | .bfi d a b ta tb k => some (fmtA 0x43 d a b ta tb k)
  | .popc d a ta => some (fmtA 0x44 d a 0 ta false false)
  | .clz d a ta => some (fmtA 0x45 d a 0 ta false false)
  | .ctz d a ta => some (fmtA 0x46 d a 0 ta false false)
  | .brev d a ta => some (fmtA 0x47 d a 0 ta false false)
  | .perm d a b ta tb k => some (fmtA 0x48 d a b ta tb k)
  | .lea d a zx sh ta => some (fmtE 0x49 d a (0#2 ++ bit zx ++ sh) ta 0)
  | .rcp d a ta => some (fmtA 0x60 d a 0 ta false false)
  | .rsq d a ta => some (fmtA 0x61 d a 0 ta false false)
  | .sqrt d a ta => some (fmtA 0x62 d a 0 ta false false)
  | .exp2 d a ta => some (fmtA 0x63 d a 0 ta false false)
  | .log2 d a ta => some (fmtA 0x64 d a 0 ta false false)
  | .sin d a ta => some (fmtA 0x65 d a 0 ta false false)
  | .cos d a ta => some (fmtA 0x66 d a 0 ta false false)
  | .fract d a ta => some (fmtA 0x67 d a 0 ta false false)
  | .rnd d a ta => some (fmtA 0x68 d a 0 ta false false)
  | .ldexp d a b ta tb => some (fmtA 0x69 d a b ta tb false)
  | .frexpm d a ta => some (fmtA 0x6A d a 0 ta false false)
  | .frexpe d a ta => some (fmtA 0x6B d a 0 ta false false)
  | .fpClass sel a cls ta x => some (fmtE 0x6C (0#5 ++ sel.code) a cls ta x)
  | .cvt d a src ta => some (fmtE 0x6D d a (0#1 ++ src.code) ta 0)
  | .pack d a ta => some (fmtA 0x6E d a 0 ta false false)
  | .unpack d a ta => some (fmtA 0x6F d a 0 ta false false)
  | .copysign d a b ta tb => some (fmtA 0x70 d a b ta tb false)
  | .dot2 d a b ta tb k => some (fmtA 0x72 d a b ta tb k)
  | .shfl d a b ta tb => some (fmtA 0x80 d a b ta tb false)
  | .shflx d a b ta tb => some (fmtA 0x81 d a b ta tb false)
  | .shflu d a b ta tb => some (fmtA 0x82 d a b ta tb false)
  | .shfld d a b ta tb => some (fmtA 0x83 d a b ta tb false)
  | .pfold pd neg kind x => some (fmtE 0x84 (0#4 ++ pd) 0 (0#2 ++ bit neg ++ 0#1 ++ kind.code) false x)
  | .ballot d neg x => some (fmtE 0x85 d 0 (0#2 ++ bit neg ++ 0#3) false x)
  | .rdfirst d a ta => some (fmtA 0x86 d a 0 ta false false)
  | .rdlane d a b ta tb => some (fmtA 0x87 d a b ta tb false)
  | .wrlane d a b ta tb k => some (fmtA 0x88 d a b ta tb k)
  | .matchLanes d a ta => some (fmtA 0x89 d a 0 ta false false)
  | .reduce d a op ta => some (fmtE 0x8A d a (0#3 ++ op.code) ta 0)
  | .scan d a ex op ta => some (fmtE 0x8B d a (0#2 ++ bit ex ++ op.code) ta 0)
  | .aff d a b ta tb => some (fmtA 0x8C d a b ta tb false)
  | .shape d a ta => some (fmtA 0x8D d a 0 ta false false)
  | .gen d a ta => some (fmtA 0x8E d a 0 ta false false)
  | .uni d a ta => some (fmtA 0x8F d a 0 ta false false)
  | .ld d a sz off ta => some (fmtM 0xA0 d a sz.code off ta false)
  | .st d a sz off ta k => some (fmtM 0xA1 d a sz.code off ta k)
  | .ldb d a sx off ta => some (fmtM 0xA2 d a (0#1 ++ bit sx) off ta false)
  | .stb d a off ta k => some (fmtM 0xA3 d a 0 off ta k)
  | .lds d a sz off ta => some (fmtM 0xA4 d a sz.code off ta false)
  | .sts d a sz off ta k => some (fmtM 0xA5 d a sz.code off ta k)
  | .ldw d a sz off ta => some (fmtM 0xA6 d a sz.code off ta false)
  | .stw d a sz off ta k => some (fmtM 0xA7 d a sz.code off ta k)
  | .atom d a home op ta w64 => some (fmtE 0xA8 d a (bit home ++ op.code) ta (0#2 ++ bit w64))
  | .red d a op ta w64 => some (fmtE 0xA9 d a (0#1 ++ op.code) ta (0#2 ++ bit w64))
  | .atoms d a win op ta w64 => some (fmtE 0xAA d a (bit win ++ op.code) ta (0#2 ++ bit w64))
  | .pref a sz off ta => some (fmtM 0xAB 0 a sz.code off ta false)
  | .ldone d a sz off ta => some (fmtM 0xAC d a sz.code off ta false)
  | .wopen d a sw ta => some (fmtB 0xAD d a (0#7 ++ bit sw) ta false)
  | .wclose a ta => some (fmtA 0xAE 0 a 0 ta false false)
  | .fence scope => some (fmtC 0xC0 0 (0#13 ++ scope.code) false)
  | .waitc a b ta tb => some (fmtA 0xC1 0 a b ta tb false)
  | .ticket d a ta => some (fmtA 0xC2 d a 0 ta false false)
  | .serve a ta => some (fmtA 0xC3 0 a 0 ta false false)
  | .waitt a b ta tb => some (fmtA 0xC4 0 a b ta tb false)
  | .taskdec a n ta => some (fmtB 0xC5 0 a n ta false)
  | .mcfg a ta => some (fmtA 0xD0 0 a 0 ta false false)
  | .mma a ta => some (fmtA 0xD1 0 a 0 ta false false)
  | .mloop a ta => some (fmtA 0xD2 0 a 0 ta false false)
  | .mrd d a b ta tb => some (fmtA 0xD3 d a b ta tb false)
  | .mwr d a b ta tb k => some (fmtA 0xD4 d a b ta tb k)
  | .mclr a ta => some (fmtA 0xD5 0 a 0 ta false false)
  | .mcvt d a target ta => some (fmtE 0xD6 d a (0#1 ++ target.type.code) ta 0)
  | .copy a ta => some (fmtA 0xD7 0 a 0 ta false false)
  | .copyt a ta => some (fmtA 0xD8 0 a 0 ta false false)
  | .bin a ta => some (fmtA 0xE0 0 a 0 ta false false)
  | .dice a ta => some (fmtA 0xE1 0 a 0 ta false false)
  | .gld d a sz off ta => some (fmtM 0xE2 d a sz.code off ta false)
  | .gst d a sz off ta k => some (fmtM 0xE3 d a sz.code off ta k)
  | .rast5 d a b ta tb => some (fmtA 0xE4 d a b ta tb false)
  | .rast3 d a b ta tb => some (fmtA 0xE5 d a b ta tb false)
  | .swr d a ta k => some (fmtA 0xE6 d a 0 ta false k)
  | .resolve a ta => some (fmtA 0xE7 0 a 0 ta false false)
  | .trace d a b ta tb => some (fmtA 0xE8 d a b ta tb false)
  | .regroup d a ta k => some (fmtA 0xE9 d a 0 ta false k)
  | .enq a ta => some (fmtA 0xEA 0 a 0 ta false false)
  | .sample d a b ta tb => some (fmtA 0xEB d a b ta tb false)
  | .sampleg d a b ta tb => some (fmtA 0xEC d a b ta tb false)
  | .bktOpen d a ta => some (fmtA 0xED d a 0 ta false false)
  | .bktSeal a ta => some (fmtA 0xED 0 a 1 ta false false)
  | .bktClaim d a ta => some (fmtA 0xED d a 2 ta false false)
  | .bktClose d a ta => some (fmtA 0xED d a 3 ta false false)
  | .bktFree a ta => some (fmtA 0xED 0 a 4 ta false false)
  | .xst d a b ta tb k => some (fmtA 0xF0 d a b ta tb k)
  | .present a ta => some (fmtA 0xF1 0 a 0 ta false false)
  | .csrr d csr => some (fmtS 0xF2 d csr 0)
  | .csrw d csr k => some (fmtS 0xF3 d csr (0#4 ++ bit k))
  | .trap n => some (fmtC 0xF4 0 n false)
  | .rft next => some (fmtC 0xF5 0 (0#15 ++ bit next) false)
  | .save a ta => some (fmtA 0xF6 0 a 0 ta false false)
  | .rest a ta => some (fmtA 0xF7 0 a 0 ta false false)
  | .watchdog _ => none
  | .sleepExpiry _ _ => none
  | .forcedSwitch _ => none
  | .producerComplete _ _ => none
  | .windowCommit _ => none
  | .anchorGrant _ _ => none
  | .anchorTimeout _ => none
  | .atomHoldTimeout _ => none
  | .ownershipRequest _ _ => none
  | .ownershipGrant _ _ => none
  | .invalidation _ _ => none
  | .invalidationAcknowledgement _ _ => none
  | .homeAtomicPerform _ => none
  | .activeMessage _ => none
  | .monitorWake _ => none
  | .monitorRecheck _ _ => none
  | .engineOpStart _ => none
  | .singlePoint _ => none
  | .diceService _ _ => none
  | .binPerform _ => none
  | .poolLimitWake _ => none
  | .frameSealEffect _ _ _ => none
  | .resolveStart _ => none
  | .resolveComplete _ => none
  | .bucketReturn _ => none
  | .remainingCountUpdate _ _ => none
  | .stealServe _ => none
  | .stealComplete _ => none
  | .taskDecrement => none
  | .teamPlacement _ => none
  | .reservationTimeout _ => none
  | .queueRowLaunch _ _ _ => none
  | .rowAgeLimit _ _ _ => none
  | .pipelineDrain _ => none
  | .swapOut _ => none
  | .preemptDecision _ => none
  | .preempt _ => none
  | .teamSaveDone _ => none
  | .teamRestore _ => none
  | .leaveGrant _ => none
  | .traceBurstIdle _ => none
  | .epochBoundary => none
  | .arbiterGrant _ => none
  | .meshOutputArbitration _ => none
  | .headPromoted _ _ => none
  | .wayReclaimEviction _ => none
  | .invalidate _ => none
  | .invalidateDone _ => none
  | .faultPost _ => none
  | .translationResume _ _ => none
  | .heatFlush _ _ => none
  | .moveRelease => none
  | .mrtailWrite _ => none
  | .migrationRecord => none
  | .patrolScrub _ _ => none
  | .dieLinkFlitCrcFail _ => none
  | .linkRetrain _ => none
  | .linkRetrainDone _ => none
  | .linkOutOfService _ => none
  | .linePacketSend _ _ => none
  | .linePacketReceive _ => none
  | .resync _ => none
  | .cumulativeAcknowledgement _ _ => none
  | .dlctlWrite _ _ => none
  | .oppPathSwitch _ => none
  | .fabricFlitCrcFail _ => none
  | .xstArrival _ _ => none
  | .xack _ _ => none
  | .arrive _ => none
  | .release _ => none
  | .repeatDecision _ => none
  | .time _ => none
  | .headerFlitDiscard _ => none
  | .frouteWrite _ _ => none
  | .powerOn => none
  | .startupStageDone _ => none
  | .thermalThrottle _ => none
  | .thermalThrottleEnd _ => none
  | .thermalTrip => none
  | .dpctlWrite _ _ => none
  | .dpLinkTrained _ => none
  | .dpLinkLost _ => none
  | .frameRecordRead => none
  | .line0Start _ => none
  | .latchLine _ => none
  | .cutoffLine => none
  | .bandWindowOpen _ _ => none
  | .bandDeadline _ _ => none
  | .genlockLocked _ => none
  | .genlockLost _ => none
  | .doorbellWrite _ _ _ => none
  | .tailLineInvalidate _ _ => none
  | .queueEnable _ _ => none
  | .destroy _ _ => none
  | .abort _ _ => none
  | .resume _ _ => none
  | .abortDone _ _ => none
  | .ackedWrite _ _ _ => none
  | .launch _ _ => none
  | .signal _ _ => none
  | .waitmem _ _ => none
  | .counter _ _ => none
  | .nopRecord _ _ => none
  | .recordStart _ _ _ => none
  | .launchComplete _ => none
  | .completionWrite _ _ => none
  | .vfFunctionLevelReset _ => none
  | .pfFunctionLevelReset => none
  | .hotReset => none
  | .readLifetimeRecord => none
  | .writeFirmwareImage => none
  | .commitSvn => none
  | .writeConfigurationRecord => none
  | .displayLinkQuery => none
  | .securityAlarm _ => none
  | .firmwareRemeasurement _ => none
  | .lifetimeRecordRewrite => none
  | .spdmRequest _ => none
  | .hostCxlCacheAccess _ _ _ => none
  | .hostCxlMemAccess _ _ _ => none
  | .bar2Access _ _ _ => none
  | .vfbindWrite _ _ => none
  | .shareEntryWrite _ _ => none
  | .taskallotWrite _ _ => none
  | .vfmodeWrite _ _ => none
  | .boothallotWrite _ _ => none
  | .savecntWrite _ _ => none
  | .registerWrite _ _ => none
  | .illegalOpcode _ => none
  | .instructionFetchFault => none
  | .internalUncorrectableError => none
  | .powerOff => none
  | .frheadWrite _ _ => none
  | .pcieReadReturn _ => none
  | .badOpRecord _ _ => none
  | .mailboxBadCommand _ => none

/-- The instruction the decoder reads from an instruction of `nbits` bits with value `w` (the host's question). -/
def decodeTableWord (nbits w : Nat) : Option Instr :=
  match decode (BitVec.ofNat 32 (w % 2 ^ nbits)) with
  | .ok i => some i
  | .error _ => none

end Sys2Proof
end

