-- ==== Sys2Proof/Machine/LinkLines.lean ====
section
/-!
DEFINITION. Directions of die links, routes of die-link messages, and the compressed-line protocol at the sending end
(01 R6–R9, R13–R17, R20).
-/

namespace Sys2Proof.Machine

/-! ### Ends and directions (R6, R22) -/

/-- DLCTL of the end that sends in a direction, and of the end that receives in it (R6, R22). -/
def dlctlOf (dir : Nat) : Nat :=
  let l := dir / 2
  if l < 4 then (if dir % 2 = 0 then dieSpace l else dieSpace ((l + 1) % 4) + 8)
  else (if dir % 2 = 0 then dieSpace (l - 4) + 0x10 else hubSpace + 8 * (l - 4))
def dlstatOf (dir : Nat) : Nat := dlctlOf dir + 4
/-- The direction back. -/
def backOf (dir : Nat) : Nat := if dir % 2 = 0 then dir + 1 else dir - 1

def State.linkDir? (s : State) (dir : Nat) : Option LinkDir := s.linkDirs.find? (fun d => d.dir = dir)
def State.setDir (s : State) (d : LinkDir) : State :=
  { s with linkDirs := s.linkDirs.map (fun x => if x.dir = d.dir then d else x) }
def State.layer? (s : State) (link : Nat) : Option LinkLayer := s.linkLayers.find? (fun l => l.link = link)
def State.setLayer (s : State) (l : LinkLayer) : State :=
  { s with linkLayers := s.linkLayers.map (fun x => if x.link = l.link then l else x) }

/-- The link carries traffic: trained, UP, and not out of service (R11, R12, R22, R31). -/
def State.linkUp (s : State) (link : Nat) : Bool :=
  s.mgmt.powered && (s.layer? link).any (fun l => l.training.isNone) && decide (bits (s.pfGet (dlstatOf (2 * link))) 0 2 = 1)

/-! ### Routes of die-link messages (R6–R9) -/

/-- The die that sends in a direction, 4 for the hub, and the one that receives (R6). -/
def senderOf (dir : Nat) : Nat :=
  let l := dir / 2
  if l < 4 then (if dir % 2 = 0 then l else (l + 1) % 4) else (if dir % 2 = 0 then l - 4 else 4)
def receiverOf (dir : Nat) : Nat := senderOf (backOf dir)

/-- Two render dies are opposite (R7). -/
def opposite (a b : Nat) : Bool := decide (a < 4 ∧ b = (a + 2) % 4)

/-- The direction from a die to one that a link joins to it (R6). -/
def dirTo (a b : Nat) : Nat :=
  if b = 4 then 8 + 2 * a
  else if a = 4 then 9 + 2 * b
  else if b = (a + 1) % 4 then 2 * a
  else 2 * b + 1

/-- The direction in which a die sends a message on (R7): directly, or to the opposite die through the hub or the die to
the east. -/
def nextDir (at_ dst : Nat) (viaHub : Bool) : Nat :=
  if opposite at_ dst then (if viaHub then dirTo at_ 4 else dirTo at_ ((at_ + 1) % 4)) else dirTo at_ dst

/-- The path to the opposite die that DLCTL of a die selects (R7, R22). -/
def State.oppVia (s : State) (die : Nat) : Bool := decide (bits (s.pfGet (dieSpace die)) 5 1 = 1)

def State.oppPath? (s : State) (die : Nat) : Option OppPath := s.oppPaths.find? (fun p => p.die = die)
def State.modPath (s : State) (die : Nat) (f : OppPath → OppPath) : State :=
  { s with oppPaths := s.oppPaths.map (fun p => if p.die = die then f p else p) }

/-- Messages belong to one stream: one source, one destination and one class (R8). -/
def DieMsg.sameStream (a b : DieMsg) : Bool := decide (a.src = b.src ∧ a.dst = b.dst ∧ a.cls = b.cls)

/-- A field of DLSTAT at both ends of a link. -/
def State.bothStat (s : State) (link lo w v : Nat) : State :=
  [2 * link, 2 * link + 1].foldl (fun s d => s.pfSet (dlstatOf d) (putBits (s.pfGet (dlstatOf d)) lo w v)) s

/-- A count field of a register raised by 1, saturating. -/
def State.countUp (s : State) (off lo w : Nat) : State :=
  let x := s.pfGet off
  s.pfSet off (putBits x lo w (min (2 ^ w - 1) (bits x lo w + 1)))

/-! ### Line packets (R13–R18) -/

/-- CRC-8 with polynomial x^8 + x^2 + x + 1 (R18). -/
def crc8 (bs : List Byte) : Nat :=
  bs.foldl (fun c b =>
    (List.range 8).foldl (fun c _ => if 128 ≤ c then ((2 * c) % 256) ^^^ 7 else 2 * c) (c ^^^ b.toNat)) 0

/-- Words of a line. -/
def lineWords (x : BitVec 1024) : List Word := wordsOf 32 x.toNat
/-- Bytes of a line in ascending order. -/
def lineBytes (x : BitVec 1024) : List Byte := toLe 128 x.toNat

/-- The forms (R13, R14). -/
inductive LineForm where
  | raw | zero | splat | delta | dict
  deriving DecidableEq, Repr

def LineForm.code : LineForm → Nat
  | .raw => 0 | .zero => 1 | .splat => 2 | .delta => 3 | .dict => 4

/-- An entry of a dictionary (R17). -/
def LinkEnd.entry (e : LinkEnd) (k : Nat) : Word := ((e.dict.find? (fun p => p.1 = k)).map (·.2)).getD 0

/-- The lowest index that holds a word (R16). -/
def LinkEnd.hit (e : LinkEnd) (w : Word) : Option Nat := (List.range 256).find? (fun k => e.entry k = w)

/-- The tag and the item of each word of a DICT line (R15): the one of least length, the lowest tag first. -/
def LinkEnd.items (e : LinkEnd) : Option Word → List Word → List (Nat × List Byte)
  | _, [] => []
  | before, w :: ws =>
    (if w = 0 then (0, [])
     else if before = some w then (3, [])
     else
       match e.hit w with
       | some k => (1, toLe 1 k)
       | none => (2, toLe 4 w.toNat)) :: e.items (some w) ws

/-- Literals of a DICT line, in word order. -/
def literalsOf (ws : List Word) (items : List (Nat × List Byte)) : List Word :=
  ((ws.zip items).filter (fun p => p.2.1 = 2)).map (·.1)

/-- Padding to whole words. -/
def padWord (bs : List Byte) : List Byte := bs ++ List.replicate ((4 - bs.length % 4) % 4) 0

/-- Bases of a DELTA line, as a least one and a number of further ones; none when there is none (R14). -/
def deltaBases (ws : List Word) : Option (Int × Nat) :=
  let w0 := ws.headD 0
  let ds := ws.map (fun w => (w - w0).toInt)
  let lo := ds.foldl min 0
  let hi := ds.foldl max 0
  if hi - lo ≤ 255 then some (hi - 127, (255 - (hi - lo)).toNat) else none

/-- The payload of a line in a form, when the form represents it (R14, R15); `pick` chooses among bases of DELTA. -/
def LinkEnd.payload (e : LinkEnd) (ws : List Word) (pick : Nat) : LineForm → Option (List Byte)
  | .raw => some (ws.flatMap (fun w => toLe 4 w.toNat))
  | .zero => if ws.all (· = 0) then some [] else none
  | .splat => let w0 := ws.headD 0; if ws.all (· = w0) then some (toLe 4 w0.toNat) else none
  | .delta =>
    (match deltaBases ws with
     | some (b, n) =>
       let base := ws.headD 0 + BitVec.ofInt 32 (b + (pick % (n + 1) : Nat))
       some (toLe 4 base.toNat ++ ws.map (fun w => (w - base).setWidth 8))
     | none => none)
  | .dict =>
    let items := e.items none ws
    let tags := items.zipIdx.foldl (fun t p => t + p.1.1 * 4 ^ p.2) 0
    some (toLe 8 tags ++ padWord (items.flatMap (·.2)))

/-- The form enabled by a DLCTL (R16, R22). -/
def formEnabled (ctl : Nat) (f : LineForm) : Bool :=
  decide (f = .raw) || (decide (bits ctl 0 1 = 1) && decide (bits ctl f.code 1 = 1))

/-- The form of least length, the first in the order of R16 among equals, with its payload. -/
def LinkEnd.choose (e : LinkEnd) (ctl : Nat) (ws : List Word) (pick : Nat) : LineForm × List Byte :=
  let forms := ([LineForm.zero, .splat, .delta, .dict, .raw].filter (formEnabled ctl)).filterMap (fun f =>
    (e.payload ws pick f).map (fun p => (f, p)))
  forms.foldl (fun b x => if x.2.length < b.2.length then x else b) ((forms.head?).getD (.raw, []))

/-- Literals written into a dictionary (R17). -/
def LinkEnd.insert (e : LinkEnd) (ls : List Word) : LinkEnd :=
  ls.foldl (fun e w => { e with dict := assign 0 e.dict e.ptr w, ptr := (e.ptr + 1) % 256 }) e

/-- A new epoch: the dictionary is cleared (R17, R19, R20). -/
def LinkEnd.nextEpoch (e : LinkEnd) : LinkEnd := { e with epoch := (e.epoch + 1) % 4, dict := [], ptr := 0 }

/-- A message's line encoded by the sending end with a sequence number: its packet, and the end after it (R13, R16, R17). -/
def LinkEnd.encodeLine (e : LinkEnd) (ctl seq : Nat) (m : DieMsg) (pick : Nat) : LinePacket × LinkEnd :=
  let x := m.line
  let ws := lineWords x
  let (f, p) := e.choose ctl ws pick
  let h := packBits [(8, crc8 (lineBytes x)), (1, 0), (6, p.length / 4), (3, f.code), (2, e.epoch), (12, seq)]
  ({ header := BitVec.ofNat 32 h, payload := p, src := m.src, dst := m.dst, cls := m.cls },
   if f = .dict then e.insert (literalsOf ws (e.items none ws)) else e)

/-- Items of a DICT payload decoded, with the word before: the words and the literals; none when malformed. -/
def LinkEnd.takeItems (e : LinkEnd) : List Nat → Option Word → List Byte → Option (List Word × List Word × List Byte)
  | [], _, bs => some ([], [], bs)
  | t :: ts, before, bs =>
    let go (w : Word) (lit : List Word) (rest : List Byte) : Option (List Word × List Word × List Byte) :=
      (e.takeItems ts (some w) rest).map (fun r => (w :: r.1, lit ++ r.2.1, r.2.2))
    match t with
    | 0 => go 0 [] bs
    | 1 => (match bs with
            | k :: rest => go (e.entry k.toNat) [] rest
            | [] => none)
    | 2 => if bs.length < 4 then none
           else let w := BitVec.ofNat 32 (leNat (bs.take 4)); go w [w] (bs.drop 4)
    | _ => (match before with
            | some w => go w [] bs
            | none => none)

/-- A packet decoded: the line's words and the literals; none when malformed (R14, R15, R19). -/
def LinkEnd.decodeLine (e : LinkEnd) (p : LinePacket) : Option (List Word × List Word) :=
  let h := p.header.toNat
  let len := bits h 9 6
  if p.payload.length ≠ 4 * len then none
  else
    match bits h 15 3 with
    | 0 => if len = 32 then some (wordsOf 32 (leNat p.payload), []) else none
    | 1 => if len = 0 then some (List.replicate 32 0, []) else none
    | 2 => if len = 1 then some (List.replicate 32 (BitVec.ofNat 32 (leNat p.payload)), []) else none
    | 3 =>
      if len = 9 then
        let b := BitVec.ofNat 32 (leNat (p.payload.take 4))
        some ((p.payload.drop 4).map (fun x => b + x.signExtend 32), [])
      else none
    | 4 =>
      if len < 2 then none
      else
        let tags := leNat (p.payload.take 8)
        (match e.takeItems ((List.range 32).map (fun i => bits tags (2 * i) 2)) none (p.payload.drop 8) with
         | some (ws, ls, rest) => if rest.length < 4 then some (ws, ls) else none
         | none => none)
    | _ => none

/-! ### Sending, receiving and resynchronisation (R16–R21) -/

/-- A line sent, or sent again, in a direction (R16, R20). -/
def LinkDir.send (d : LinkDir) (ctl seq : Nat) (m : DieMsg) (pick : Nat) : LinkDir :=
  let (p, tx) := d.tx.encodeLine ctl seq m pick
  { d with tx := tx, wire := d.wire ++ [p] }

/-- DICT_PERR of an end is recorded (R22). -/
def State.notePerr (s : State) (dir : Nat) : State := s.pfSet (dlstatOf dir) (putBits (s.pfGet (dlstatOf dir)) 2 1 1)

/-- A message leaves by a direction: its line is held until it is acknowledged (R20). With a parity error of the sender's
dictionary it goes RAW, and a new epoch begins after it. -/
def State.sendLine (s : State) (d : LinkDir) (m : DieMsg) (perr : Bool) : State :=
  let seq := d.tx.seq
  let d1 := d.send (if perr then 0 else s.pfGet (dlctlOf d.dir)) seq m (Config.choice s.draw)
  let tx := if perr then d1.tx.nextEpoch else d1.tx
  let s1 := if perr then s.notePerr d.dir else s
  { s1 with draw := s1.draw + 1 }.setDir
    { d1 with tx := { tx with seq := (seq + 1) % 4096 }, held := d1.held ++ [({ seq := seq, msg := m } : HeldLine)] }

/-! ### New messages at their source (R7–R9) -/

/-- Messages wait at the sender of a direction. -/
def State.relayOn (s : State) (dir : Nat) (ms : List DieMsg) : State :=
  { s with linkDirs := s.linkDirs.map (fun x => if x.dir = dir then { x with relay := x.relay ++ ms } else x) }

/-- A message to the opposite die takes its path, or is held at its source while earlier ones are on another (R9). -/
def State.takePath (s : State) (p : OppPath) (m : DieMsg) (go : State → Option State) : Option State :=
  let via := s.oppVia m.src
  if p.held = [] ∧ (p.viaHub = via ∨ p.outstanding = 0) then
    go (s.modPath m.src (fun p => { p with viaHub := via, outstanding := p.outstanding + 1 }))
  else some (s.modPath m.src (fun p => { p with held := p.held ++ [(via, m)] }))

/-- A new message put at its source (R7–R9). -/
def State.offer (s : State) (m : DieMsg) : State :=
  let via := s.oppVia m.src
  let put (s : State) : State := s.relayOn (nextDir m.src m.dst via) [m]
  if opposite m.src m.dst then
    match s.oppPath? m.src with
    | some p => (s.takePath p m (fun s => some (put s))).getD s
    | none => s
  else put s

end Sys2Proof.Machine
end

