-- ==== Sys2Proof/Machine/Traffic.lean ====
section
/-!
DEFINITION. The traffic of accesses (04 R92, R100, R103, R107, R108, 09 R235, R254): where lines are homed, and the arbiters
that requests, responses and coherence messages pass on their way.
-/

namespace Sys2Proof.Machine

/-! ### Arbiters by name (R97) -/

def arbOf (cls i : Nat) : Nat := cls * 2 ^ 20 + i
def arbClass (arb : Nat) : Nat := arb / 2 ^ 20
def arbIndex (arb : Nat) : Nat := arb % 2 ^ 20

/-! ### Homes (R235, R254) -/

/-- Home partition of a line, 4 × die + y; 16 for host lines, which have none. -/
def State.homePart (s : State) (line : Nat) : Nat :=
  let pa := 128 * line
  match regionOf pa with
  | some .near => 4 * bits pa 35 2 + bits pa 33 2
  | some .far => ((s.homes.find? (fun p => p.1 = line / 32)).map (·.2)).getD 0
  | _ => 16

/-- Home die of a line, 4 for host lines. -/
def State.homeOf (s : State) (line : Nat) : Nat := s.homePart line / 4

/-- Home slice of a line in its die, 4 × y + x. -/
def State.sliceOf (s : State) (line : Nat) : Nat := 4 * (s.homePart line % 4) + line % 4

/-- The home partition of a far-tier frame, as a leaf names it. -/
def State.noteHome (s : State) (line hp : Nat) : State :=
  if regionOf (128 * line) = some .far ∧ s.homes.find? (fun p => p.1 = line / 32) ≠ some (line / 32, hp) then
    { s with homes := s.homes.filter (fun p => p.1 ≠ line / 32) ++ [(line / 32, hp)] }
  else s

/-! ### Places (R92, R107) -/

/-- A unit at a port of a router: 0 local, 1 north, 2 east, 3 south, 4 west; die 4 is the hub. -/
structure Place where
  die : Nat
  x : Nat
  y : Nat
  port : Nat
  deriving DecidableEq, Repr

/-- A core, at the router of its cluster (R92, R206). -/
def corePlace (core : Nat) : Place := { die := core / 64, x := core / 4 % 4, y := core % 64 / 16, port := 0 }
/-- A slice of a die, 4 × y + x. -/
def slicePlace (die slice : Nat) : Place := { die := die, x := slice % 4, y := slice / 4, port := 0 }
/-- GDDR 7 channel y of a die. -/
def channelPlace (die y : Nat) : Place := { die := die, x := 0, y := y, port := 4 }
/-- The end of a die link at a die: the east, the west or the hub link. -/
def linkPlace (die link : Nat) : Place :=
  { die := die, x := 3, y := if link = die then 0 else if link < 4 then 1 else 2, port := 2 }
def hubPlace : Place := { die := 4, x := 0, y := 0, port := 0 }

/-! ### Routes (R7, R107, R108) -/

/-- Flits of a packet that carries bytes (R108). -/
def packetFlits (data : Nat) : Nat := 1 + (data + 31) / 32

/-- The outputs that a packet takes from a router to a place of its die: first along x and then along y (R107). -/
def meshPath (vc flits : Nat) (dest : Place) : Nat → Nat → Nat → Nat → List Hop
  | 0, _, _, _ => []
  | n + 1, x, y, input =>
    let hop (port : Nat) : Hop :=
      { arb := arbOf 8 (80 * dest.die + 5 * (4 * y + x) + port), input := input, vc := vc, flits := flits, line := none }
    if x < dest.x then hop 2 :: meshPath vc flits dest n (x + 1) y 4
    else if dest.x < x then hop 4 :: meshPath vc flits dest n (x - 1) y 2
    else if y < dest.y then hop 3 :: meshPath vc flits dest n x (y + 1) 1
    else if dest.y < y then hop 1 :: meshPath vc flits dest n x (y - 1) 3
    else [hop dest.port]

/-- A crossing of a die's mesh; the hub has none. -/
def meshLeg (vc flits : Nat) (a b : Place) : List Hop := if a.die = 4 then [] else meshPath vc flits b 7 a.x a.y a.port

/-- The directions of die links from a die to another (R7). -/
def State.dirsTo (s : State) (a b : Nat) : List Nat :=
  if a = b then []
  else if opposite a b then
    let m := if s.oppVia a then 4 else (a + 1) % 4
    [dirTo a m, dirTo m b]
  else [dirTo a b]

/-- Legs by die links and the meshes between them. -/
def linkLegs (vc flits : Nat) (line : Option (Nat × Nat × Nat)) (b : Place) : Place → List Nat → List Hop
  | a, [] => meshLeg vc flits a b
  | a, d :: ds =>
    meshLeg vc flits a (linkPlace a.die (d / 2)) ++
      ({ arb := arbOf 6 d, input := 0, vc := vc, flits := 4, line := line } : Hop) ::
        linkLegs vc flits line b (if receiverOf d = 4 then hubPlace else linkPlace (receiverOf d) (d / 2)) ds

/-- A packet's way from a place to another, with bytes of data; over die links a line of memory goes compressed (R13). -/
def State.way (s : State) (vc data : Nat) (line : Option Nat) (a b : Place) : List Hop :=
  linkLegs vc (packetFlits data) (line.map (fun l => (l, a.die, b.die))) b a (s.dirsTo a.die b.die)

/-! ### Transactions (R103, R246–R248, R254) -/

/-- The home slice of a line; host lines are reached at the hub. -/
def State.homePlace (s : State) (line : Nat) : Place :=
  if s.homePart line = 16 then hubPlace else slicePlace (s.homeOf line) (s.sliceOf line)

/-- The channel of a line: its place and its arbiter, none for host lines (R92, R97, R254). -/
def State.channelHop (s : State) (line : Nat) : Option (Place × Hop) :=
  let pa := 128 * line
  let hop (arb : Nat) : Hop := { arb := arb, input := 0, vc := 0, flits := 1, line := none }
  match regionOf pa with
  | some .near => some (channelPlace (s.homeOf line) (bits pa 33 2), hop (arbOf 4 (4 * bits pa 35 2 + bits pa 33 2)))
  | some .far => some (hubPlace, hop (arbOf 5 (bits pa 7 4)))
  | _ => none

/-- A line moved between its home slice and its channel. -/
def State.memoryWay (s : State) (vc line : Nat) (write : Bool) : List Hop :=
  match s.channelHop line with
  | none => []
  | some (c, hop) =>
    let h := s.homePlace line
    if write then s.way 1 128 (some line) h c ++ [hop]
    else s.way vc 0 none h c ++ [hop] ++ s.way 2 128 (some line) c h

/-- A line asked for at its home slice and supplied, or sent there; `hit` when the slice holds it. -/
def State.homeWay (s : State) (vc line : Nat) (write hit : Bool) (a : Place) : List Hop :=
  let h := s.homePlace line
  if write then s.way vc 128 (some line) a h ++ s.way 2 0 none h a
  else s.way vc 0 none a h ++ (if hit then [] else s.memoryWay vc line false) ++ s.way 2 128 (some line) h a

/-- Traffic put at the first of its arbiters, which it reaches at a cycle (R101, R110). -/
def State.sendOn (s : State) (owner : Nat) (reserved : Bool) (at_ : Nat) : List Hop → State
  | [] => s
  | h :: rest =>
    let head : MeshHead :=
      { output := arbIndex h.arb, input := h.input, vc := h.vc, flits := h.flits, owner := owner, reserved := reserved, age := 0,
        asOf := at_, rest := rest }
    let req : ArbReq :=
      { arb := h.arb, owner := owner, charge := h.flits, reserved := reserved, line := h.line, vc := h.vc, rest := rest }
    if arbClass h.arb = 8 then { s with meshHeads := s.meshHeads ++ [head] } else { s with requests := s.requests ++ [req] }

/-- Traffic of an owner that sets out now. -/
def State.setOut (s : State) (owner : Nat) (reserved : Bool) (hops : List Hop) : State := s.sendOn owner reserved s.cycle hops

/-- A message without data between two places. -/
def State.postNote (s : State) (owner vc : Nat) (a b : Place) : State := s.setOut owner false (s.way vc 0 none a b)

/-- Some slice of a number holds a line. -/
def State.sliceHas (s : State) (id line : Nat) : Bool :=
  s.slices.any (fun x => decide (x.id = id) && x.lines.any (fun l => decide (l.line = line)))

/-- The home slice holds a line. -/
def State.homeHas (s : State) (line : Nat) : Bool := s.sliceHas (16 * s.homeOf line + s.sliceOf line) line

/-- Number of the slice that a core uses for a line: its home slice on its own die, else the remote-data cache slice of its
row (R93, R246). -/
def State.sliceFor (s : State) (core line : Nat) : Nat :=
  if s.homeOf line = core / 64 then 16 * (core / 64) + s.sliceOf line
  else 64 + 16 * (core / 64) + 4 * (core % 64 / 16) + line % 4

/-- A line brought to the L1 of a core, or to its instruction cache, for a function (R103, R108, R246). -/
def State.postFill (s : State) (owner core line : Nat) : State :=
  let a := corePlace core
  let id := s.sliceFor core line
  if s.homeOf line = core / 64 then s.setOut owner false (s.homeWay 0 line false (s.homeHas line) a)
  else
    let r := slicePlace (core / 64) (id % 16)
    let far := if s.sliceHas id line then [] else s.homeWay 0 line false (s.homeHas line) r
    s.setOut owner false (s.way 0 0 none a r ++ far ++ s.way 2 128 (some line) r a)

/-- Lines read or written by an engine at a place (R103, R108). -/
def State.postLines (s : State) (owner : Nat) (reserved : Bool) (a : Place) (write : Bool) (lines : List Nat) : State :=
  lines.foldl (fun s l => s.setOut owner reserved (s.homeWay 1 l write (s.homeHas l) a)) s

/-- A line written back from its home slice (R103, R105). -/
def State.postBack (s : State) (owner line : Nat) : State := s.setOut owner false (s.memoryWay 1 line true)

end Sys2Proof.Machine
end

