-- ==== Sys2Proof/Machine/Translate.lean ====
section
/-!
DEFINITION. Translation of virtual addresses (09_memory_hierarchy.md R231–R242): the walk, the caches of
translations, and the outcome of a translation for a kind of access.
-/

namespace Sys2Proof.Machine

/-- What a walk or a cached translation gives. -/
inductive LeafRes where
  /-- The leaf, log2 of its page size, and its address. -/
  | leaf (e size addr : Nat)
  /-- An entry on the walk has V 0. -/
  | invalid
  /-- The leaf is malformed (R238). -/
  | malformed
  deriving DecidableEq, Repr

/-- FRAME of an entry, as a 52-bit address. -/
def frameOf (e : Nat) : Nat := bits e 12 40 * 2 ^ 12

/-- A leaf breaks R238: `size` is log2 of its page. -/
def leafMalformed (m : PMode) (dev : Nat) (cxl : Bool) (e size : Nat) : Bool :=
  decide (frameOf e % 2 ^ size ≠ 0) || decide (2 ≤ bits e 54 2) || decide (bits e 53 1 = 1) ||
    decide (bits e 7 1 = 1) || decide (bits e 4 1 = 1) || !paExists m dev (frameOf e) ||
    (decide (bits e 52 1 = 1) && !cxl)

/-- The walk from a table at level `lvl` (3 at the top), with the table's PA and the fuel of its levels (R238). -/
def State.walkFrom (s : State) (m : PMode) (dev : Nat) (va : Nat) : Nat → Nat → Nat → LeafRes
  | 0, _, _ => .malformed
  | fuel + 1, lvl, table =>
    if !paExists .perDie 0 table then .malformed
    else
      let idx := if lvl = 3 then bits va 39 10 else bits va (12 + 9 * lvl) 9
      let addr := canonPa .perDie 0 (table + 8 * idx)
      let e := s.readNat addr 8
      if bits e 0 1 = 0 then .invalid
      else
        let isLeaf := decide (bits e 5 1 = 1)
        let s64 := decide (bits e 6 1 = 1)
        if lvl = 0 then
          if !isLeaf then .malformed
          else
            let size := if s64 then 16 else 12
            if leafMalformed m dev s.cxl e size then .malformed else .leaf e size addr
        else if isLeaf then
          if lvl = 3 || s64 then .malformed
          else
            let size := 12 + 9 * lvl
            if leafMalformed m dev s.cxl e size then .malformed else .leaf e size addr
        else s.walkFrom m dev va fuel (lvl - 1) (frameOf e)

/-- The walk of a function's tables for a virtual address below 2^49. -/
def State.walk (s : State) (vf dev va : Nat) : LeafRes :=
  s.walkFrom (s.pmode vf) dev va 4 3 (bits (s.root vf) 12 40 * 2 ^ 12)

/-- A cached translation covers an address. -/
def TlbEntry.covers (t : TlbEntry) (place vf va : Nat) : Bool :=
  decide (t.place = place ∧ t.vf = vf ∧ va / 2 ^ t.size = t.page / 2 ^ t.size)

/-- The translation that agents of a place use: the TLB of a core (`some c`), then the cache of its die, then the
walk (R239); agents of the hub walk. -/
def State.findLeaf (s : State) (core die : Option Nat) (vf dev va : Nat) : LeafRes :=
  let hit (place : Option Nat) : Option TlbEntry :=
    match place with
    | some p => s.tlb.find? (fun t => t.covers p vf va)
    | none => none
  match hit core with
  | some t => .leaf t.leaf t.size t.leafAddr
  | none =>
    match hit (die.map (256 + ·)) with
    | some t => .leaf t.leaf t.size t.leafAddr
    | none => s.walk vf dev va

/-- Addresses of the entries that the walk reads, in order (R238). -/
def State.walkReads (s : State) (va : Nat) : Nat → Nat → Nat → List Nat
  | 0, _, _ => []
  | fuel + 1, lvl, table =>
    if !paExists .perDie 0 table then []
    else
      let addr := canonPa .perDie 0 (table + 8 * (if lvl = 3 then bits va 39 10 else bits va (12 + 9 * lvl) 9))
      let e := s.readNat addr 8
      addr :: (if bits e 0 1 = 0 ∨ bits e 5 1 = 1 ∨ lvl = 0 then [] else s.walkReads va fuel (lvl - 1) (frameOf e))

/-- Lines of the entries that a translation has the walker read: none when a cache holds it (R239). -/
def State.entryLines (s : State) (core die : Option Nat) (vf va : Nat) : List Nat :=
  let held (place : Option Nat) : Bool := place.any (fun p => s.tlb.any (fun t => t.covers p vf va))
  if held core || held (die.map (256 + ·)) || decide (2 ^ 49 ≤ va) then []
  else ((s.walkReads va 4 3 (bits (s.root vf) 12 40 * 2 ^ 12)).map lineOf).eraseDups

/-- The same for every page of a range of bytes, by an agent of a die or of the hub. -/
def State.walkLines (s : State) (die : Option Nat) (vf va n : Nat) : List Nat :=
  ((List.range ((va % 4096 + n + 4095) / 4096)).flatMap (fun i =>
    s.entryLines none die vf (if i = 0 then va else (va / 4096 + i) * 4096))).eraseDups

/-- The partitions in which the blocks of a near-tier page lie (R234, R236). -/
def pagePartitions (m : PMode) (dev pa size : Nat) : List Nat :=
  let (d, y, _) := nearPlace m dev pa
  if size ≤ 12 ∨ m = .perDie then [4 * d + y] else (diesOf m dev).map (fun d => 4 * d + y)

/-- R236 leaves the page mapped. -/
def State.pageBound (s : State) (vf dev e size : Nat) : Bool :=
  match regionOf (frameOf e) with
  | some .near => (pagePartitions (s.pmode vf) dev (frameOf e) size).all (fun p => s.bound vf p)
  | some .far => s.bound vf (bits e 8 4)
  | _ => true

/-- Kinds of access (R238, R241). -/
inductive Access where
  | read | write | exec | peer
  deriving DecidableEq, Repr

/-- The outcome of a translation (R241). -/
inductive TrRes where
  /-- The physical address under the decode of the function, its canonical name, and the leaf. -/
  | ok (pa canon leaf leafAddr size : Nat)
  | fault
  | replay
  /-- The page is in migration, by the address of its leaf. -/
  | migrating (leaf : Nat)
  deriving DecidableEq, Repr

/-- The leaf lies in a page that a move holds (R256). -/
def Move.holds (m : Move) (leafAddr : Nat) : Bool :=
  decide (m.leaf ≤ leafAddr ∧ leafAddr < m.leaf + 8 * m.count)

/-- The outcome of a found leaf for an access at `va`. -/
def State.judge (s : State) (vf dev va : Nat) (k : Access) : LeafRes → TrRes
  | .invalid => if s.replay vf then .replay else .fault
  | .malformed => .fault
  | .leaf e size addr =>
    let pa := frameOf e + va % 2 ^ size
    let peer := decide (regionOf pa = some .peer)
    let allowed :=
      match k with
      | .read => decide (bits e 1 1 = 1) && !peer
      | .write => decide (bits e 2 1 = 1) && !peer
      | .exec => decide (bits e 3 1 = 1) && !peer
      | .peer => decide (bits e 2 1 = 1) && peer
    if !s.pageBound vf dev e size || !allowed || !paExists (s.pmode vf) dev pa then .fault
    else
      match s.moves.find? (fun m => m.holds addr) with
      | some m => .migrating m.leaf
      | none => .ok pa (canonPa (s.pmode vf) dev pa) e addr size

/-- Translation of an address below 2^49 by an agent of a core and die, or of the hub. -/
def State.translate (s : State) (core die : Option Nat) (vf dev va : Nat) (k : Access) : TrRes :=
  s.judge vf dev va k (s.findLeaf core die vf dev va)

/-- THRESH of MRCTL (R257). -/
def State.thresh (s : State) : Nat := bits (s.pfGet 0x114008) 0 8

/-- HEAT of a leaf raised by the count of a cached entry with one saturating update; a leaf whose HEAT reaches THRESH is
to be promoted (R255). -/
def State.addHeat (s : State) (t : TlbEntry) : State :=
  if t.count = 0 then s
  else
    let h := (Memory.get s.mem (t.leafAddr + 7)).toNat
    let h' := min 255 (h + t.count)
    { s with mem := Memory.set s.mem (t.leafAddr + 7) (BitVec.ofNat 8 h'),
             hot := if h < s.thresh ∧ s.thresh ≤ h' then s.hot ++ [(t.vf, t.leafAddr, t.size)] else s.hot }

/-- Capacity of the caches of a place (R239). -/
def tlbCapacity (place : Nat) : Nat := if place < 256 then 256 else 8192

/-- A translation kept by a place; the oldest one of a full cache leaves it, and the count of one that leaves a die's cache is
on its way to the leaf under place 512 + die (R239, R255; log entry 13). -/
def State.keepLeaf (s : State) (place vf va e size addr : Nat) : State :=
  if s.tlb.any (fun t => t.covers place vf va) then s
  else
    let mine := s.tlb.filter (fun t => t.place = place)
    let s :=
      if tlbCapacity place ≤ mine.length then
        match mine with
        | t :: _ =>
          { s with tlb := s.tlb.erase t ++ (if t.count = 0 then [] else [{ t with place := 512 + (place - 256) }]) }
        | [] => s
      else s
    { s with tlb := s.tlb ++ [({ place := place, vf := vf, page := va / 2 ^ size * 2 ^ size, size := size, leaf := e,
                                 leafAddr := addr, count := 0 } : TlbEntry)] }

/-- The translation of `n` accesses that was used: kept in the TLB of the core and the cache of the die, and they are counted
there for a far-tier leaf with MPOL 1 (R239, R255). -/
def State.usedBy (s : State) (core die : Option Nat) (vf va n e size addr : Nat) : State :=
  let keep (s : State) (p : Option Nat) : State :=
    match p with
    | some p => s.keepLeaf p vf va e size addr
    | none => s
  let s := keep (keep (s.noteHome (lineOf (frameOf e + va % 2 ^ size)) (bits e 8 4)) core) (die.map (256 + ·))
  if regionOf (frameOf e) = some .far ∧ bits e 54 2 = 1 then
    match die with
    | some d =>
      { s with tlb := s.tlb.map (fun t => if t.covers (256 + d) vf va then { t with count := t.count + n } else t) }
    | none => s
  else s

/-- One access by a lane or a fetch. -/
def State.used (s : State) (core die : Option Nat) (vf va e size addr : Nat) : State := s.usedBy core die vf va 1 e size addr

/-- A cached host line, or memory of the package: what is reached without COH is neither (R247, R288). -/
def cohLeaf (e pa : Nat) : Bool := decide (regionOf pa ≠ some .host) || decide (bits e 52 1 = 1)

end Sys2Proof.Machine
end

