-- ==== Sys2Proof/Machine/Access.lean ====
section
/-!
DEFINITION. Lane accesses: where an address leads and what stops it (09 R231, R241, R242, R250, R252, 10 R280,
17 R423), the lines that a window holds (10 R262–R266, R273–R277), and the shared effects of loads, stores and atomics.
-/

namespace Sys2Proof.Machine

/-- What an access needs to know of the group that makes it. -/
structure Ctx where
  vf : Nat
  dev : Nat
  core : Nat
  team : Nat
  /-- Bytes of the team's scratchpad (R250). -/
  bytes : Nat

def Ctx.die (c : Ctx) : Nat := c.core / 64

def State.ctx (s : State) (g : Group) : Ctx :=
  match s.team? g.team with
  | some t =>
    let l := s.launch? t.launch
    { vf := (l.map (·.vf)).getD 0, dev := (l.map (·.dev)).getD 0, core := g.core, team := g.team,
      bytes := 128 * t.kernel.scratch }
  | none => { vf := 0, dev := 0, core := g.core, team := g.team, bytes := 0 }

/-- A lane access that meets no cause. -/
structure Hit where
  lane : Nat
  space : Space
  addr : Nat
  /-- Host memory reached with COH 0, which is no event of the order (R260, R288). -/
  plain : Bool
  /-- VA, leaf, log2 of the page and address of the leaf. -/
  leaf : Option (Nat × Nat × Nat × Nat)

/-- Where the access of a lane leads. -/
inductive LaneTarget where
  | hit (h : Hit)
  /-- Through a window: its table slot and the byte in the block (R252). -/
  | win (lane slot off : Nat)
  | cause (lane : Nat) (c : Cause)
  /-- A replayable fault, with its VA (R241). -/
  | park (p : Parked) (va : Nat)
  /-- The opener of the window is saved (R253). -/
  | saved (team : Nat)

/-- A range locked against the access (R280). -/
def State.locked (s : State) (sp : Space) (a n : Nat) (write : Bool) : Bool :=
  s.locks.any (fun l => decide (l.space = sp ∧ l.lo < a + n ∧ a < l.hi) && (l.write || write))

/-- An access to the team's scratchpad (R250, R423). -/
def State.resolveScratch (s : State) (c : Ctx) (lane : Nat) (off : Int) (size : Nat) (write : Bool) : LaneTarget :=
  if off < 0 ∨ (c.bytes : Int) ≤ off then .cause lane .pageFault
  else
    let o := off.toNat
    if o % size ≠ 0 then .cause lane .misalignedData
    else if s.locked (.scratch c.team) o size write then .cause lane .rangeBusy
    else .hit { lane := lane, space := .scratch c.team, addr := o, plain := false, leaf := none }

/-- The function of a team. -/
def State.teamVf (s : State) (t : Nat) : Option Nat :=
  match s.team? t with
  | some x => (s.launch? x.launch).map (·.vf)
  | none => none

/-- The open entry that a handle names for a group of a core (R251, R252, R435). -/
def State.window? (s : State) (c : Ctx) (handle : Nat) : Option WinEntry :=
  let slot := 64 * (4 * (c.core / 4) + bits handle 14 2) + bits handle 8 6
  match s.wins.find? (fun w => w.slot = slot) with
  | some w =>
    (match w.openerTeam with
     | some t => if w.gen.toNat = bits handle 0 8 ∧ s.teamVf t = some c.vf ∧ handle < 2 ^ 16 then some w else none
     | none => none)
  | none => none

/-- An access through a window handle (R252, R253, R423). -/
def State.resolveWindow (s : State) (c : Ctx) (lane handle : Nat) (off : Int) (size : Nat) (write : Bool) :
    LaneTarget :=
  match s.window? c handle with
  | none => .cause lane .badHandle
  | some w =>
    let t := w.openerTeam.getD 0
    if off < 0 ∨ 128 ≤ off ∨ (w.sw = true ∧ write = true ∧ t ≠ c.team) then .cause lane .badHandle
    else if off.toNat % size ≠ 0 then .cause lane .misalignedData
    else if s.locked (.scratch t) (w.offset + off.toNat) size write then .cause lane .rangeBusy
    else
      match s.team? t with
      | some x => if x.state = .saved ∨ x.state = .saving then .saved t else .win lane w.slot off.toNat
      | none => .cause lane .badHandle

/-- An access to a virtual address (R231, R241): `aper` when the instruction reaches the apertures; `coh` when host
memory with COH 0 is refused (R434, R438). -/
def State.resolveVa (s : State) (c : Ctx) (lane : Nat) (va : DWord) (size : Nat) (k : Access) (aper coh : Bool) :
    LaneTarget :=
  let v := va.toNat
  let write := decide (k = .write)
  if 2 ^ 49 ≤ v then .cause lane .pageFault
  else if v % size ≠ 0 then .cause lane .misalignedData
  else if bits v 40 9 = 0x1FF then
    if !aper then .cause lane .pageFault
    else if bits v 19 21 = 0 then s.resolveScratch c lane (bits v 0 19) size write
    else if bits v 23 17 = 0x200 then s.resolveWindow c lane (bits v 7 16) (bits v 0 7) size write
    else .cause lane .pageFault
  else
    match s.translate (some c.core) (some c.die) c.vf c.dev v k with
    | .fault => .cause lane .pageFault
    | .replay => .park (.page (v / 4096)) v
    | .migrating leaf => .park (.move leaf) v
    | .ok pa canon e addr sz =>
      let plain := !cohLeaf e pa
      if plain && coh then .cause lane .pageFault
      else if s.locked .mem canon size write then .cause lane .rangeBusy
      else .hit { lane := lane, space := .mem, addr := canon, plain := plain, leaf := some (v, e, sz, addr) }

/-! ### Parking on replayable faults (R242, R243) -/

/-- A replayable fault of an agent: it joins the outstanding record of the page, or waits to be posted (R243). -/
def State.noteFault (s : State) (f : FaultRec) (a : FaultAgent) : State :=
  if s.faults.any (fun x => x.vf = f.vf ∧ x.page = f.page) then
    { s with faults := s.faults.map (fun x =>
        if x.vf = f.vf ∧ x.page = f.page ∧ !x.agents.contains a then { x with agents := x.agents ++ [a] } else x) }
  else { s with faults := s.faults ++ [{ f with agents := [a] }] }

/-- The window of the group rolls back and the group parks until each of the faults has been resumed (R242). -/
def State.parkGroup (s : State) (g : Group) (c : Ctx) (k : Access) (ps : List (Parked × Nat)) : State :=
  let s := s.rollback g.id false
  let s := s.modGroup g.id (fun x => { x with block := .fault, parkedOn := (ps.map (·.1)).eraseDups })
  ps.foldl (fun s p =>
    match p.1 with
    | .page n =>
      s.noteFault { vf := c.vf, page := n, va := p.2, write := decide (k = .write ∨ k = .peer),
                    exec := decide (k = .exec), eng := false, hub := false, core := c.core, tag := none,
                    agents := [] } (.group g.id)
    | _ => s) s

/-- What resolving the active lanes comes to: a trap (R242, R292), a block on a saved window, parking, or the
continuation. -/
def afterResolve (s : State) (g : Group) (c : Ctx) (k : Access) (dest : BitVec 8) (ts : List LaneTarget)
    (next : List Hit → List (Nat × Nat × Nat) → Done) : Done :=
  match laneTrap dest (ts.filterMap (fun t => match t with | .cause l c => some (l, c) | _ => none)) with
  | some t => .trap s t
  | none =>
    match ts.findSome? (fun t => match t with | .saved x => some x | _ => none) with
    | some t => .wait (.window t)
    | none =>
      match ts.filterMap (fun t => match t with | .park p va => some (p, va) | _ => none) with
      | [] =>
        next (ts.filterMap (fun t => match t with | .hit h => some h | _ => none))
          (ts.filterMap (fun t => match t with | .win l sl o => some (l, sl, o) | _ => none))
      | ps => .stay (s.parkGroup g c k ps)

/-! ### Bytes and lines of the spaces -/

def State.spaceCells (s : State) : Space → List Cell
  | .mem => s.mem
  | .scratch t => ((s.team? t).map (·.scratch)).getD []
  | .grid c => ((s.stores.find? (fun x => x.core = c)).map (·.cells)).getD []

/-- The bytes of a space after a change. -/
def State.setCells (s : State) (sp : Space) (f : List Cell → List Cell) : State :=
  match sp with
  | .mem => { s with mem := f s.mem }
  | .scratch t => s.modTeam t (fun x => { x with scratch := f x.scratch })
  | .grid c => { s with stores := s.stores.map (fun x => if x.core = c then { x with cells := f x.cells } else x) }

/-- A byte under a queued write. -/
def QWrite.overlay (q : QWrite) (sp : Space) (a : Nat) (b : Byte) : Byte :=
  if q.space = sp ∧ q.addr ≤ a ∧ a < q.addr + q.data.length then
    let i := a - q.addr
    let k := q.keep.getD i 0
    (q.data.getD i 0 &&& ~~~k) ||| (b &&& k)
  else b

/-- The bytes that a group reads: those of the space under the stores of its own window (R265). -/
def State.peek (s : State) (qs : List QWrite) (sp : Space) (a n : Nat) : Nat :=
  let m := s.spaceCells sp
  leNat ((List.range n).map (fun i => qs.foldl (fun b q => q.overlay sp (a + i) b) (Memory.get m (a + i))))

/-- Queued stores of the window of a group, oldest first. -/
def Group.queued (g : Group) : List QWrite :=
  match g.window with
  | some w => w.stores.flatten
  | none => []

/-- A queued write made. -/
def State.apply (s : State) (q : QWrite) : State :=
  s.setCells q.space (fun m =>
    (List.range q.data.length).foldl (fun m i =>
      Memory.set m (q.addr + i) (q.overlay q.space (q.addr + i) (Memory.get m (q.addr + i)))) m)

def Hit.key (h : Hit) : LineKey := { space := h.space, line := lineOf h.addr }

/-- The lines of some accesses that are events of the order. -/
def hitKeys (hs : List Hit) : List LineKey := ((hs.filter (fun h => !h.plain)).map Hit.key).eraseDups

/-- A line that the core of a group holds readable (R262). -/
def State.readable (s : State) (g : Group) (k : LineKey) : Bool :=
  match k.space with
  | .mem => s.caches.any (fun x => x.holder = g.core && x.line = k.line)
  | .scratch t =>
    (match s.team? t with
     | some x => !x.pair || decide (g.core = x.core + (if k.line < (x.kernel.scratch + 1) / 2 then 0 else 1))
     | none => true)
  | .grid c => decide (c = g.core)

/-- Windows of other groups that a request of a group for a line reaches and rolls back (R266): in memory, those
whose core owns the line, and for a write those of the same core. -/
def State.victims (s : State) (g : Group) (k : LineKey) (write : Bool) : List Group :=
  s.groups.filter (fun x =>
    match x.window with
    | some w =>
      decide (x.id ≠ g.id) && w.hit k write &&
        (k.space ≠ .mem || s.owns x.core k.line || (write && decide (x.core = g.core)))
    | none => false)

/-- A victim holds the line against the request (R273, R277). -/
def Group.holdsOff (x : Group) (k : LineKey) : Bool :=
  match x.window with
  | some w => w.atoms.contains k || x.anchors.contains k
  | none => false

/-- Another group asks for a line under an anchor, with an older ticket or against a group without one: its request for
the line comes first (R277, R278). -/
def State.anchorFirst (s : State) (g : Group) (k : LineKey) (write : Bool) : Bool :=
  s.groups.any (fun y =>
    write && decide (y.id ≠ g.id) && y.anchors.contains k &&
      (match y.ticket, g.ticket with
       | some t, some u => decide (t < u)
       | some _, none => true
       | none, _ => false))

/-- A request delayed on lines: the speculative atoms that hold them note since when (R273). -/
def State.noteDelay (s : State) (xs : List (Group × LineKey)) : State :=
  xs.foldl (fun s p => s.modGroup p.1.id (fun x => x.modWindow (fun w =>
    if w.atoms.contains p.2 then { w with delayedAt := some (w.delayedAt.getD s.cycle) } else w))) s

/-- Memory lines that are not in L1 yet. -/
def State.missing (s : State) (core : Nat) (ks : List LineKey) : List Nat :=
  (ks.filter (fun k => k.space = .mem && !s.caches.any (fun x => x.holder = core && x.line = k.line))).map (·.line)

/-- Lines that a core reads from below its L1: an owner elsewhere supplies them and keeps them shared (R248), and the host
gives up what it holds modified. -/
def State.supplied (s : State) (core : Nat) (lines : List Nat) : State :=
  if lines = [] then s
  else { s with caches := s.caches.map (fun c =>
    if lines.contains c.line ∧ c.holder ≠ core ∧ c.holder ≠ 256 + core / 16 then { c with st := .shared } else c) }

/-- The requests of an access for its lines: held off (on the left, with the delay noted), or the victims have rolled
back, and lines to read come from below L1 (R25, R248). -/
def State.request (s : State) (g : Group) (ks : List LineKey) (write : Bool) : State ⊕ State :=
  let vs := (ks.map (fun k => (s.victims g k write).map (fun x => (x, k)))).flatten
  let held := vs.filter (fun (x, k) => x.holdsOff k)
  if held ≠ [] then .inl (s.noteDelay held)
  else if ks.any (fun k => s.anchorFirst g k write) then .inl s
  else
    let ls := s.missing g.core ks
    let s1 := ((vs.map (·.1.id)).eraseDups.foldl (fun s i => s.rollback i true) s).eccRead ls
    .inr (if write then s1 else s1.supplied g.core ls)

/-! ### What keeps an access of a window from issuing (R264, R276, R277) -/

/-- What keeps an access from issuing: a narrowed window whose earlier accesses have not performed, or a missing anchor. -/
def State.accessWaits (s : State) (g : Group) (ks : List LineKey) : Option Block :=
  match g.window with
  | none => (match (if g.ticket.isSome then ks.find? (fun k => !g.anchors.contains k) else none) with
             | some k => some (.anchor k)
             | none => none)
  | some _ =>
    if g.narrowed = true ∧ 0 < s.unperformed g then some .none
    else
      match (if g.ticket.isSome then ks.find? (fun k => !g.anchors.contains k) else none) with
      | some k => some (.anchor k)
      | none => none

/-! ### Requests of agents that are not groups (R266, R273) -/

/-- A read of an agent of the package that is not a group: windows that have written a line roll back, and modified copies become shared. -/
def State.readBy (s : State) (lines : List Nat) : State :=
  let s := (s.eccRead lines).externalLines none (lines.map (fun l => { space := .mem, line := l })) false
  { s with caches := s.caches.map (fun c => if lines.contains c.line then { c with st := .shared } else c) }

/-- A request of such an agent is held off (R273, R277). -/
def State.heldOff (s : State) (lines : List Nat) (write : Bool) : Bool :=
  lines.any (fun l => s.delayed none { space := .mem, line := l } write)

/-- A request of such an agent delayed on lines: the speculative atoms that hold them note since when (R273). -/
def State.noteHeld (s : State) (lines : List Nat) : State :=
  s.noteDelay (lines.flatMap (fun l => (s.groups.filter (fun g =>
    g.window.any (fun w => w.atoms.contains { space := .mem, line := l }))).map (fun g => (g, { space := .mem, line := l }))))

/-- The group in a state. -/
def State.again (s : State) (g : Group) : Group := (s.group? g.id).getD g

/-- Lines of the page-table entries that some accesses of a group have the walker read (R238, R239). -/
def State.hitWalks (s : State) (g : Group) (hs : List Hit) : List Nat :=
  let c := s.ctx g
  (hs.flatMap (fun h => match h.leaf with
    | some (va, _, _, _) => s.entryLines (some c.core) (some c.die) c.vf va
    | none => [])).eraseDups

/-- The requests of an access outside a window, after the walker's reads (R258). -/
def State.requestHits (s : State) (g : Group) (hs : List Hit) (write : Bool) : State ⊕ State :=
  let ws := s.hitWalks g hs
  if s.heldOff ws false then .inl (s.noteHeld ws)
  else (if ws = [] then s else s.readBy ws).request g (hitKeys hs) write

/-- An access that passed its checks: it waits, or goes on with its requests made; the walker's reads of entries come first,
each an event of its own (R258). -/
def withLines (s : State) (g : Group) (hs : List Hit) (write : Bool) (next : State → Done) : Done :=
  let ks := hitKeys hs
  match s.accessWaits g ks with
  | some .none => .wait .retry
  | some bl => .stay (s.setGroup { g with block := bl })
  | none =>
    let ws := s.hitWalks g hs
    let s1 := if ws = [] then s else s.readBy ws
    if s.heldOff ws false then .waitIn (s.noteHeld ws) .retry
    else if s1.again g ≠ s.again g then .stay s1
    else
      match s1.request g ks write with
      | .inl s' => .waitIn s' .retry
      | .inr s' => next s'

/-- Translations of the accesses kept and counted (R239, R255). -/
def State.usedHits (s : State) (c : Ctx) (hs : List Hit) : State :=
  hs.foldl (fun s h =>
    match h.leaf with
    | some (va, e, size, addr) => s.used (some c.core) (some c.die) c.vf va e size addr
    | none => s) s

/-- The access of a poisoned line (R299). -/
def State.poisoned (s : State) (h : Hit) : Bool := h.space = .mem && s.poison.contains (lineOf h.addr)

/-- Values of the lanes that accessed something. -/
def laneVals (w : Nat) (vs : List (Nat × Nat)) : List Nat :=
  (List.range w).map (fun l => ((vs.find? (fun p => p.1 = l)).map (·.2)).getD 0)

/-- Pass-cycles of an access (R421). -/
def accessCycles (g : Group) (active : Mask) (bytes : Nat) : Nat :=
  max 4 (popLanes g.width active) * (if bytes = 8 then 2 else if bytes = 16 then 4 else 1)

/-- The window's record of lines read and of a queued store. -/
def Group.note (g : Group) (reads writes : List LineKey) (store : List QWrite) (host : Nat) : Group :=
  g.modWindow (fun w =>
    { w with reads := (w.reads ++ reads).eraseDups, writes := (w.writes ++ writes).eraseDups,
             stores := if store = [] then w.stores else w.stores ++ [store], hostStores := w.hostStores + host })

/-- A trap found while an effect was being made leaves the state before it. -/
def Done.undone (s : State) : Done → Done
  | .trap _ t => .trap s t
  | d => d

/-- A load that resolved: at issue without a window when every line is readable, inside the window otherwise (R262,
R265). `conv` turns the bytes read, as a number, into the value of a unit of `n` names. -/
def loadHits (s : State) (g : Group) (b : Bool) (c : Ctx) (d : RegName) (n bytes : Nat) (active : Mask)
    (uniform : Bool) (cycles : Nat) (conv : Nat → Nat) (hs : List Hit) : Done :=
  withLines s g hs false (fun s1 =>
    let g1 := s1.again g
    let ks := hitKeys hs
    let direct := g1.window.isNone && hs.all (fun h => !h.plain && s1.readable g1 h.key)
    let g2 := if direct then g1 else (g1.openWindow b).note ks [] [] 0
    let s2 := (s1.setGroup g2).usedHits c hs
    let vals := laneVals g.width (hs.map (fun h => (h.lane, conv (s2.peek g2.queued h.space h.addr bytes))))
    Done.undone s (pendRegs s2 g2 b (destOf d) .load (unitWrites g2 d n uniform vals (lowest g.width active)) active
      cycles (hs.any s2.poisoned) (!direct) (s2.missing g.core ks)))

/-- Ownership requests for the memory lines of a store that the core does not own and to which no grant is on its way to it
(R248): a line granted and lost again is asked for anew. -/
def State.requestOwn (s : State) (core : Nat) (ks : List LineKey) : State :=
  ks.foldl (fun s k =>
    if k.space = .mem && !s.owns core k.line && !s.own.any (fun o => o.core = core && o.line = k.line && !o.received) then
      { s with own := s.own ++ [{ core := core, line := k.line, granted := false, received := false, acks := 0 }] }
    else s) s

/-- A store that resolved: queued in the window (R264, R265). -/
def storeHits (s : State) (g : Group) (b : Bool) (c : Ctx) (cycles : Nat) (data : Hit → QWrite) (hs : List Hit) :
    Done :=
  withLines s g hs true (fun s1 =>
    let g1 := s1.again g
    let ks := hitKeys hs
    let g2 := (g1.openWindow b).note [] ks (hs.map data) (hs.filter (·.plain)).length
    .next (((s1.setGroup g2).usedHits c hs).requestOwn g.core ks) cycles)

/-- The lanes of an atomic in order: each reads what the ones before it wrote; a poisoned lane writes nothing (R431,
R434). -/
def atomLanes (s : State) (bytes : Nat) (f : Nat → Nat → Nat) : List QWrite → List Hit →
    List (Nat × Nat) × List QWrite
  | qs, [] => ([], qs)
  | qs, h :: hs =>
    let old := s.peek qs h.space h.addr bytes
    let q : QWrite := { space := h.space, addr := h.addr, data := toLe bytes (f h.lane old), keep := [] }
    let (vs, qs') := atomLanes s bytes f (if s.poisoned h then qs else qs ++ [q]) hs
    ((h.lane, old) :: vs, qs')

/-- A speculative atomic that resolved (R273, R431). -/
def atomHits (s : State) (g : Group) (b : Bool) (c : Ctx) (d : RegName) (bytes : Nat) (active : Mask)
    (f : Nat → Nat → Nat) (hs : List Hit) : Done :=
  withLines s g hs true (fun s1 =>
    let g1 := (s1.again g).openWindow b
    let ks := hitKeys hs
    let (vs, qs) := atomLanes s1 bytes f g1.queued hs
    let g2 := (g1.note ks ks (qs.drop g1.queued.length) 0).modWindow (fun w =>
      { w with atoms := (w.atoms ++ ks.filter (fun k => k.space = .mem)).eraseDups })
    let g2 := g2.modWindow (fun w => { w with atomOf := w.atomOf ++ [(w.stores.length - 1, s1.nextId)] })
    let s2 := ((s1.setGroup g2).usedHits c hs).requestOwn g.core ks
    pendRegs s2 g2 b (destOf d) .load (unitWrites g2 d (bytes / 4) false (laneVals g.width vs) 0) active
      (accessCycles g active bytes) (hs.any s2.poisoned) true [])

end Sys2Proof.Machine
end

