-- ==== Sys2Proof/Machine/Engine.lean ====
section
/-!
DEFINITION. Engine operations from issue to the lowering of their path counter (08 R227–R229, 09 R245, 10 R268,
R272, R279–R283).
-/

namespace Sys2Proof.Machine

/-- The group of an operation, while it is resident. -/
def State.opGroup (s : State) (o : EngineOp) : Option Group :=
  s.groups.find? (fun g => g.team = o.team && g.num = o.group)

/-- An operation reaches its engine (R229, R272); a `taskdec` goes on to the task table (R441). -/
def State.release (s : State) (vf : Nat) (o : EngineOp) : State :=
  let s := { s with ops := s.ops ++ [o] }
  match o.kind with
  | .taskdec =>
    { s with decs := s.decs ++ [{ vf := vf, k := (o.operands.getD 0 0).toNat, n := (o.operands.getD 1 0).toNat,
                                  op := some o.id }] }
  | _ => s

/-- Operations of a team that are queued, stopped or held with open windows (R305). -/
def State.teamWork (s : State) (team : Nat) : Nat :=
  (s.ops.filter (fun o => o.team = team)).length +
    ((s.teamGroups team).map (fun g => g.window.elim 0 (fun w => w.deferred.length))).sum

/-- An engine instruction that passed its checks, and does not exceed the limits of R227 and R305: its counter rises, and the operation is held with the open window
or released (R227, R272); `i` is the instruction, for WORD (R307). -/
def defer (s : State) (g : Group) (c : Ctx) (i : Instr) (kind : OpKind) (operands : List Word) (lanes : List (List Word))
    (cycles : Nat) : Done :=
  if 65535 ≤ g.pathCount.getD (pathIndex kind.path) 0 ∨ 256 ≤ s.teamWork g.team then .wait .retry
  else
    let (id, s) := s.fresh
    let launch := ((s.team? g.team).map (·.launch)).getD 0
    let o : EngineOp :=
      { id := id, launch := launch, team := g.team, group := g.num, core := g.core, kind := kind, word := (encode i).getD 0,
        operands := operands, lanes := lanes, progress := 0, state := .queued, leave := false, parkedOn := none }
    let g1 := g.pathUp kind.path
    match g1.window with
    | some w => .next (s.setGroup { g1 with window := some { w with deferred := w.deferred ++ [o] } }) cycles
    | none => .next ((s.setGroup g1).release c.vf o) cycles

/-- Slots that wait for a path counter and whose condition now holds go on (R370). -/
def Group.wakePaths (g : Group) : Group :=
  let wake (x : Slot) : Slot :=
    match x.wait with
    | .path p n =>
      if g.pathCount.getD (pathIndex p) 0 ≤ n ∨ g.pathFault.getD (pathIndex p) 0 ≠ 0 then { x with wait := .none }
      else x
    | _ => x
  { g with slotA := wake g.slotA, slotB := wake g.slotB }

/-- A completed operation leaves its engine: its locks go and its counter falls (R227, R282). -/
def State.finishOp (s : State) (o : EngineOp) : State :=
  let s := { s with ops := s.ops.filter (fun x => x.id ≠ o.id), locks := s.locks.filter (fun l => l.op ≠ o.id) }
  match s.opGroup o with
  | some g => s.setGroup (g.pathDown o.kind.path).wakePaths
  | none => s

/-- An operation that stops with a cause: as completed, and the cause becomes the pending fault of its counter when
there is none (R245, R299, R370, R474); a group that has ended makes its launch fail (R245). -/
def State.failOp (s : State) (o : EngineOp) (cause : Cause) : State :=
  match s.opGroup o with
  | some g =>
    let i := pathIndex o.kind.path
    let g1 := if g.pathFault.getD i 0 = 0 then { g with pathFault := g.pathFault.set i cause.code } else g
    (s.setGroup g1).finishOp o
  | none => (s.finishOp o).failLaunch o.launch cause.code.toNat o.group 0

/-- An operation parks on a replayable fault or on a page in migration, keeping its locks (R245, R256). -/
def State.parkOp (s : State) (o : EngineOp) (vf : Nat) (hub : Bool) (p : Parked) (va : Nat) (write : Bool) : State :=
  let s := s.setOp { o with state := .parked, parkedOn := some p }
  match p with
  | .page n =>
    s.noteFault { vf := vf, page := n, va := va, write := write, exec := false, eng := true, hub := hub,
                  core := if hub then 0 else o.core, tag := none, agents := [] } (.engine o.id)
  | _ => s

/-! ### The memory of an engine operation -/

/-- A range of virtual memory as pieces of canonical memory, or what stops it. -/
inductive RangeRes where
  /-- Pieces: canonical address, length, and whether each is host memory without COH. -/
  | ok (pieces : List (Nat × Nat × Bool))
  | fault
  | park (p : Parked) (va : Nat)
  deriving DecidableEq, Repr

/-- Translation of `n` bytes from `va`, page by page of 4 KiB (R231–R245); an aperture is a fault (R232). -/
def State.engineRange (s : State) (core die : Option Nat) (vf dev : Nat) (write : Bool) : Nat → Nat → Nat → RangeRes
  | 0, _, _ => .ok []
  | fuel + 1, va, n =>
    if n = 0 then .ok []
    else if 2 ^ 49 ≤ va ∨ bits va 40 9 = 0x1FF then .fault
    else
      let here := min n (4096 - va % 4096)
      match s.translate core die vf dev va (if write then .write else .read) with
      | .fault => .fault
      | .replay => .park (.page (va / 4096)) va
      | .migrating leaf => .park (.move leaf) va
      | .ok pa canon e _ _ =>
        match s.engineRange core die vf dev write fuel (va + here) (n - here) with
        | .ok ps => .ok ((canon, here, !cohLeaf e pa) :: ps)
        | x => x

/-- Pages that a range of bytes may touch, as fuel. -/
def rangeFuel (n : Nat) : Nat := n / 4096 + 2

/-- The range of an operation of a core. -/
def State.opRange (s : State) (core vf dev : Nat) (write : Bool) (va n : Nat) : RangeRes :=
  s.engineRange none (some (core / 64)) vf dev write (rangeFuel n) va n

/-- Bytes of the pieces of a range. -/
def State.readPieces (s : State) (ps : List (Nat × Nat × Bool)) : List Byte :=
  (ps.map (fun p => Memory.getBytes s.mem p.1 p.2.1)).flatten

/-- Lines of the pieces of a range. -/
def pieceLines (ps : List (Nat × Nat × Bool)) : List Nat :=
  (ps.map (fun p => (List.range ((p.1 % 128 + p.2.1 + 127) / 128)).map (fun i => lineOf p.1 + i))).flatten

/-- A poisoned line among the pieces (R299). -/
def State.poisonedPieces (s : State) (ps : List (Nat × Nat × Bool)) : Bool :=
  (pieceLines ps).any s.badLine

/-- Bytes written to the pieces of a range, in order; a line written whole loses its poison (R25). -/
def State.writePieces (s : State) (ps : List (Nat × Nat × Bool)) (bs : List Byte) : State :=
  (ps.foldl (fun (acc : State × List Byte) p =>
    let (s, bs) := acc
    let whole := (pieceLines [p]).filter (fun l => decide (p.1 ≤ 128 * l ∧ 128 * l + 128 ≤ p.1 + p.2.1))
    ({ s.cleanLines whole with mem := Memory.setBytes s.mem p.1 (bs.take p.2.1) }, bs.drop p.2.1)) (s, bs)).1

/-- The line of memory that a started WAITMEM watches (R75). -/
def State.watchedLine (s : State) (vf q : Nat) (r : SubRecord) : Option Nat :=
  if r.op = .waitmem ∧ r.started = true ∧ r.result = none ∧ r.checkAt = none then
    match s.translate none none vf (devOfQueue (s.pmode vf) q) r.addr .read with
    | .ok _ canon _ _ _ => some (lineOf canon)
    | _ => none
  else none

/-- A `waitc`, or a started WAITMEM, watches a line (R75, R438). -/
def State.watched (s : State) (line : Nat) : Bool :=
  let on (x : Slot) : Bool := match x.wait with
    | .monitor m armed _ _ _ => decide (m = line) && armed
    | _ => false
  s.groups.any (fun g => on g.slotA || on g.slotB) ||
    s.teams.any (fun t => t.savedGroups.any (fun g => on g.slotA || on g.slotB)) ||
    s.queues.any (fun x => x.records.any (fun r => s.watchedLine x.vf x.q r = some line))

/-- Where the monitor of a line is kept: its home slice, for a host line the remote-data cache slice of the row of a core, or
the hub (R140, R235, R438). -/
def State.monitorPlace (s : State) (core : Option Nat) (line : Nat) : Nat :=
  if s.homePart line = 16 then core.elim 256 (s.sliceFor · line) else 16 * s.homeOf line + s.sliceOf line

/-- Monitors in use at a place: those of `waitc`, resident or swapped out, of WAITMEM and of parked operations (R140). -/
def State.monitorsAt (s : State) (place : Nat) : Nat :=
  let of (g : Group) (x : Slot) : Nat := match x.wait with
    | .monitor m true _ _ _ => if s.monitorPlace (some g.core) m = place then 1 else 0
    | _ => 0
  let groups (gs : List Group) : Nat := (gs.map (fun g => of g g.slotA + of g g.slotB)).sum
  groups s.groups + (s.teams.map (fun t => groups t.savedGroups)).sum +
    (s.queues.map (fun x => (x.records.filter (fun r =>
      (s.watchedLine x.vf x.q r).any (fun l => decide (s.monitorPlace none l = place)))).length)).sum +
    (s.ops.filter (fun o => match o.parkedOn with
      | some (.pool h _ none) => decide (s.monitorPlace (some o.core) (lineOf h) = place)
      | _ => false)).length

/-- A slice has 256 monitors; the hub's are not counted (R140). -/
def State.monitorFree (s : State) (core : Option Nat) (line : Nat) : Bool :=
  let place := s.monitorPlace core line
  decide (place = 256) || decide (s.monitorsAt place < 256)

/-- The queues in monitor mode whose tail line is one of memory (R70). -/
def State.tailQueues (s : State) (line : Nat) : List Instr :=
  (s.queues.filter (fun x =>
    let r (o : Nat) : Nat := (lookup 0 s.vfq (x.vf * 2 ^ 20 + 0x40 * x.q + o)).toNat
    decide (bits (r 0x18) 30 1 = 1) &&
      (match s.translate none none x.vf (devOfQueue (s.pmode x.vf) x.q) (r 0x10 + 2 ^ 32 * r 0x14) .read with
       | .ok _ canon _ _ _ => decide (lineOf canon = line)
       | _ => false))).map (fun x => .tailLineInvalidate x.vf x.q)

/-- What a write to lines sets off: monitors on them, operations parked on a pool whose header lies there when it changed LIMIT,
and queues whose tail does (R70, R159, R438). -/
def State.announce (s : State) (lines : List Nat) : State :=
  let pools := (s.ops.filterMap (fun o => match o.parkedOn with
    | some (.pool h limit none) => if lines.contains (lineOf h) ∧ s.readNat (h + 4) 4 ≠ limit then some h else none
    | _ => none)).eraseDups.filter (fun h => !s.agenda.contains (.poolLimitWake h))
  { s with agenda := s.agenda ++ (lines.eraseDups.filter s.watched).map .monitorWake ++ pools.map .poolLimitWake ++
      lines.eraseDups.flatMap s.tailQueues }

/-- Writes of an agent of the package that is not a group: every cached copy goes, windows that hold a line roll
back, and monitors on it are told (R266, R279, R438). `who` is the group whose own window is left alone. -/
def State.wrote (s : State) (who : Option Nat) (lines : List Nat) : State :=
  let s := s.externalLines who (lines.map (fun l => { space := .mem, line := l })) true
  { s with caches := s.caches.filter (fun c => !lines.contains c.line) }.announce lines

/-! ### Accesses of an operation outside its locked ranges -/

/-- Function and device of an operation. -/
def State.opVf (s : State) (o : EngineOp) : Nat := ((s.launch? o.launch).map (·.vf)).getD 0
def State.opDev (s : State) (o : EngineOp) : Nat := ((s.launch? o.launch).map (·.dev)).getD 0

/-- Translations of a range used by a die for a function: kept, and the lines of each page counted as accesses (R239, R255; log
entry 13). -/
def State.rangeUsed (s : State) (die vf dev va n : Nat) : State :=
  (List.range ((va % 4096 + n + 4095) / 4096)).foldl (fun s i =>
    let a := if i = 0 then va else (va / 4096 + i) * 4096
    let here := min (va + n) (a / 4096 * 4096 + 4096) - a
    match s.findLeaf none (some die) vf dev a with
    | .leaf e size addr => s.usedBy none (some die) vf a ((a % 128 + here + 127) / 128) e size addr
    | _ => s) s

/-- What an access is for. -/
inductive Touch where
  | read | write
  /-- A read and a write in one event. -/
  | update
  deriving DecidableEq, Repr

def Touch.writes (k : Touch) : Bool := k ≠ .read

/-- What some accesses of an operation come to. -/
inductive OpRes (α : Type) where
  | ok (s : State) (x : α)
  | stops (s : State) (c : Cause)
  | parks (p : Parked) (va : Nat) (write : Bool)
  /-- Held off on these lines by a window or a lock: nothing was done. -/
  | later (lines : List Nat)

/-- Accesses followed by others. -/
def OpRes.bind {α β : Type} (r : OpRes α) (f : State → α → OpRes β) : OpRes β :=
  match r with
  | .ok s x => f s x
  | .stops s c => .stops s c
  | .parks p va w => .parks p va w
  | .later ls => .later ls

/-- An access of an operation to a range: the pieces, with the walker's reads made, the translation used and the traffic of the
lines on its way, and for a read the lines read; or what stops it, parks it or holds it off (R103, R245, R258, R273, R281, R299). -/
def State.opTouch (s : State) (o : EngineOp) (k : Touch) (va n : Nat) : OpRes (List (Nat × Nat × Bool)) :=
  let die := o.core / 64
  let vf := s.opVf o
  let dev := s.opDev o
  match s.opRange o.core vf dev k.writes va n with
  | .fault => .stops s .pageFault
  | .park p v => .parks p v k.writes
  | .ok ps =>
    let ws := s.walkLines (some die) vf va n
    let ls := pieceLines ps
    if s.heldOff ws false then .later ws
    else if s.heldOff ls k.writes || ps.any (fun p => s.locked .mem p.1 p.2.1 k.writes) then .later ls
    else if k ≠ .write && s.poisonedPieces ps then .stops s .eccUncorrectable
    else
      let s1 := (((if ws = [] then s else s.readBy ws).rangeUsed die vf dev va n).postLines vf false (corePlace o.core) k.writes ls)
      .ok (match k with | .read => s1.readBy ls | .write => s1 | .update => s1.eccRead ls) ps

end Sys2Proof.Machine
end

