-- ==== Sys2Proof/Machine/LoadStore.lean ====
section
/-!
DEFINITION. The loads, stores and atomics, opcodes 0xA0 to 0xAC (17_isa_memory_sync.md R420–R434).
-/

namespace Sys2Proof.Machine

/-- Which address form an instruction takes (R423). -/
inductive Form where
  /-- A virtual address in the pair a; whether apertures are reached. -/
  | va (aper : Bool)
  | scratch
  | window
  deriving DecidableEq, Repr

/-- Names of the address operand. -/
def Form.names : Form → Nat
  | .va _ => 2
  | _ => 1

/-- Where the access of a lane leads (R423): `coh` refuses host memory with COH 0. -/
def laneTarget (s : State) (c : Ctx) (g : Group) (f : Form) (a : RegName) (off : BitVec 6) (size : Nat) (k : Access)
    (coh : Bool) (l : Nat) : LaneTarget :=
  match f with
  | .va aper => s.resolveVa c l (g.pair a l + BitVec.ofInt 64 (off.toInt * size)) size k aper coh
  | .scratch => s.resolveScratch c l ((g.word a l).toNat + off.toInt * size) size (decide (k = .write))
  | .window =>
    s.resolveWindow c l ((g.word a l).toNat / 2 ^ 16) (((g.word a l).toNat % 2 ^ 16 : Nat) + off.toInt * size) size
      (decide (k = .write))

/-- The messages of a window access, one for each window entry, in the order of their first lanes (R252). -/
def messagesOf (s : State) (g : Group) (prod : Option Nat) (kind : MsgKind) (size : Nat) (data : Nat → Nat × Nat)
    (ws : List (Nat × Nat × Nat)) : List ActiveMsg :=
  (ws.map (fun w => w.2.1)).eraseDups.map (fun slot =>
    let e := s.wins.find? (fun x => x.slot = slot)
    { target := slot / 64, slot := slot, group := g.id, prod := prod,
      team := (e.bind (·.openerTeam)).getD 0, base := (e.map (·.offset)).getD 0, kind := kind, size := size,
      lanes := (ws.filter (fun w => w.2.1 = slot)).map (fun w =>
        { lane := w.1, off := w.2.2, v := (data w.1).1, sv := (data w.1).2 }) })

/-- Messages sent: the group issues nothing further until they have executed (R271). -/
def State.send (s : State) (gid : Nat) (ms : List ActiveMsg) : State :=
  ({ s with msgs := s.msgs ++ ms }).modGroup gid (fun g => { g with block := .message })

/-- A load whose lanes lead to windows, with what other lanes read at once. -/
def loadMessages (s : State) (g : Group) (b : Bool) (c : Ctx) (d : RegName) (n bytes : Nat) (active : Mask)
    (kind : MsgKind) (conv : Nat → Nat) (data : Nat → Nat × Nat) (hs : List Hit) (ws : List (Nat × Nat × Nat)) : Done :=
  if g.window.isSome then .wait .retry
  else
    match s.requestHits g hs false with
    | .inl s1 => .waitIn s1 .retry
    | .inr s1 =>
      let vals := laneVals g.width (hs.map (fun h => (h.lane, conv (s1.peek [] h.space h.addr bytes))))
      let id := s1.nextId
      match pendRegs (s1.usedHits c hs) g b (destOf d) .load (unitWrites g d n false vals 0) active
          (accessCycles g active bytes) (hs.any s1.poisoned) false [] with
      | .next s2 n => .next (s2.send g.id (messagesOf s g (some id) kind bytes data ws)) n
      | x => Done.undone s x

/-- The value of a unit from the bytes read (R424). -/
def loadConv (bytes : Nat) (sx : Bool) (x : Nat) : Nat :=
  if sx && decide (bytes = 1) then encInt 32 (intOf true 8 x) else x

/-- The effect of a lane load (R425). -/
def loadEffect (f : Form) (d a : RegName) (n bytes : Nat) (off : BitVec 6) (sx : Bool) (s : State) (g : Group)
    (b : Bool) (active : Mask) : Done :=
  let c := s.ctx g
  afterResolve s g c .read (destOf d)
    ((lanesOf g.width active).map (laneTarget s c g f a off bytes .read false))
    (fun hs ws =>
      if ws = [] then loadHits s g b c d n bytes active false (accessCycles g active bytes) (loadConv bytes sx) hs
      else loadMessages s g b c d n bytes active (.load sx) (loadConv bytes sx) (fun _ => (0, 0)) hs ws)

/-- The issue of a lane load. -/
def loadOp (f : Form) (d a : RegName) (n bytes : Nat) (off : BitVec 6) (sx ta : Bool) (g : Group) : Op :=
  wordOp (srcSpan a f.names ta) (spanNames d n) (g.spanOk d n n && g.spanOk a f.names f.names) (g.generalSpan d n)
    (destOf d) (loadEffect f d a n bytes off sx)

/-- The effect of a lane store (R425). -/
def storeEffect (f : Form) (d a : RegName) (n bytes : Nat) (off : BitVec 6) (s : State) (g : Group) (b : Bool)
    (active : Mask) : Done :=
  let c := s.ctx g
  let value (l : Nat) : Nat := g.unit d n l
  afterResolve s g c .write 0xFF
    ((lanesOf g.width active).map (laneTarget s c g f a off bytes .write false))
    (fun hs ws =>
      let data (h : Hit) : QWrite := { space := h.space, addr := h.addr, data := toLe bytes (value h.lane), keep := [] }
      let cycles := accessCycles g active bytes
      if ws = [] then storeHits s g b c cycles data hs
      else if g.window.isSome then .wait .retry
      else
        let sent (s : State) : State := s.send g.id (messagesOf s g none .store bytes (fun l => (value l, 0)) ws)
        if hs = [] then .next (sent s) cycles
        else
          match storeHits s g b c cycles data hs with
          | .next s' n => .next (sent s') n
          | x => x)

/-- The issue of a lane store. -/
def storeOp (f : Form) (d a : RegName) (n bytes : Nat) (off : BitVec 6) (ta k : Bool) (g : Group) : Op :=
  wordOp (srcSpan d n k ++ srcSpan a f.names ta) [] (g.spanOk d n n && g.spanOk a f.names f.names) true 0xFF
    (storeEffect f d a n bytes off)

/-- LD (R425, R426). -/
def execLd (d a : RegName) (sz : AccSize) (off : BitVec 6) (ta : Bool) : State → Host.Outcome State Fault Refusal :=
  issue (loadOp (.va true) d a sz.names sz.bytes off false ta)

/-- ST (R425, R426). -/
def execSt (d a : RegName) (sz : AccSize) (off : BitVec 6) (ta k : Bool) : State → Host.Outcome State Fault Refusal :=
  issue (storeOp (.va true) d a sz.names sz.bytes off ta k)

/-- LDB (R424, R425). -/
def execLdb (d a : RegName) (sx : Bool) (off : BitVec 6) (ta : Bool) : State → Host.Outcome State Fault Refusal :=
  issue (loadOp (.va true) d a 1 1 off sx ta)

/-- STB (R424, R425). -/
def execStb (d a : RegName) (off : BitVec 6) (ta k : Bool) : State → Host.Outcome State Fault Refusal :=
  issue (storeOp (.va true) d a 1 1 off ta k)

/-- LDS (R423, R425). -/
def execLds (d a : RegName) (sz : AccSize) (off : BitVec 6) (ta : Bool) : State → Host.Outcome State Fault Refusal :=
  issue (loadOp .scratch d a sz.names sz.bytes off false ta)

/-- STS (R423, R425). -/
def execSts (d a : RegName) (sz : AccSize) (off : BitVec 6) (ta k : Bool) : State → Host.Outcome State Fault Refusal :=
  issue (storeOp .scratch d a sz.names sz.bytes off ta k)

/-- LDW (R252, R425). -/
def execLdw (d a : RegName) (sz : AccSize) (off : BitVec 6) (ta : Bool) : State → Host.Outcome State Fault Refusal :=
  issue (loadOp .window d a sz.names sz.bytes off false ta)

/-- STW (R252, R425). -/
def execStw (d a : RegName) (sz : AccSize) (off : BitVec 6) (ta k : Bool) : State → Host.Outcome State Fault Refusal :=
  issue (storeOp .window d a sz.names sz.bytes off ta k)

/-! ### Atomics (R429–R434) -/

/-- Names of the result of an atomic, and names read at d: twice as many for `cas` (R429, R430). -/
def atomNames (w64 : Bool) : Nat := if w64 then 2 else 1
def atomSpan (op : AtomOp) (w64 : Bool) : Nat := if op = .cas then 2 * atomNames w64 else atomNames w64

/-- Operand v and swap value s of a lane (R429, R430). -/
def atomOperands (g : Group) (d : RegName) (op : AtomOp) (w64 : Bool) (l : Nat) : Nat × Nat :=
  let n := atomNames w64
  (g.unit d n l, if op = .cas then g.unit (d + BitVec.ofNat 7 n) n l else 0)

/-- The state after a home-performed atomic was sent: the slot goes on in a new window whose checkpoint lies after the
atomic (R433). -/
def State.newWindow (s : State) (gid : Nat) (b : Bool) : State :=
  (s.advance gid b .none).modGroup gid (fun g => (({ g with lastB := b }).boundary).openWindow b)

/-- A home-performed `atom` or `red` that resolved (R432, R433), after the walker's reads (R258). -/
def homeHits (s : State) (g : Group) (b : Bool) (c : Ctx) (result : Bool) (d : RegName) (op : AtomOp) (w64 : Bool)
    (active : Mask) (hs : List Hit) : Done :=
  let ws := s.hitWalks g hs
  if s.heldOff ws false then .waitIn (s.noteHeld ws) .retry else
  let s := if ws = [] then s else s.readBy ws
  let id := s.nextId
  let cycles := accessCycles g active (4 * atomNames w64)
  let lanes := hs.map (fun h =>
    let (v, sv) := atomOperands g d op w64 h.lane
    (h.lane, h.addr, v, sv))
  let sent (s : State) (prod : Option Nat) : State :=
    let h : HomeAtomic := { group := g.id, producer := prod, op := op, w64 := w64, lanes := lanes }
    let s := { s with homeAtoms := s.homeAtoms ++ [h] }
    (s.modGroup g.id (fun x => { x with homeOut := x.homeOut + lanes.length })).newWindow g.id b
  let s1 := s.usedHits c hs
  if result then
    match pendRegs s1 g b (destOf d) .homeAtom (unitWrites g d (atomNames w64) false (laneVals g.width []) 0) active
        cycles false false [] with
    | .next s2 n => .jump (sent s2 (some id)) n
    | x => Done.undone s x
  else .jump (sent s1 none) cycles

/-- ATOM (R429–R434). -/
def execAtom (d a : RegName) (home : Bool) (op : AtomOp) (ta w64 : Bool) : State → Host.Outcome State Fault Refusal :=
  issue (fun g =>
    let n := atomNames w64
    let m := atomSpan op w64
    let bytes := 4 * n
    { wordOp (srcSpan d m false ++ srcSpan a 2 ta) (spanNames d n) (g.spanOk d m m && g.spanOk a 2 2)
        (g.generalSpan d n) (destOf d) (fun s g b active =>
          let c := s.ctx g
          afterResolve s g c .write (destOf d)
            ((lanesOf g.width active).map (laneTarget s c g (.va false) a 0 bytes .write true))
            (fun hs _ =>
              if home then homeHits s g b c true d op w64 active hs
              else atomHits s g b c d bytes active
                (fun l old => atomNew op w64 old (atomOperands g d op w64 l).1 (atomOperands g d op w64 l).2) hs))
      with settles := home })

/-- RED (R429, R433, R434). -/
def execRed (d a : RegName) (op : AtomOp) (ta w64 : Bool) : State → Host.Outcome State Fault Refusal :=
  issue (fun g =>
    let n := atomNames w64
    { wordOp (srcSpan d n false ++ srcSpan a 2 ta) [] (g.spanOk d n n && g.spanOk a 2 2) true 0xFF
        (fun s g b active =>
          let c := s.ctx g
          afterResolve s g c .write 0xFF
            ((lanesOf g.width active).map (laneTarget s c g (.va false) a 0 (4 * n) .write true))
            (fun hs _ => homeHits s g b c false d op w64 active hs)) with settles := true })

/-- ATOMS (R429–R432): on the team's scratchpad, or through a window. -/
def execAtoms (d a : RegName) (win : Bool) (op : AtomOp) (ta w64 : Bool) : State → Host.Outcome State Fault Refusal :=
  issue (fun g =>
    let n := atomNames w64
    let m := atomSpan op w64
    let bytes := 4 * n
    wordOp (srcSpan d m false ++ [(a, ta)]) (spanNames d n) (g.spanOk d m m && g.spanOk a 1 1) (g.generalSpan d n)
      (destOf d) (fun s g b active =>
        let c := s.ctx g
        let f : Form := if win then .window else .scratch
        afterResolve s g c .write (destOf d)
          ((lanesOf g.width active).map (laneTarget s c g f a 0 bytes .write false))
          (fun hs ws =>
            if ws = [] then
              atomHits s g b c d bytes active
                (fun l old => atomNew op w64 old (atomOperands g d op w64 l).1 (atomOperands g d op w64 l).2) hs
            else loadMessages s g b c d n bytes active (.atom op) id (atomOperands g d op w64) hs ws)))

/-! ### `ldone` (R427) -/

/-- A cause of one access belongs to every active lane (R423). -/
def everyLane (g : Group) (active : Mask) (t : LaneTarget) : List LaneTarget :=
  match t with
  | .cause _ c => (lanesOf g.width active).map (fun l => .cause l c)
  | x => [x]

/-- LDONE (R427). -/
def execLdone (d a : RegName) (sz : AccSize) (off : BitVec 6) (ta : Bool) : State → Host.Outcome State Fault Refusal :=
  issue (fun g =>
    let n := sz.names
    wordOp (srcSpan a 2 ta) (spanNames d n) (g.spanOk d n n && g.spanOk a 2 2) true (destOf d) (fun s g b active =>
      if !g.uniformSpan a 2 then .trap s (slotTrap g b .shape (destOf d))
      else
        let c := s.ctx g
        afterResolve s g c .read (destOf d)
          (everyLane g active
            (laneTarget s c g (.va false) a off sz.bytes .read false (lowest g.width active)))
          (fun hs _ =>
            loadHits s g b c d n sz.bytes active true
              (if sz.bytes = 8 then 2 else if sz.bytes = 16 then 4 else 1) id hs)))

end Sys2Proof.Machine
end

