-- ==== Sys2Proof/Machine/Sync.lean ====
section
/-!
DEFINITION. Scratchpad windows, fences, monitors, ticket booths and task decrements, opcodes 0xAD, 0xAE and 0xC0 to
0xC5 (17_isa_memory_sync.md R435–R441, 10 R285, R286).
-/

namespace Sys2Proof.Machine

/-- Operands that must be uniform, as a suppressing trap of the whole instruction (R422). -/
def needUniform (s : State) (g : Group) (b : Bool) (dest : BitVec 8) (spans : List (RegName × Nat)) (k : Done) : Done :=
  if spans.all (fun p => g.uniformSpan p.1 p.2) then k else .trap s (slotTrap g b .shape dest)

/-- The core that holds a scratchpad offset of a team (R226). -/
def Team.coreOf (t : Team) (off : Nat) : Nat :=
  if t.pair ∧ 128 * ((t.kernel.scratch + 1) / 2) ≤ off then t.core + 1 else t.core

/-- The lowest free entry of the window table of a core, with its generation (R251). -/
def State.freeWindow (s : State) (core : Nat) : Option (Nat × BitVec 8) :=
  (List.range 64).findSome? (fun e =>
    match s.wins.find? (fun w => w.slot = 64 * core + e) with
    | some w => if w.openerTeam.isSome then none else some (e, w.gen)
    | none => some (e, 0))

/-- An entry of a window table written. -/
def State.setWindow (s : State) (w : WinEntry) : State :=
  { s with wins := s.wins.filter (fun x => x.slot ≠ w.slot) ++ [w] }

/-- The effect of `wopen` (R251, R435). -/
def wopenEffect (d a : RegName) (sw : Bool) (s : State) (g : Group) (b : Bool) (active : Mask) : Done :=
  let c := s.ctx g
  let off := (g.word a (lowest g.width active)).toNat
  if off % 128 ≠ 0 ∨ c.bytes ≤ off then
    .trap s { cause := .badHandle, lanes := active, dest := destOf d, flags := 0 }
  else
    let core := ((s.team? g.team).map (fun t => t.coreOf off)).getD g.core
    match s.freeWindow core with
    | none => writeRegs s g b (destOf d) [(d, .uniform 0xFFFFFFFF)] active 1
    | some (e, gen) =>
      let h : Word := BitVec.ofNat 32 (core % 4 * 2 ^ 14 + e * 2 ^ 8 + gen.toNat)
      let w : WinEntry := { slot := 64 * core + e, openerTeam := some g.team, offset := off, sw := sw, gen := gen }
      match writeRegs s g b (destOf d) [(d, .uniform h)] active 1 with
      | .next s' n => .next (s'.setWindow w) n
      | x => x

/-- WOPEN (R435). -/
def execWopen (d a : RegName) (sw ta : Bool) : State → Host.Outcome State Fault Refusal :=
  issue (fun g => { wordOp [(a, ta)] [d] (g.spanOk d 1 1 && g.spanOk a 1 1) true (destOf d) (fun s g b active =>
    needUniform s g b (destOf d) [(a, 1)] (wopenEffect d a sw s g b active)) with settles := true })

/-- WCLOSE (R251, R436): it waits for the accesses sent under the handle. -/
def execWclose (a : RegName) (ta : Bool) : State → Host.Outcome State Fault Refusal :=
  issue (fun g => { wordOp [(a, ta)] [] (g.spanOk a 1 1) true 0xFF (fun s g b active =>
    needUniform s g b 0xFF [(a, 1)]
      (match s.window? (s.ctx g) (g.word a (lowest g.width active)).toNat with
       | some w =>
         if w.openerTeam ≠ some g.team then .trap s { cause := .badHandle, lanes := active, dest := 0xFF, flags := 0 }
         else if s.msgs.any (fun m => m.slot = w.slot) then .wait .retry
         else .next (s.setWindow { w with openerTeam := none, gen := w.gen + 1 }) 1
       | none => .trap s { cause := .badHandle, lanes := active, dest := 0xFF, flags := 0 })) with settles := true })

/-- The scope as which a fence is executed under a presentation mode (R285). -/
def fenceScope (m : PMode) (sc : Scope) : Scope :=
  match m, sc with
  | .unified, .package => .device
  | .unified, .pair => .die
  | .paired, .pair | .paired, .package => .device
  | .perDie, .die | .perDie, .pair | .perDie, .package => .device
  | _, x => x

/-- The work that a fence of an executed scope waits for is done (R286). -/
def Group.fenceMet (g : Group) (sc : Scope) : Bool :=
  match sc with
  | .fabric => decide (g.xstOut = 0 ∧ g.hostOut = 0 ∧ g.presents = 0)
  | .device | .package => decide (g.hostOut = 0 ∧ g.presents = 0)
  | _ => true

/-- A fence whose wait has ended lets the group go on. -/
def Group.endFence (g : Group) : Group :=
  match g.block with
  | .fence sc => if g.fenceMet sc then { g with block := .none } else g
  | _ => g

/-- FENCE (R285, R286, R437). -/
def execFence (scope : Scope) : State → Host.Outcome State Fault Refusal :=
  issue (fun _ => slotOp [] [] true true (fun s g _ _ =>
    let sc := fenceScope (s.pmode (s.ctx g).vf) scope
    .next (s.setGroup ({ g with block := .fence sc }).endFence) 1))

/-- WAITC (R438): one read; a word equal to b blocks the slot at the `waitc` until a write to the line. -/
def execWaitc (a b : RegName) (ta tb : Bool) : State → Host.Outcome State Fault Refusal :=
  issue (fun g => { wordOp (srcSpan a 2 ta ++ [(b, tb)]) [] (g.spanOk a 2 2 && g.spanOk b 1 1) true 0xFF
    (fun s g sl active =>
      needUniform s g sl 0xFF [(a, 2), (b, 1)]
        (let c := s.ctx g
         let l0 := lowest g.width active
         afterResolve s g c .read 0xFF (everyLane g active (laneTarget s c g (.va false) a 0 4 .read true l0))
           (fun hs _ =>
             match hs with
             | [] => .next s 1
             | h :: _ =>
               match s.requestHits g hs false with
               | .inl s1 => .waitIn s1 .retry
               | .inr s1 =>
                 let s2 := s1.usedHits c hs
                 if s2.peek [] h.space h.addr 4 ≠ (g.word b l0).toNat then .next s2 1
                 else .waitIn s2 (.monitor (lineOf h.addr) (s2.monitorFree (some g.core) (lineOf h.addr)) h.addr
                   (g.word b l0).toNat s2.cycle))))
    with settles := true })

/-! ### Ticket booths (R439, R440) -/

/-- The package booth of a handle, when it is valid (R439). -/
def State.boothOf (s : State) (vf : Nat) (h : Word) : Option Nat :=
  let r := s.boothallot vf
  if h.toNat < 16 * bits r 0 9 then some (16 * bits r 16 8 + h.toNat) else none

def State.booth (s : State) (k : Nat) : Booth :=
  (s.booths.find? (fun b => b.k = k)).getD { k := k, next := 0, serving := 0 }

/-- A booth written; one with both counters 0 is not listed. -/
def State.setBooth (s : State) (b : Booth) : State :=
  let others := s.booths.filter (fun x => x.k ≠ b.k)
  { s with booths := if b.next = 0 ∧ b.serving = 0 then others else others ++ [b] }

/-- Slots that wait on something matching go on; a saved team with such a slot waits for placement again (R139). -/
def State.wakeWhere (s : State) (p : Wait → Bool) : State :=
  let wake (x : Slot) : Slot := if p x.wait then { x with wait := .none } else x
  let up (g : Group) : Group := { g with slotA := wake g.slotA, slotB := wake g.slotB }
  { s with
    groups := s.groups.map up
    teams := s.teams.map (fun t =>
      if t.savedGroups.any (fun g => p g.slotA.wait || p g.slotB.wait) then
        { t with savedGroups := t.savedGroups.map up }.rejoins s.cycle
      else t) }

/-- A booth instruction on the handle in a (R440). -/
def boothOp (a : RegName) (ta : Bool) (srcs : List (RegName × Bool)) (ds : List RegName) (regs : Bool)
    (uniform : List (RegName × Nat)) (dest : BitVec 8)
    (k : State → Group → Bool → Mask → Booth → Done) (g : Group) : Op :=
  { wordOp ((a, ta) :: srcs) ds (g.spanOk a 1 1 && regs) true dest (fun s g b active =>
      needUniform s g b dest ((a, 1) :: uniform)
        (match s.boothOf (s.ctx g).vf (g.word a (lowest g.width active)) with
         | some n => k s g b active (s.booth n)
         | none => .trap s { cause := .badHandle, lanes := active, dest := dest, flags := 0 }))
    with settles := true }

/-- TICKET (R440). -/
def execTicket (d a : RegName) (ta : Bool) : State → Host.Outcome State Fault Refusal :=
  issue (fun g => boothOp a ta [] [d] (g.spanOk d 1 1) [] (destOf d) (fun s g b active x =>
    match writeRegs s g b (destOf d) [(d, .uniform x.next)] active 1 with
    | .next s' n => .next (s'.setBooth { x with next := x.next + 1 }) n
    | y => y) g)

/-- SERVE (R440). -/
def execServe (a : RegName) (ta : Bool) : State → Host.Outcome State Fault Refusal :=
  issue (boothOp a ta [] [] true [] 0xFF (fun s _ _ _ x =>
    .next ((s.setBooth { x with serving := x.serving + 1 }).wakeWhere (fun w => w = .booth x.k)) 1))

/-- WAITT (R440). -/
def execWaitt (a b : RegName) (ta tb : Bool) : State → Host.Outcome State Fault Refusal :=
  issue (fun g => boothOp a ta [(b, tb)] [] (g.spanOk b 1 1) [(b, 1)] 0xFF (fun s g _ active x =>
    if (x.serving - g.word b (lowest g.width active)).toNat < 2 ^ 31 then .next s 1 else .wait (.booth x.k)) g)

/-- TASKDEC (R441). -/
def execTaskdec (a : RegName) (n : BitVec 8) (ta : Bool) : State → Host.Outcome State Fault Refusal :=
  issue (fun g => wordOp [(a, ta)] [] (g.spanOk a 1 1) true 0xFF (fun s g b active =>
    needUniform s g b 0xFF [(a, 1)]
      (let c := s.ctx g
       let k := g.word a (lowest g.width active)
       if s.taskCount c.vf ≤ k.toNat then .trap s { cause := .badHandle, lanes := active, dest := 0xFF, flags := 0 }
       else defer s g c (.taskdec a n ta) .taskdec [k, n.setWidth 32] [] 1)))

end Sys2Proof.Machine
end

