-- ==== Sys2Proof/Machine/Matrix.lean ====
section
/-!
DEFINITION. The matrix and copy instructions, opcodes 0xD0 to 0xD8 (18_isa_matrix_copy.md R443–R467).
-/

namespace Sys2Proof.Machine

/-! ### Descriptors (R347) -/

/-- An instruction that reads `n` uniform descriptor names from a: SHAPE when one is not uniform (R347). -/
def descOp (a : RegName) (n align : Nat) (ta settles guarded : Bool)
    (k : State → Group → Bool → Mask → List Word → Done) (g : Group) : Op :=
  { slotOp (srcSpan a n ta) [] (g.spanOk a n align) settles (fun s g b mask =>
      if !g.uniformSpan a n then .trap s (slotTrap g b .shape 0xFF)
      else k s g b mask (g.descriptor a n)) with guarded := guarded }

/-- BAD_HANDLE on a descriptor: a suppressing trap of the whole instruction (R293, R347). -/
def badDescriptor (s : State) (g : Group) (b : Bool) : Done := .trap s (slotTrap g b .badHandle 0xFF)

/-- Word `i` of a descriptor, as a number, and the 64-bit value of two words. -/
def dw (ws : List Word) (i : Nat) : Nat := (ws.getD i 0).toNat
def dq (ws : List Word) (i : Nat) : Nat := dw ws i + 2 ^ 32 * dw ws (i + 1)

/-! ### Tile configuration (R446) -/

/-- The tile configuration as a number: the window's when it has written one (R460). -/
def Group.tiles (g : Group) : Nat :=
  match g.window with
  | some w => (w.shadowCfg.getD g.tileCfg).toNat
  | none => g.tileCfg.toNat

/-- MCFG (R446, R460). -/
def execMcfg (a : RegName) (ta : Bool) : State → Host.Outcome State Fault Refusal :=
  issue (descOp a 3 1 ta false true (fun s g b _ ws =>
    if bits (dw ws 0) 12 20 ≠ 0 then badDescriptor s g b
    else
      let cfg : BitVec 96 := ws.getD 2 0 ++ ws.getD 1 0 ++ ws.getD 0 0
      .next (s.setGroup (match g.window with
        | some w => { g with window := some { w with shadowCfg := some cfg } }
        | none => { g with tileCfg := cfg })) 1))

/-! ### Multiplication (R447–R453) -/

/-- Element bytes and K positions of a block; none for a reserved format code (R449). -/
def fmtElem (c : Nat) : Option Nat := if c ≤ 7 then some 1 else if c ≤ 9 then some 2 else none
def fmtBlock (c : Nat) : Nat := if c ≤ 7 then 32 else 16
/-- Codes with scales (R449). -/
def fmtScaled (c : Nat) : Bool := decide (5 ≤ c ∧ c ≤ 7)

/-- The captured operands of a multiplication: descriptor words, then the configuration (R283, R459). -/
structure MmaArgs where
  aaddr : Nat
  baddr : Nat
  asp : Bool
  bsp : Bool
  k : Nat
  tile : Nat
  afmt : Nat
  bfmt : Nat
  spa : Nat
  spb : Nat
  sa : Nat
  sb : Nat
  m : Nat
  n : Nat
  alay : Bool
  blay : Bool
  lda : Nat
  ldb : Nat

/-- The fields of R446 and R448. -/
def mmaArgs (ws : List Word) : MmaArgs :=
  let ctl := dw ws 4
  let fmt := dw ws 5
  let cfg := dw ws 10
  { aaddr := dq ws 0, baddr := dq ws 2, asp := decide (bits ctl 22 1 = 1), bsp := decide (bits ctl 23 1 = 1),
    k := bits ctl 6 16, tile := bits ctl 0 6, afmt := bits fmt 0 4, bfmt := bits fmt 4 4, spa := bits fmt 8 12,
    spb := bits fmt 20 12, sa := dq ws 6, sb := dq ws 8, m := bits cfg 0 5 + 1, n := bits cfg 5 5 + 1,
    alay := decide (bits cfg 10 1 = 1), blay := decide (bits cfg 11 1 = 1), lda := dw ws 11, ldb := dw ws 12 }

/-- Offset of an operand element: `i` along rows of A (columns of B), `k` along K (R447). -/
def elemOff (layout : Bool) (pitch e i k : Nat) : Nat := if layout then k * pitch + i * e else i * pitch + k * e

/-- Bytes from the lowest to one past the highest byte of an operand with `r` rows. -/
def operandSpan (layout : Bool) (pitch e r k : Nat) : Nat := elemOff layout pitch e (r - 1) (k - 1) + e

/-- The descriptor breaks R450. -/
def mmaBad (x : MmaArgs) (ctl : Nat) (loop : Bool) (acc bytes : Nat) : Bool :=
  match fmtElem x.afmt, fmtElem x.bfmt with
  | some e, some f =>
    e ≠ f || decide (bits ctl 24 8 ≠ 0) || decide (x.k = 0) || (!loop && decide (fmtBlock x.afmt < x.k)) ||
      decide (acc ≤ x.tile) || decide (x.aaddr % e ≠ 0) || decide (x.baddr % e ≠ 0) || decide (x.lda % e ≠ 0) ||
      decide (x.ldb % e ≠ 0) ||
      (x.asp && (decide (2 ^ 32 ≤ x.aaddr) || decide (bytes < x.aaddr + operandSpan x.alay x.lda e x.m x.k))) ||
      (x.bsp && (decide (2 ^ 32 ≤ x.baddr) || decide (bytes < x.baddr + operandSpan x.blay x.ldb e x.n x.k)))
  | _, _ => true

/-- The kernel of a group's team. -/
def State.accOf (s : State) (g : Group) : Nat := ((s.team? g.team).map (·.kernel.acc)).getD 0
def State.copyqOf (s : State) (g : Group) : Nat := ((s.team? g.team).map (·.kernel.copyq)).getD 0

/-- The issue of `mma` and `mloop` (R450, R451). -/
def mmaOp (i : Instr) (a : RegName) (ta loop : Bool) (kind : OpKind) : Group → Op :=
  descOp a 10 1 ta false false (fun s g b _ ws =>
    let c := s.ctx g
    let all := ws ++ wordsOf 3 g.tiles
    if mmaBad (mmaArgs all) (dw ws 4) loop (s.accOf g) c.bytes then badDescriptor s g b
    else defer s g c i kind all [] 1)

/-- MMA (R451, R452). -/
def execMma (a : RegName) (ta : Bool) : State → Host.Outcome State Fault Refusal := issue (mmaOp (.mma a ta) a ta false .mma)

/-- MLOOP (R451). -/
def execMloop (a : RegName) (ta : Bool) : State → Host.Outcome State Fault Refusal := issue (mmaOp (.mloop a ta) a ta true .mloop)

/-! ### Moving accumulators (R454–R461) -/

/-- A word of a tile of a team (R443). -/
def Team.accWord (t : Team) (tile word : Nat) : Word := lookup 0 t.acc (1024 * tile + word)

/-- Words of a tile written, keeping the rest; +0 words are not listed. -/
def Team.setAcc (t : Team) (tile : Nat) (ws : List (Nat × Word)) : Team :=
  { t with acc := ws.foldl (fun m p => assign 0 m (1024 * tile + p.1) p.2) t.acc }

/-- The shadow of a tile in the open window of a group (R460). -/
def Group.shadow (g : Group) (tile : Nat) : Option (List (Nat × Word)) :=
  match g.window with
  | some w => (w.shadowTiles.find? (fun p => p.1 = tile)).map (·.2)
  | none => none

/-- An operation names a tile. -/
def EngineOp.namesTile (o : EngineOp) (tile : Nat) : Bool :=
  (o.kind = .mma || o.kind = .mloop) && bits (dw o.operands 4) 0 6 = tile

/-- A deferred multiplication of the open window names a tile (R460). -/
def Group.deferredOn (g : Group) (tile : Nat) : Bool :=
  match g.window with
  | some w => w.deferred.any (fun o => o.namesTile tile)
  | none => false

/-- The tiles that an accumulator operation names. -/
def TileOp.tiles (t : TileOp) : List Nat :=
  t.tile :: (match t.work with | .convert src _ _ => [src] | _ => [])

/-- An accumulator operation of the group on a tile does not apply at its arrival: one that arrived before on the tile, or an
earlier one of the group, has not been applied (R444), or the window of another group shadows the tile (R461). -/
def State.tileBusy (s : State) (g : Group) (tile : Nat) : Bool :=
  s.ops.any (fun o => decide (o.team = g.team) && o.namesTile tile) ||
    s.tileOps.any (fun t => decide (t.team = g.team) && (t.tiles.contains tile || decide (t.group = g.id))) ||
    s.groups.any (fun x => decide (x.team = g.team ∧ x.id ≠ g.id) && (x.shadow tile).isSome)

/-- An accumulator operation arrives and waits at its engine (R444, R461). -/
def State.tileArrives (s : State) (g : Group) (tile : Nat) (work : TileWork) : State :=
  let (id, s) := s.fresh
  let t : TileOp := { id := id, team := g.team, group := g.id, tile := tile, work := work, after := [] }
  let before := (s.ops.filter (fun o => decide (o.team = g.team) && t.tiles.any o.namesTile)).map (·.id)
  { s with tileOps := s.tileOps ++ [{ t with after := before }] }

/-- An `mrd` behind deferred multiplications of the window arrives when the window commits, and they before it (R460). -/
def Group.lateRead (g : Group) (id tile : Nat) (work : TileWork) : Group :=
  g.modWindow (fun w => { w with lateReads := w.lateReads ++
    [{ id := id, team := g.team, group := g.id, tile := tile, work := work,
       after := (w.deferred.filter (fun o => o.namesTile tile)).map (·.id) }] })

/-- A word of a tile as the group reads it: of its shadow, or of the tile. -/
def State.tileWord (s : State) (g : Group) (tile word : Nat) : Word :=
  match g.shadow tile with
  | some m => lookup 0 m word
  | none => ((s.team? g.team).map (fun t => t.accWord tile word)).getD 0

/-- The group stalls until its window commits (R264). -/
def State.stall (s : State) (g : Group) : Done :=
  .waitIn (s.setGroup (g.modWindow (fun w => { w with stalled := true }))) .retry

/-- Words of a tile written by a group: into the shadow of its window, taking one if need be, or into the tile, where the write
may wait at the engine (R444, R461). The group is blocked while the shadow cannot be taken, and at a window limit it stalls
until the window commits (R264, R460). -/
def State.writeTile (s : State) (g : Group) (tile : Nat) (ws : List (Nat × Word)) (cycles : Nat) : Done :=
  let put (m : List (Nat × Word)) : List (Nat × Word) := ws.foldl (fun m p => assign 0 m p.1 p.2) m
  match g.window with
  | none =>
    .next (if s.tileBusy g tile then s.tileArrives g tile (.write ws) else s.modTeam g.team (fun t => t.setAcc tile ws))
      cycles
  | some w =>
    if g.deferredOn tile then s.stall g
    else
      match g.shadow tile with
      | some _ =>
        .next (s.setGroup { g with window := some { w with
          shadowTiles := w.shadowTiles.map (fun p => if p.1 = tile then (p.1, put p.2) else p) } }) cycles
      | none =>
        if 2 ≤ w.shadowTiles.length then s.stall g
        else if s.tileBusy g tile then .wait .retry
        else
          let old := (List.range 1024).foldl (fun m i => assign 0 m i (s.tileWord g tile i)) []
          .next (s.setGroup { g with window := some { w with shadowTiles := w.shadowTiles ++ [(tile, put old)] } }) cycles

/-- The word of a fragment that belongs to a lane: tile word for the first name, and for the second at width 16
(R455). -/
def fragmentWord (width row lane i : Nat) : Nat :=
  if width = 64 then 32 * (row + lane / 32) + lane % 32 else 32 * row + 16 * i + lane

/-- Names of a fragment (R455). -/
def fragmentNames (g : Group) : Nat := if g.width = 16 then 2 else 1

/-- A tile or row number that breaks R443 or R455: BAD_HANDLE in the active lanes. -/
def badTile (s : State) (active : Mask) (dest : BitVec 8) : Done :=
  .trap s { cause := .badHandle, lanes := active, dest := dest, flags := 0 }

/-- The row is out of range for the width (R455). -/
def badRow (g : Group) (r : Nat) : Bool := decide (32 ≤ r) || (decide (g.width = 64) && decide (r % 2 = 1))

/-- The effect of `mrd` (R455, R460): the words are those of the tile at its arrival, which comes after the commit when a
deferred multiplication of the window names the tile. -/
def mrdEffect (d a rb : RegName) (s : State) (g : Group) (b : Bool) (active : Mask) : Done :=
  let tile := (g.word a 0).toNat
  let r := (g.word rb 0).toNat
  let n := fragmentNames g
  if s.accOf g ≤ tile ∨ badRow g r = true then badTile s active (destOf d)
  else
    let ws := (List.range n).map (fun i =>
      (d + BitVec.ofNat 7 i, RegVal.ofLanes g.width (fun l => s.tileWord g tile (fragmentWord g.width r l i))))
    match pendRegs s g b (destOf d) .mrd ws active (max 4 (popLanes g.width active) * n) false g.window.isSome [] with
    | .next s1 k =>
      let work : TileWork := .read s.nextId ((lanesOf g.width active).map (fun l =>
        (l, (List.range n).map (fragmentWord g.width r l))))
      if g.deferredOn tile then
        let (id, s2) := s1.fresh
        .next (s2.modGroup g.id (fun x => x.lateRead id tile work)) k
      else if (g.shadow tile).isNone && s.tileBusy g tile then .next (s1.tileArrives g tile work) k
      else .next s1 k
    | x => x

/-- MRD (R455). -/
def execMrd (d a b : RegName) (ta tb : Bool) : State → Host.Outcome State Fault Refusal :=
  issue (fun g =>
    let n := fragmentNames g
    wordOp [(a, ta), (b, tb)] (spanNames d n) (g.spanOk d n n && g.spanOk a 1 1 && g.spanOk b 1 1)
      (g.generalSpan d n) (destOf d) (fun s g sl active =>
        needUniform s g sl (destOf d) [(a, 1), (b, 1)] (mrdEffect d a b s g sl active)))

/-- MWR (R456). -/
def execMwr (d a b : RegName) (ta tb k : Bool) : State → Host.Outcome State Fault Refusal :=
  issue (fun g =>
    let n := fragmentNames g
    wordOp (srcSpan d n k ++ [(a, ta), (b, tb)]) [] (g.spanOk d n n && g.spanOk a 1 1 && g.spanOk b 1 1) true 0xFF
      (fun s g sl active =>
        needUniform s g sl 0xFF [(a, 1), (b, 1)]
          (let tile := (g.word a 0).toNat
           let r := (g.word b 0).toNat
           if s.accOf g ≤ tile ∨ badRow g r = true then badTile s active 0xFF
           else
             let ws := ((List.range n).map (fun i => (lanesOf g.width active).map (fun l =>
               (fragmentWord g.width r l i, g.word (d + BitVec.ofNat 7 i) l)))).flatten
             s.writeTile g tile ws (max 4 (popLanes g.width active) * n))))

/-- MCLR (R457). -/
def execMclr (a : RegName) (ta : Bool) : State → Host.Outcome State Fault Refusal :=
  issue (fun g => wordOp [(a, ta)] [] (g.spanOk a 1 1) true 0xFF (fun s g sl active =>
    needUniform s g sl 0xFF [(a, 1)]
      (let tile := (g.word a 0).toNat
       if s.accOf g ≤ tile then badTile s active 0xFF
       else s.writeTile g tile ((List.range 1024).map (fun i => (i, 0))) 1)))

/-- An element of a converted tile (R458): rounding and saturation of MODE, no flushing, no stochastic rounding. -/
def tileElem (mode : Word) (t : TileType) (x : Nat) : Nat :=
  match t with
  | .fp32 => (match FFmt.fp32.val x with | .nan _ => FFmt.fp32.nan | _ => x)
  | _ => (eCvt (mode &&& 0xFFFF3FFF#32) .fp32 t.type none x).1

/-- The words of a converted tile (R458). -/
def tileConvert (mode : Word) (t : TileType) (src : Nat → Word) : List (Nat × Word) :=
  let n := elemCount t.type
  ((List.range 32).map (fun i => (List.range 32).map (fun q =>
    (32 * i + q,
     if q < 32 / n then
       BitVec.ofNat 32 (unitOf (elemBits t.type)
         ((List.range n).map (fun e => tileElem mode t (src (32 * i + n * q + e)).toNat)))
     else 0)))).flatten

/-- MCVT (R458, R460). -/
def execMcvt (d a : RegName) (target : TileType) (ta : Bool) : State → Host.Outcome State Fault Refusal :=
  issue (fun g => wordOp [(d, false), (a, ta)] [] (g.spanOk d 1 1 && g.spanOk a 1 1) true 0xFF (fun s g sl active =>
    needUniform s g sl 0xFF [(d, 1), (a, 1)]
      (let dst := (g.word d 0).toNat
       let src := (g.word a 0).toNat
       let acc := s.accOf g
       if acc ≤ dst ∨ acc ≤ src then badTile s active 0xFF
       else if g.deferredOn src then s.stall g
       else if g.window.isSome && (g.shadow src).isNone && s.tileBusy g src then .wait .retry
       else if g.window.isNone && (s.tileBusy g src || s.tileBusy g dst) then
         .next (s.tileArrives g dst (.convert src target g.mode)) 1
       else s.writeTile g dst (tileConvert g.mode target (s.tileWord g src)) 1)))

/-! ### Copies (R462–R467) -/

/-- The captured operands of a copy, both forms in one (R462, R465). -/
structure CopyArgs where
  src : Nat
  dst : Nat
  ssp : Bool
  dsp : Bool
  rowBytes : Nat
  rows : Nat
  spitch : Nat
  dpitch : Nat
  notify : Bool
  ntask : Nat

/-- The fields of R462. -/
def copyArgs (two : Bool) (ws : List Word) : CopyArgs :=
  let ctl := dw ws (if two then 8 else 5)
  { src := dq ws 0, dst := dq ws 2, ssp := decide (bits ctl 17 1 = 1), dsp := decide (bits ctl 18 1 = 1),
    rowBytes := dw ws 4, rows := if two then dw ws 5 else 1, spitch := if two then dw ws 6 else 0,
    dpitch := if two then dw ws 7 else 0, notify := decide (bits ctl 16 1 = 1), ntask := bits ctl 0 16 }

/-- Bytes from the first to one past the last byte of a side. -/
def copySpan (x : CopyArgs) (pitch : Nat) : Nat := if x.rowBytes = 0 then 0 else (x.rows - 1) * pitch + x.rowBytes

/-- The descriptor breaks R463. -/
def copyBad (x : CopyArgs) (two : Bool) (ctl tasks bytes copyq : Nat) : Bool :=
  decide (bits ctl 19 13 ≠ 0) || decide (copyq = 0) ||
    decide (x.src % 4 ≠ 0) || decide (x.dst % 4 ≠ 0) || decide (x.rowBytes % 4 ≠ 0) ||
    decide (x.spitch % 4 ≠ 0) || decide (x.dpitch % 4 ≠ 0) ||
    (two && (decide (x.rowBytes < 4) || decide (1048576 < x.rowBytes) || decide (x.rows < 1) ||
      decide (65535 < x.rows) || (decide (1 < x.rows) && decide (x.dpitch < x.rowBytes)) ||
      decide (0xFFFFFFFC < x.rowBytes * x.rows))) ||
    (x.ssp && (decide (2 ^ 32 ≤ x.src) || decide (copySpan x x.spitch ≠ 0 ∧ bytes < x.src + copySpan x x.spitch))) ||
    (x.dsp && (decide (2 ^ 32 ≤ x.dst) || decide (copySpan x x.dpitch ≠ 0 ∧ bytes < x.dst + copySpan x x.dpitch))) ||
    (x.notify && decide (tasks ≤ x.ntask))

/-- The issue of `copy` and `copyt`: a group holds at most COPYQ of them (R463, R464). -/
def copyOp (i : Instr) (a : RegName) (ta two : Bool) (n : Nat) (kind : OpKind) : Group → Op :=
  descOp a n 1 ta false false (fun s g b _ ws =>
    let c := s.ctx g
    let q := s.copyqOf g
    if copyBad (copyArgs two ws) two (dw ws (n - 1)) (s.taskCount c.vf) c.bytes q then badDescriptor s g b
    else if q ≤ g.pathCount.getD 0 0 then .wait .retry
    else defer s g c i kind ws [] 1)

/-- COPY (R462–R465). -/
def execCopy (a : RegName) (ta : Bool) : State → Host.Outcome State Fault Refusal := issue (copyOp (.copy a ta) a ta false 6 .copy)

/-- COPYT (R462–R465). -/
def execCopyt (a : RegName) (ta : Bool) : State → Host.Outcome State Fault Refusal := issue (copyOp (.copyt a ta) a ta true 9 .copyt)

end Sys2Proof.Machine
end

