-- ==== Sys2Proof/Machine/Frames.lean ====
section
/-!
DEFINITION. Frames, buckets and the bucket distributors (06 R147–R152, R169, R172, R174, R177, R178, 05 R134–R137).
-/

namespace Sys2Proof.Machine

/-! ### The frame descriptor (R149) -/

def fdW (d : Nat) : Nat := bits d 0 14 + 1
def fdH (d : Nat) : Nat := bits d 14 14 + 1
/-- BS. -/
def fdBs (d : Nat) : Nat := 16 * 2 ^ bits d 28 2
/-- log4 of the samples per pixel, and S. -/
def fdM (d : Nat) : Nat := bits d 30 3
def fdS (d : Nat) : Nat := 4 ^ fdM d
def fdMargin (d : Nat) : Nat := bits d 33 2
def fdRate (d : Nat) : Nat := bits d 48 16
def fdFx (d : Nat) : Nat := bits d 64 32
def fdFy (d : Nat) : Nat := bits d 96 32
def fdCx (d : Nat) : Nat := bits d 128 32
def fdCy (d : Nat) : Nat := bits d 160 32
def fdNear (d : Nat) : Nat := bits d 192 32
def fdFocus (d : Nat) : Nat := bits d 224 32
def fdCoc (d : Nat) : Nat := bits d 256 32
def fdBinHdr (d : Nat) : Nat := bits d 288 42 * 128
def fdBinDir (d : Nat) : Nat := bits d 330 42 * 128
def fdSpillHdr (d : Nat) : Nat := bits d 372 42 * 128
def fdSpillBase (d : Nat) : Nat := bits d 414 33 * 65536
def fdNbx (d : Nat) : Nat := (fdW d + fdBs d - 1) / fdBs d
def fdNby (d : Nat) : Nat := (fdH d + fdBs d - 1) / fdBs d
/-- RW: side of the sample region (R181). -/
def fdRw (d : Nat) : Nat := fdBs d + 2 * fdMargin d
/-- Lines of the sample buffer (R181). -/
def fdSampleLines (d : Nat) : Nat := (fdRw d * fdRw d * fdS d + 7) / 8

/-- An FP16 shading rate from 0.5 to 2.0. -/
def rateOk (r : Nat) : Bool := decide (0x3800 ≤ r ∧ r ≤ 0x4000)

/-- An FP32 code above 0 and finite. -/
def f32pos (c : Nat) : Bool := f32finite c && f32lt 0 c

/-- The descriptor is valid (R149, R150). -/
def fdValid (d : Nat) : Bool :=
  decide (bits d 447 65 = 0 ∧ bits d 35 13 = 0 ∧ bits d 33 2 ≠ 3 ∧ bits d 30 3 ≤ 4 ∧ bits d 28 2 ≠ 3) &&
    rateOk (fdRate d) && f32pos (fdFx d) && f32pos (fdFy d) && f32finite (fdCx d) && f32finite (fdCy d) &&
    f32pos (fdNear d) && f32pos (fdFocus d) && f32finite (fdCoc d) && !f32lt (fdCoc d) 0 &&
    decide (fdSampleLines d ≤ 8192)

/-! ### Morton order (R147) -/

/-- The buckets of a square of side 2^k at (x, y) that lie in the frame, in ascending Morton code. -/
def mortonFrom (nbx nby : Nat) : Nat → Nat → Nat → List (Nat × Nat)
  | 0, x, y => if x < nbx ∧ y < nby then [(x, y)] else []
  | k + 1, x, y =>
    if nbx ≤ x ∨ nby ≤ y then []
    else
      let h := 2 ^ k
      mortonFrom nbx nby k x y ++ mortonFrom nbx nby k (x + h) y ++ mortonFrom nbx nby k x (y + h) ++
        mortonFrom nbx nby k (x + h) (y + h)

/-- The buckets of a frame by Morton index. -/
def fdBuckets (d : Nat) : List (Nat × Nat) := mortonFrom (fdNbx d) (fdNby d) 10 0 0

/-- N. -/
def fdCount (d : Nat) : Nat := fdNbx d * fdNby d

/-! ### Frame slots -/

/-- A frame slot that is not FREE. -/
def State.frame? (s : State) (vf dev h : Nat) : Option Frame :=
  s.frames.find? (fun f => f.vf = vf && f.dev = dev && f.h = h)

def State.setFrame (s : State) (f : Frame) : State :=
  { s with frames := s.frames.map (fun x => if x.vf = f.vf ∧ x.dev = f.dev ∧ x.h = f.h then f else x) }

def State.dropFrame (s : State) (f : Frame) : State :=
  { s with frames := s.frames.filter (fun x => !(x.vf = f.vf && x.dev = f.dev && x.h = f.h)) }

/-- The lowest FREE slot of a device (R150). -/
def State.freeFrame (s : State) (vf dev : Nat) : Option Nat :=
  (List.range 4).find? (fun h => (s.frame? vf dev h).isNone)

/-- The store that a team works on: it owns a bucket, and no `resolve` of it has started (R175, R189). -/
def State.ownedStore (s : State) (team : Nat) : Option Store :=
  s.stores.find? (fun x => x.team = team && x.resolving.isNone)

def State.setStore (s : State) (x : Store) : State :=
  { s with stores := s.stores.map (fun y => if y.core = x.core then x else y) }

/-- The frame of a store. -/
def State.storeFrame (s : State) (x : Store) : Option Frame := s.frame? x.vf x.dev x.h

/-! ### Deques (R134–R136) -/

def Frame.deque (f : Frame) (die : Nat) : Deque :=
  (f.deques.find? (fun q => q.die = die)).getD
    { die := die, buckets := [], known := [], excluded := [], steal := none, stolen := none, asks := [] }

def Frame.setDeque (f : Frame) (q : Deque) : Frame :=
  { f with deques := f.deques.map (fun x => if x.die = q.die then q else x) }

/-- The die from which a distributor asks to steal: the greatest known count, the lowest die among equals, no
excluded die; none when every such count is 0 (R136). -/
def Deque.victim (q : Deque) : Option Nat :=
  let cs := q.known.filter (fun p => !q.excluded.contains p.1 && decide (0 < p.2))
  (cs.foldl (fun (best : Option (Nat × Nat)) p =>
    match best with
    | none => some p
    | some b => if b.2 < p.2 ∨ (b.2 = p.2 ∧ p.1 < b.1) then some p else some b) none).map (·.1)

/-- A steal request, when the deque is empty and none is outstanding (R136). -/
def Deque.ask (q : Deque) : Deque := if q.buckets = [] ∧ q.steal.isNone then { q with steal := q.victim } else q

/-- Claims that wait at a deque. -/
def Deque.claims (q : Deque) : List (Nat × Bool) :=
  q.asks.filterMap (fun a => match a with | .claim g b => some (g, b) | .steal _ => none)

/-- A deque written; a steal request that it sends reaches its victim (R136). -/
def Frame.askFor (f : Frame) (q : Deque) : Frame :=
  let q1 := q.ask
  let f1 := f.setDeque q1
  match q.steal, q1.steal with
  | none, some v => f1.setDeque { f1.deque v with asks := (f1.deque v).asks ++ [.steal q.die] }
  | _, _ => f1

/-- A deque with changed contents: its count goes to the other distributors, and it may ask for a steal (R136). -/
def Frame.putDeque (f : Frame) (q : Deque) : Frame :=
  let f1 := f.askFor q
  { f1 with counts := f1.counts ++ (f.deques.filter (fun x => x.die ≠ q.die)).map (fun x =>
      ({ src := q.die, dst := x.die, count := q.buckets.length } : CountMsg)) }

/-- The buckets of a frame announced: dealt to the dies of the device (R134). -/
def Frame.deal (f : Frame) (dies : List Nat) : Frame :=
  let n := fdCount f.desc
  let d := dies.length
  let share (j : Nat) : List Nat := (List.range n).filter (fun i => decide (j * n / d ≤ i ∧ i < (j + 1) * n / d))
  let qs := dies.zipIdx.map (fun p =>
    ({ die := p.1, buckets := share p.2,
       known := (dies.zipIdx.filter (fun x => x.1 ≠ p.1)).map (fun x => (x.1, (share x.2).length)), excluded := [],
       steal := none, stolen := none, asks := [] } : Deque))
  qs.foldl Frame.askFor { f with st := .sealed, sealing := none, buckets := List.replicate n .dealt, deques := qs }

/-- Every deque is empty and no steal is outstanding (R135). -/
def Frame.exhausted (f : Frame) : Bool := f.deques.all (fun q => q.buckets = [] && q.steal.isNone)

/-- A register written uniform in every live lane, whatever the mask (R470). -/
def Group.putLive (g : Group) (d : RegName) (w : Word) : Group := g.put d (.uniform w) g.live true false

/-- A bucket made OWNED by a team, with its empty store (R174, R186). -/
def State.own_ (s : State) (f : Frame) (die i : Nat) (t : Team) : State × Word :=
  let q := f.deque die
  let (bx, by_) := (fdBuckets f.desc).getD i (0, 0)
  let f1 := { f with buckets := f.buckets.set i (.owned t.id) }.putDeque { q with buckets := q.buckets.tail }
  let st : Store :=
    { core := t.core, team := t.id, vf := f.vf, dev := f.dev, h := f.h, bucket := i, bx := bx, by_ := by_,
      records := [], layers := [], tails := [], grids := [], gens := [], cells := [], slab := none, recLines := 0, recSpill := 0,
      parkedOn := none,
      resolving := none }
  let s1 := s.setFrame f1
  (({ s1 with stores := s1.stores ++ [st] }).modTeam t.id (fun x => { x with bucket := some (f.h, i) }),
    BitVec.ofNat 32 (by_ * 65536 + bx))

/-- A claim at the distributor of a die (R135, R174): its result, or none while it waits. -/
def State.claim (s : State) (f : Frame) (die : Nat) (t : Team) : Option (State × Word) :=
  if f.st = .opened then some (s, 0xFFFFFFFE)
  else if f.st = .done then some (s, 0xFFFFFFFF)
  else if s.stores.any (fun x => decide (x.team = t.id ∨ x.core = t.core)) then some (s, 0xFFFFFFFE)
  else
    match (f.deque die).buckets with
    | i :: _ => some (s.own_ f die i t)
    | [] => if f.exhausted then some (s, 0xFFFFFFFF) else none

/-- The waiting slot of a group receives the result of its claim and goes on. -/
def Group.claimed (g : Group) (b : Bool) (w : Word) : Group :=
  match (g.slot b).wait with
  | .claim d => (g.putLive d w).setSlot b { g.slot b with wait := .none }
  | _ => g

/-- The claim of a die that comes first, served if it can be (R135, R136). -/
def State.serveClaim (s : State) (vf dev h die : Nat) : Option State :=
  match s.frame? vf dev h with
  | none => none
  | some f =>
    let q := f.deque die
    match q.asks with
    | [] => none
    | .steal _ :: _ => none
    | .claim gid b :: rest =>
      let s1 := s.setFrame (f.setDeque { q with asks := rest })
      match s1.group? gid with
      | none => some s1
      | some g =>
        match s1.team? g.team, s1.frame? vf dev h with
        | some t, some f1 =>
          (match s1.claim f1 die t with
           | some (s2, w) => some (s2.modGroup gid (fun g => g.claimed b w))
           | none => none)
        | _, _ => some s1

/-- Waiting claims of every die served as long as one can be. -/
def State.serveClaims : Nat → State → Nat → Nat → Nat → State
  | 0, s, _, _, _ => s
  | n + 1, s, vf, dev, h =>
    match [0, 1, 2, 3].findSome? (fun d => s.serveClaim vf dev h d) with
    | some s' => State.serveClaims n s' vf dev h
    | none => s

/-- Claims that wait anywhere on a frame, as fuel. -/
def Frame.waiting (f : Frame) : Nat := f.deques.foldl (fun n q => n + q.claims.length) 0

/-- A frame written, and its waiting claims served. -/
def State.putFrame (s : State) (f : Frame) : State := (s.setFrame f).serveClaims (f.waiting + 1) f.vf f.dev f.h

/-- A store emptied; its bucket becomes DONE or returns to the head of its die's deque (R176, R177). -/
def State.leaveBucket (s : State) (x : Store) (done : Bool) : State :=
  let s := ({ s with stores := s.stores.filter (fun y => y.core ≠ x.core) }).modTeam x.team
    (fun t => { t with bucket := none })
  match s.storeFrame x with
  | none => s
  | some f =>
    if done then
      let bs := f.buckets.set x.bucket .done
      s.putFrame { f with buckets := bs, st := if bs.all (· = .done) then .done else f.st }
    else
      let q := f.deque (x.core / 64)
      s.putFrame ({ f with buckets := f.buckets.set x.bucket .dealt }.putDeque { q with buckets := x.bucket :: q.buckets })

/-- A seal takes effect when the operations it waits for are gone (R152). -/
def State.sealEffect (s : State) (f : Frame) : State :=
  let s := s.putFrame (f.deal (diesOf (s.pmode f.vf) f.dev))
  let wake (x : Slot) : Slot := if x.wait = .seal f.vf f.dev f.h then { x with wait := .none } else x
  { s with groups := s.groups.map (fun g => { g with slotA := wake g.slotA, slotB := wake g.slotB }) }

/-! ### Grids (R169–R172, R471) -/

/-- Bytes and lines of a grid (R166, R169). -/
def gridBytes (nu nv : Nat) : Nat := 64 + 48 * (nu + 1) * (nv + 1)
def gridLines (nu nv : Nat) : Nat := (gridBytes nu nv + 127) / 128

/-- Free lines of a store (R169, R188). -/
def Store.freeLines (x : Store) (desc : Nat) : Nat :=
  12288 - fdSampleLines desc - x.recLines -
    x.grids.foldl (fun n g => if g.spill.isNone then n + gridLines g.nu g.nv else n) 0

/-- The live grid that a 16-bit handle names (R471). -/
def Store.grid? (x : Store) (h : Nat) : Option Grid :=
  x.grids.find? (fun g => g.place = h % 256 && g.gen = h / 256)

/-- Generation of a place. -/
def Store.gen (x : Store) (p : Nat) : Nat := ((x.gens.find? (fun q => q.1 = p)).map (·.2)).getD 0

/-- Handle of a grid. -/
def Grid.handle (g : Grid) : Nat := g.place + 256 * g.gen

/-- The lowest place without a live grid. -/
def Store.freePlace (x : Store) : Option Nat :=
  (List.range 256).find? (fun p => !x.grids.any (fun g => g.place = p))

/-- A grid released: its lines return and the generation of its place advances (R471). -/
def Store.release (x : Store) (g : Grid) : Store :=
  { x with
    grids := x.grids.filter (fun y => y.place ≠ g.place)
    gens := x.gens.filter (fun q => q.1 ≠ g.place) ++ [(g.place, (g.gen + 1) % 256)]
    cells := x.cells.filter (fun c => c.1 / 65536 ≠ g.place) }

end Sys2Proof.Machine
end

