-- ==== Sys2Proof/Machine/Pools.lean ====
section
/-!
DEFINITION. Pools of device memory (06 R158, R159), the spill slabs of a bucket (R171) and the lines that transparent samples
take (07 R188).
-/

namespace Sys2Proof.Machine

/-! ### Pools (R158, R159) -/

/-- MSI-X vector of a function signalled. -/
def State.signal (s : State) (fn vector : Nat) : State := { s with msix := s.msix ++ [(fn, vector)] }

/-- What an allocation from a pool comes to: an element, or the header and its LIMIT when ALLOC has reached it. -/
inductive Alloc where
  | took (i : Nat)
  | full (header limit : Nat)

/-- A word of a pool header raised by 1, saturating. -/
def satAdd (x : Nat) : Nat := min (2 ^ 32 - 1) (x + 1)

/-- The pool on which something is parked. -/
def Parked.header : Parked → Option Nat
  | .pool h _ _ => some h
  | _ => none

/-- The operation retries an allocation (R159). -/
def EngineOp.retries (o : EngineOp) : Bool := ((o.parkedOn.bind Parked.header)).isSome

/-- No operation or bucket store that parked on a pool earlier is about to retry (R159); a store stands in the order under its
team. -/
def State.poolTurn (s : State) (a who : Nat) : Bool :=
  (s.poolOrder.takeWhile (· ≠ who)).all (fun i =>
    (s.op? i).all (fun x => decide (x.parkedOn.bind Parked.header ≠ some a) || x.state = .parked || x.state = .stopped) &&
      (s.stores.filter (fun x => x.team = i)).all (fun x => x.parkedOn.all (fun q => decide (q.1 ≠ a ∨ q.2 = s.readNat (a + 4) 4))))

/-- An allocation as one event (R159): woken operations retry in the order in which they parked. -/
def State.allocate (s : State) (o : EngineOp) (va : Nat) : OpRes Alloc :=
  (s.opTouch o .update va 128).bind (fun s1 ps =>
    let ls := pieceLines ps
    let a := (ps.map (·.1)).headD 0
    if o.retries && !s.poolTurn a o.id then .later []
    else
      let word (i : Nat) : Nat := s1.readNat (a + 4 * i) 4
      let put (i v : Nat) (s : State) : State := { s with mem := Memory.setBytes s.mem (a + 4 * i) (toLe 4 v) }
      if word 0 < word 1 then
        let s2 := put 0 (word 0 + 1) (if o.retries then put 2 (word 2 - 1) s1 else s1)
        .ok ({ s2 with poolOrder := s2.poolOrder.filter (· ≠ o.id) }.wrote none ls) (.took (word 0))
      else
        let s2 := put 3 (satAdd (word 3)) (if o.retries then s1 else put 2 (satAdd (word 2)) s1)
        let s2 : State := if o.retries then s2 else { s2 with poolOrder := s2.poolOrder ++ [o.id] }
        .ok ((if !o.retries && word 2 = 0 then s2.signal (s.opVf o) 64 else s2).wrote none ls) (.full a (word 1)))

/-- An operation parks on a full pool, whose header a monitor watches (R140, R159). -/
def State.parkPool (s : State) (o : EngineOp) (h limit : Nat) : State :=
  s.setOp { o with state := .parked,
                   parkedOn := some (.pool h limit (if s.monitorFree (some o.core) (lineOf h) then none else some s.cycle)) }

/-- DROPPED of a pool raised by 1, as one event (R158). -/
def State.dropIn (s : State) (o : EngineOp) (va : Nat) : OpRes Unit :=
  (s.opTouch o .update va 128).bind (fun s1 ps =>
    let a := (ps.map (·.1)).headD 0 + 16
    .ok ({ s1 with mem := Memory.setBytes s1.mem a (toLe 4 (satAdd (s1.readNat a 4))) }.wrote none (pieceLines ps)) ())

/-- The header of a pool cannot be written now. -/
def State.poolHeld (s : State) (h : Nat) : Bool := s.heldOff [lineOf h] true || s.locked .mem (h + 8) 4 true

/-- WAITING of a pool falls with what is withdrawn from it (R158, R171). -/
def State.leavePool (s : State) (who h : Nat) : State :=
  { s with poolOrder := s.poolOrder.filter (· ≠ who),
           mem := Memory.setBytes s.mem (h + 8) (toLe 4 (s.readNat (h + 8) 4 - 1)) }.wrote none [lineOf h]

/-! ### Spill slabs (R171) and the records of transparent samples (R188) -/

/-- The slab that some spilled lines go to, and the next byte of it: the current one, or a new one of the pool (R171); the header
and LIMIT of a full pool. -/
def State.takeSlab (s : State) (o : EngineOp) (x : Store) (desc lines : Nat) : OpRes ((Nat × Nat) ⊕ (Nat × Nat)) :=
  let new : OpRes ((Nat × Nat) ⊕ (Nat × Nat)) := (s.allocate o (fdSpillHdr desc)).bind (fun s1 a =>
    match a with
    | .took i => .ok s1 (.inl (i, 0))
    | .full h limit => .ok s1 (.inr (h, limit)))
  match x.slab with
  | some (i, next) => if next + 128 * lines ≤ 65536 then .ok s (.inl (i, next)) else new
  | none => new

/-- A bucket store as the agent of its own allocations, under the number of its team (R188). -/
def Store.asOp (x : Store) : EngineOp :=
  { id := x.team, launch := 0, team := x.team, group := 0, core := x.core, kind := .dice, word := 0, operands := [], lanes := [],
    progress := 0, state := .running, leave := false, parkedOn := x.parkedOn.map (fun q => .pool q.1 q.2 none) }

/-- Lines that the layer and tail records take: four layers or two tails each (R188; log entry 26). -/
def Store.recordLines (x : Store) : Nat := (x.layers.length + 3) / 4 + (x.tails.length + 1) / 2

/-- Lines that the records of a store take beyond those that they have. -/
def Store.linesDue (x : Store) : Nat := x.recordLines - (x.recLines + x.recSpill)

/-- Lines free in the current slab. -/
def Store.slabRoom (x : Store) : Nat := match x.slab with
  | some (_, next) => (65536 - next) / 128
  | none => 0

/-- What the placing of records comes to. -/
inductive RecordRoom where
  /-- All have their lines: the state, and the lines of the store and of its slab that they have taken, with the slab. -/
  | ok (s : State) (inStore spilled : Nat) (slab : Option (Nat × Nat))
  /-- Some have, or a slab was taken, or the store has parked on the pool: the writes come later. -/
  | again (s : State)
  | fault
  | parks (p : Parked) (va : Nat)
  | later (lines : List Nat)

/-- The records of a store placed, of which `due` lines are not (R188): in free lines of the store, then in the current slab, whose
bytes they leave undefined (log entry 26); without room a new slab is taken first, or the store parks on the pool. -/
def State.placeRecords (s : State) (x : Store) (desc launch due : Nat) : RecordRoom :=
  let o := { x.asOp with launch := launch }
  let inStore := min due (x.freeLines desc)
  let out := due - inStore
  if out = 0 then .ok s inStore 0 x.slab
  else if x.slabRoom = 0 then
    if x.parkedOn.isSome then .again s
    else
      match s.takeSlab o x desc 512 with
      | .ok s1 (.inl slab) => .again (s1.setStore { x with slab := some slab })
      | .ok s1 (.inr full) => .again (s1.setStore { x with parkedOn := some full })
      | .stops _ _ => .fault
      | .parks p va _ => .parks p va
      | .later ls => .later ls
  else
    match x.slab with
    | none => .again s
    | some (i, next) =>
      let n := min out x.slabRoom
      match s.opTouch o .write (fdSpillBase desc + 65536 * i + next) (128 * n) with
      | .ok s1 ps =>
        let bytes := (List.range (128 * n)).map (fun i => BitVec.ofNat 8 (Config.freeWord (s.draw + i)).toNat)
        let s2 : State := { (s1.writePieces ps bytes).wrote none (pieceLines ps) with draw := s.draw + 128 * n }
        if n = out then .ok s2 inStore n (some (i, next + 128 * n))
        else .again (s2.setStore { x with recSpill := x.recSpill + n, slab := some (i, next + 128 * n) })
      | .stops _ _ => .fault
      | .parks p va _ => .parks p va
      | .later ls => .later ls

/-- What keeps a store from placing another record for good: a fault of the pool's header or of the current slab (R188, R274). -/
def State.recordFault (s : State) (x : Store) (desc launch : Nat) : Option Cause :=
  let o := { x.asOp with launch := launch }
  let stop (k : Touch) (va : Nat) : Option Cause := match s.opTouch o k va 128 with
    | .stops _ c => some c
    | _ => none
  if 0 < x.freeLines desc then none
  else
    match (if x.slabRoom = 0 then none else x.slab) with
    | some (i, next) => stop .write (fdSpillBase desc + 65536 * i + next)
    | none => stop .update (fdSpillHdr desc)

end Sys2Proof.Machine
end

