-- ==== Sys2Proof/Machine/Slicer.lean ====
section
/-!
DEFINITION. The arithmetic of binning and dicing: patch records (06 R153), the screen bound (R154), the size estimate
and the split (R161–R164), the visit (R163), and the grid that a piece emits (R165–R168). FP32 values are codes.
-/

namespace Sys2Proof.Machine

/-- A control point in camera space: FP32 codes X, Y, Z. -/
abbrev Point := Nat × Nat × Nat

def Point.x (p : Point) : Nat := p.1
def Point.y (p : Point) : Nat := p.2.1
def Point.z (p : Point) : Nat := p.2.2

/-- One FP32 operation with a rounding direction. -/
def f32r (r : Rnd) (x : Res) : Nat := (FFmt.fp32.arith r false x).1
def f32isNan (c : Nat) : Bool := (FFmt.fp32.val c).isNan
def f32max (a b : Nat) : Nat := if f32lt a b then b else a
def f32min (a b : Nat) : Nat := if f32lt b a then b else a
def f32addR (r : Rnd) (a b : Nat) : Nat := f32r r (addVal r (FFmt.fp32.val a) (FFmt.fp32.val b))
def f32subR (r : Rnd) (a b : Nat) : Nat := f32r r (addVal r (FFmt.fp32.val a) (FFmt.fp32.val b).negate)
def f32mulR (r : Rnd) (a b : Nat) : Nat := f32r r (mulVal (FFmt.fp32.val a) (FFmt.fp32.val b))
def f32divR (r : Rnd) (a b : Nat) : Nat := f32r r (divVal (FFmt.fp32.val a) (FFmt.fp32.val b))
def f32sqrt (a : Nat) : Nat := f32 (sqrtVal (FFmt.fp32.val a))

/-- An operation rounded away from zero: of the two directed results the one of greater magnitude. -/
def f32away (f : Rnd → Nat) : Nat := if f32abs (f .rdn) < f32abs (f .rup) then f .rup else f .rdn

def f32inf : Nat := 0x7F800000
def f32ninf : Nat := 0xFF800000
def f32one : Nat := 0x3F800000
def f32half : Nat := 0x3F000000

/-- floor of an FP32 value, held within ±2^40. -/
def f32floor (c : Nat) : Int := (toInt .rdn (-(2 ^ 40)) (2 ^ 40) (FFmt.fp32.val c)).1

/-! ### Patch records (R153) -/

/-- A valid patch record. -/
structure Patch where
  typ : Nat
  motion : Bool
  patchid : Nat
  user : Nat
  /-- FP16 code, 0 for the frame's. -/
  rate : Nat
  dbound : Nat
  opn : List Point
  cls : List Point
  deriving DecidableEq, Repr

/-- Side of the control array, and its points. -/
def patchSide (typ : Nat) : Nat := if typ = 0 then 2 else 4
def patchPoints (typ : Nat) : Nat := patchSide typ * patchSide typ

/-- Bytes of the control points that follow a header. -/
def patchBody (hdr : Nat) : Nat := 12 * patchPoints (bits hdr 0 2) * (if bits hdr 2 1 = 1 then 2 else 1)

/-- Points from little-endian numbers. -/
def pointAt (x i : Nat) : Point := (bits x (96 * i) 32, bits x (96 * i + 32) 32, bits x (96 * i + 64) 32)

/-- The patch of a header and of its control points as one number; none when it is invalid (R153). -/
def patchOf (hdr body : Nat) : Option Patch :=
  let typ := bits hdr 0 2
  let n := patchPoints typ
  let motion := decide (bits hdr 2 1 = 1)
  let rate := bits hdr 96 16
  let db := bits hdr 64 32
  let opn := (List.range n).map (pointAt body)
  let cls := if motion then (List.range n).map (fun i => pointAt body (n + i)) else opn
  let finite (p : Point) : Bool := f32finite p.x && f32finite p.y && f32finite p.z
  if typ = 3 ∨ bits hdr 3 29 ≠ 0 ∨ bits hdr 112 16 ≠ 0 ∨ bits hdr 192 64 ≠ 0 then none
  else if !f32finite db || f32lt db 0 || !(decide (rate = 0) || rateOk rate) then none
  else if !(opn.all finite && cls.all finite) then none
  else some { typ := typ, motion := motion, patchid := bits hdr 32 32, user := bits hdr 128 64, rate := rate,
              dbound := db, opn := opn, cls := cls }

/-! ### The screen bound (R154) -/

/-- The result of R154: buckets bx0 to bx1 and by0 to by1. -/
inductive Bound where
  | none
  | all
  | range (bx0 bx1 by0 by1 : Nat)
  deriving DecidableEq, Repr

/-- The box lo to hi of control points (R154). -/
def boxOf (db : Nat) (ps : List Point) : Point × Point :=
  let lo (f : Point → Nat) : Nat := ps.foldl (fun a p => f32min a (f32subR .rdn (f p) db)) f32inf
  let hi (f : Point → Nat) : Nat := ps.foldl (fun a p => f32max a (f32addR .rup (f p) db)) f32ninf
  ((lo Point.x, lo Point.y, lo Point.z), (hi Point.x, hi Point.y, hi Point.z))

/-- The intermediate values of a box that may be NaN. -/
def boxNan (db : Nat) (ps : List Point) : Bool :=
  ps.any (fun p => [p.x, p.y, p.z].any (fun c => f32isNan (f32subR .rdn c db) || f32isNan (f32addR .rup c db)))

/-- The steps of f × v / z + c in one direction. -/
def projSteps (r : Rnd) (f v z c : Nat) : List Nat :=
  let a := f32mulR r f v
  let b := f32divR r a z
  [a, b, f32addR r b c]

/-- The steps of COCSCALE × |1 − FOCUS / z|, away from zero. -/
def cocSteps (focus z : Nat) : List Nat :=
  let a := f32away (fun r => f32divR r focus z)
  [a, f32away (fun r => f32subR r f32one a)]

/-- One axis: the buckets between the least and the greatest corner, widened by cmax and MARGIN, in 0 to n − 1. -/
def axisRange (lo hi cmax margin bs n : Nat) : List Nat × Option (Nat × Nat) :=
  let a1 := f32subR .rdn lo cmax
  let a2 := f32subR .rdn a1 margin
  let b1 := f32addR .rup hi cmax
  let b2 := f32addR .rup b1 margin
  let i0 := max 0 (f32floor (f32divR .rdn a2 bs))
  let i1 := min (n - 1 : Int) (f32floor (f32divR .rup b2 bs))
  ([a1, a2, b1, b2], if i1 < i0 then none else some (i0.toNat, i1.toNat))

/-- The screen bound of control points in a frame (R154). -/
def screenBound (d db : Nat) (ps : List Point) : Bound :=
  let (lo, hi) := boxOf db ps
  if boxNan db ps then .all
  else if f32le hi.z (fdNear d) then .none
  else if f32le lo.z (fdNear d) then .all
  else
    let zs := [lo.z, hi.z]
    let corner (r : Rnd) (f c : Nat) (vs : List Nat) : List (List Nat) :=
      (vs.map (fun v => zs.map (fun z => projSteps r f v z c))).flatten
    let last (l : List Nat) : Nat := l.getLastD 0
    let xs := [lo.x, hi.x]
    let ys := [lo.y, hi.y]
    let xl := corner .rdn (fdFx d) (fdCx d) xs
    let xh := corner .rup (fdFx d) (fdCx d) xs
    let yl := corner .rdn (fdFy d) (fdCy d) ys
    let yh := corner .rup (fdFy d) (fdCy d) ys
    let least (l : List (List Nat)) : Nat := l.foldl (fun a s => f32min a (last s)) f32inf
    let most (l : List (List Nat)) : Nat := l.foldl (fun a s => f32max a (last s)) f32ninf
    let c1 := cocSteps (fdFocus d) lo.z
    let c2 := cocSteps (fdFocus d) hi.z
    let cmax := f32away (fun r => f32mulR r (fdCoc d) (f32max (f32abs (last c1)) (f32abs (last c2))))
    let m := f32ofInt (fdMargin d)
    let bs := f32ofInt (fdBs d)
    let (ix, rx) := axisRange (least xl) (most xh) cmax m bs (fdNbx d)
    let (iy, ry) := axisRange (least yl) (most yh) cmax m bs (fdNby d)
    if ((xl ++ xh ++ yl ++ yh).flatten ++ c1 ++ c2 ++ [cmax] ++ ix ++ iy).any f32isNan then .all
    else
      match rx, ry with
      | some (x0, x1), some (y0, y1) => .range x0 x1 y0 y1
      | _, _ => .none

/-- The bound reaches a bucket. -/
def Bound.reaches (b : Bound) (bx by_ : Nat) : Bool :=
  match b with
  | .none => false
  | .all => true
  | .range x0 x1 y0 y1 => decide (x0 ≤ bx ∧ bx ≤ x1 ∧ y0 ≤ by_ ∧ by_ ≤ y1)

/-- The buckets of a bound in ascending Morton index (R155). -/
def Bound.indices (b : Bound) (d : Nat) : List Nat :=
  ((fdBuckets d).zipIdx.filter (fun p => b.reaches p.1.1 p.1.2)).map (·.2)

/-! ### Pieces (R160–R164) -/

/-- A piece of a patch: its points and its parameter origin and extent. -/
structure Piece where
  opn : List Point
  cls : List Point
  s0 : Nat
  t0 : Nat
  ds : Nat
  dt : Nat
  deriving DecidableEq, Repr

/-- The patch as piece 1. -/
def Patch.piece (p : Patch) : Piece := { opn := p.opn, cls := p.cls, s0 := 0, t0 := 0, ds := f32one, dt := f32one }

/-- An operation on the three coordinates. -/
def Point.map2 (f : Nat → Nat → Nat) (p q : Point) : Point := (f p.x q.x, f p.y q.y, f p.z q.z)
def Point.scale (c : Nat) (p : Point) : Point := (f32mul c p.x, f32mul c p.y, f32mul c p.z)
def pAdd (p q : Point) : Point := Point.map2 f32add p q
/-- (p + q) × 0.5. -/
def pMid (p q : Point) : Point := (pAdd p q).scale f32half

/-- The low and the high half of a row (R164). -/
def halve (typ : Nat) (row : List Point) : List Point × List Point :=
  let p (i : Nat) : Point := row.getD i (0, 0, 0)
  if typ = 0 then
    let m := pMid (p 0) (p 1)
    ([p 0, m], [m, p 1])
  else if typ = 1 then
    let a := pMid (p 0) (p 1)
    let b := pMid (p 1) (p 2)
    let c := pMid (p 2) (p 3)
    let d := pMid a b
    let e := pMid b c
    let g := pMid d e
    ([p 0, a, d, g], [g, e, c, p 3])
  else
    let six (q : Point) : Point := q.scale (f32ofInt 6)
    let eighth : Nat := 0x3E000000
    let q0 := pMid (p 0) (p 1)
    let q1 := (pAdd (pAdd (p 0) (six (p 1))) (p 2)).scale eighth
    let q2 := pMid (p 1) (p 2)
    let q3 := (pAdd (pAdd (p 1) (six (p 2))) (p 3)).scale eighth
    let q4 := pMid (p 2) (p 3)
    ([q0, q1, q2, q3], [q1, q2, q3, q4])

/-- The control points after a split along u (each row) or v (each column); point (i, j) is at i + n × j. -/
def splitPoints (typ : Nat) (ps : List Point) (alongU high : Bool) : List Point :=
  let n := patchSide typ
  let pick (x : List Point × List Point) : List Point := if high then x.2 else x.1
  let at_ (i j : Nat) : Point := ps.getD (i + n * j) (0, 0, 0)
  let lines := (List.range n).map (fun l => pick (halve typ ((List.range n).map (fun i =>
    if alongU then at_ i l else at_ l i))))
  (List.range (n * n)).map (fun x =>
    let i := x % n
    let j := x / n
    if alongU then (lines.getD j []).getD i (0, 0, 0) else (lines.getD i []).getD j (0, 0, 0))

/-- A half of a piece (R164). -/
def Piece.half (x : Piece) (typ : Nat) (alongU high : Bool) : Piece :=
  let o := splitPoints typ x.opn alongU high
  let c := splitPoints typ x.cls alongU high
  if alongU then
    let h := f32mul x.ds f32half
    { x with opn := o, cls := c, ds := h, s0 := if high then f32add x.s0 h else x.s0 }
  else
    let h := f32mul x.dt f32half
    { x with opn := o, cls := c, dt := h, t0 := if high then f32add x.t0 h else x.t0 }

/-- A point projected with RNE (R149, R161). -/
def project (d : Nat) (p : Point) : Nat × Nat :=
  (f32add (f32div (f32mul (fdFx d) p.x) p.z) (fdCx d), f32add (f32div (f32mul (fdFy d) p.y) p.z) (fdCy d))

/-- The length of a polyline (R161). -/
def polyLength : Nat → List (Nat × Nat) → Nat
  | acc, a :: b :: rest =>
    let dx := f32sub b.1 a.1
    let dy := f32sub b.2 a.2
    polyLength (f32add acc (f32sqrt (f32add (f32mul dx dx) (f32mul dy dy)))) (b :: rest)
  | acc, _ => acc

/-- Lu or Lv (R161); a NaN length counts as +∞. -/
def Piece.lengthOf (x : Piece) (d typ : Nat) (rows : Bool) : Nat :=
  let n := patchSide typ
  let line (ps : List Point) (l : Nat) : Nat :=
    let c := polyLength 0 ((List.range n).map (fun i =>
      project d (ps.getD (if rows then i + n * l else l + n * i) (0, 0, 0))))
    if f32isNan c then f32inf else c
  (x.opn :: [x.cls]).foldl (fun m ps => (List.range n).foldl (fun m l => f32max m (line ps l)) m) 0

/-- nu′ or nv′ (R161); 33 stands for every count above 32. -/
def wanted (len rate : Nat) : Nat :=
  let q := f32div len rate
  if !f32finite q then 33 else (max 1 (toInt .rup 0 33 (FFmt.fp32.val q)).1).toNat

/-- A patch being diced in a frame. -/
structure Dicer where
  d : Nat
  patch : Patch
  deriving DecidableEq, Repr

/-- r as FP32 (R161). -/
def Dicer.rate (z : Dicer) : Nat := f32of .fp16 (if z.patch.rate = 0 then fdRate z.d else z.patch.rate)

def Dicer.points (_ : Dicer) (x : Piece) : List Point := x.opn ++ x.cls

/-- The screen bound of a piece. -/
def Dicer.bound (z : Dicer) (x : Piece) : Bound := screenBound z.d z.patch.dbound (z.points x)

/-- hi.z ≤ NEAR for a piece. -/
def Dicer.behind (z : Dicer) (x : Piece) : Bool := f32le (boxOf z.patch.dbound (z.points x)).2.z (fdNear z.d)

/-- The split direction of a piece (R162): u when true. -/
def Dicer.alongU (z : Dicer) (x : Piece) (depth : Nat) : Bool :=
  if z.bound x = .all || z.behind x then decide (depth % 2 = 0)
  else f32le (x.lengthOf z.d z.patch.typ false) (x.lengthOf z.d z.patch.typ true)

/-- piece(k) (R163): the bits of k below its leading 1, from the most significant down. -/
def Dicer.piece (z : Dicer) (k : Nat) : Piece :=
  let depth := Nat.log2 k
  (List.range depth).foldl (fun x i =>
    x.half z.patch.typ (z.alongU x i) (decide (bits k (depth - 1 - i) 1 = 1))) z.patch.piece

/-- next_after (R163), on the 17 bits of an id. -/
def nextAfter : Nat → Nat → Nat
  | 0, _ => 0
  | fuel + 1, k => if k = 1 then 0 else if k % 2 = 1 then nextAfter fuel (k / 2) else k + 1

/-- What a visit does (R162, R163). -/
inductive Visit where
  | next (k : Nat)
  | drop (k : Nat)
  | emit (nu nv k : Nat)
  deriving DecidableEq, Repr

/-- One visit of piece k for a bucket (R162, R163). -/
def Dicer.visit (z : Dicer) (bx by_ k : Nat) : Visit :=
  let x := z.piece k
  let depth := Nat.log2 k
  let b := z.bound x
  let after := nextAfter 18 k
  if !b.reaches bx by_ then .next after
  else if b = .all then (if depth < 16 then .next (2 * k) else .drop after)
  else
    let nu := wanted (x.lengthOf z.d z.patch.typ true) z.rate
    let nv := wanted (x.lengthOf z.d z.patch.typ false) z.rate
    if depth < 16 ∧ (32 < nu ∨ 32 < nv ∨ 1024 < nu * nv) then .next (2 * k)
    else .emit (min nu 32) (min nv 32) after

/-- The result of the visits of a `dice` (R160): a dropped piece, an emitted one, or none, and the next cursor. -/
inductive DiceRes where
  | none (next : Nat)
  | drop (next : Nat)
  | emit (k nu nv next : Nat)
  deriving DecidableEq, Repr

/-- At most `fuel` visits from a cursor. -/
def Dicer.run (z : Dicer) (bx by_ : Nat) : Nat → Nat → DiceRes
  | 0, k => .none k
  | fuel + 1, k =>
    if k = 0 then .none 0
    else
      match z.visit bx by_ k with
      | .next k' => z.run bx by_ fuel k'
      | .drop k' => .drop k'
      | .emit nu nv k' => .emit k nu nv k'

/-! ### Vertices and grids (R165–R167) -/

/-- a + s × (b − a). -/
def pLerp (a b : Point) (s : Nat) : Point :=
  Point.map2 (fun x y => f32add x (f32mul s (f32sub y x))) a b

/-- de Casteljau at s, of four points. -/
def casteljau (q : List Point) (s : Nat) : Point :=
  let p (i : Nat) : Point := q.getD i (0, 0, 0)
  let a := pLerp (p 0) (p 1) s
  let b := pLerp (p 1) (p 2) s
  let c := pLerp (p 2) (p 3) s
  pLerp (pLerp a b s) (pLerp b c s) s

/-- The B-spline weights at s, each from left to right (R165). -/
def splineWeights (s : Nat) : List Nat :=
  let c (i : Int) : Nat := f32ofInt i
  let o := f32sub f32one s
  let cube (k x : Nat) : Nat := f32mul (f32mul (f32mul k x) x) x
  let sq (k : Nat) : Nat := f32mul (f32mul k s) s
  [f32div (f32mul (f32mul o o) o) (c 6),
   f32div (f32add (f32sub (cube (c 3) s) (sq (c 6))) (c 4)) (c 6),
   f32div (f32add (f32add (f32add (cube (c (-3)) s) (sq (c 3))) (f32mul (c 3) s)) f32one) (c 6),
   f32div (f32mul (f32mul s s) s) (c 6)]

/-- ((w0 × p0 + w1 × p1) + w2 × p2) + w3 × p3. -/
def weighPoints (q : List Point) (w : List Nat) : Point :=
  let t (i : Nat) : Point := (q.getD i (0, 0, 0)).scale (w.getD i 0)
  pAdd (pAdd (pAdd (t 0) (t 1)) (t 2)) (t 3)

/-- The surface of control points at (s, t) (R165). -/
def surface (typ : Nat) (ps : List Point) (s t : Nat) : Point :=
  let n := patchSide typ
  let row (j : Nat) : List Point := (List.range n).map (fun i => ps.getD (i + n * j) (0, 0, 0))
  if typ = 0 then
    let p (i j : Nat) : Point := ps.getD (i + 2 * j) (0, 0, 0)
    pLerp (pLerp (p 0 0) (p 1 0) s) (pLerp (p 0 1) (p 1 1) s) t
  else if typ = 1 then casteljau ((List.range 4).map (fun j => casteljau (row j) s)) t
  else weighPoints ((List.range 4).map (fun j => weighPoints (row j) (splineWeights s))) (splineWeights t)

/-- A point as 96 bits. -/
def Point.code (p : Point) : Nat := p.x + 2 ^ 32 * p.y + 2 ^ 64 * p.z

/-- The record of vertex (i, j) as the slicer writes it (R165, R167). -/
def vertexRecord (typ : Nat) (x : Piece) (nu nv i j : Nat) : Nat :=
  let s := f32div (f32ofInt i) (f32ofInt nu)
  let t := f32div (f32ofInt j) (f32ofInt nv)
  let sf := f32to .fp16 (f32add x.s0 (f32mul s x.ds))
  let tf := f32to .fp16 (f32add x.t0 (f32mul t x.dt))
  (surface typ x.opn s t).code + 2 ^ 96 * (surface typ x.cls s t).code + 2 ^ 288 * sf + 2 ^ 304 * tf + 2 ^ 336

/-- The header of a grid (R166). -/
def gridHeader (p : Patch) (x : Piece) (k nu nv : Nat) (spilled : Bool) : Nat :=
  p.patchid + 2 ^ 32 * k + 2 ^ 49 * (nu - 1) + 2 ^ 54 * (nv - 1) + (if p.motion then 2 ^ 59 else 0) +
    (if spilled then 2 ^ 60 else 0) + 2 ^ 64 * p.user + 2 ^ 128 * x.s0 + 2 ^ 160 * x.t0 + 2 ^ 192 * x.ds +
    2 ^ 224 * x.dt

/-- The bytes of a grid (R166). -/
def gridContents (p : Patch) (x : Piece) (k nu nv : Nat) (spilled : Bool) : List Byte :=
  toLe 64 (gridHeader p x k nu nv spilled) ++
    ((List.range ((nu + 1) * (nv + 1))).map (fun v =>
      toLe 48 (vertexRecord p.typ x nu nv (v % (nu + 1)) (v / (nu + 1))))).flatten

/-- The sequence key of a micropolygon (R168). -/
def sequenceKey (patchid k iu iv nu : Nat) : Nat := patchid * 2 ^ 32 + k * 2 ^ 10 + iu + nu * iv

end Sys2Proof.Machine
end

