-- ==== Sys2Proof/Machine/Raster.lean ====
section
/-!
DEFINITION. Five-dimensional sampling: the pattern (07 R179–R181), coverage (R182–R185), the sample buffer
(R186–R189) and the arithmetic of resolve (R190–R193).
-/

namespace Sys2Proof.Machine

/-! ### The pattern (R179–R181) -/

def mix32 (n : Word) : Word :=
  let a := (n ^^^ (n >>> 16)) * 0x7FEB352D#32
  let b := (a ^^^ (a >>> 15)) * 0x846CA68B#32
  b ^^^ (b >>> 16)

/-- The lens position: the first draw in the disc, 0 when none of the eight is (R180). -/
def lensDraw : Nat → Word → Word × Word
  | 0, _ => (0, 0)
  | n + 1, g =>
    let h := mix32 (g ^^^ 0x5BD1E995#32)
    let a := (h.extractLsb' 0 6).toInt
    let b := (h.extractLsb' 6 6).toInt
    if a * a + b * b ≤ 1024 then (0#26 ++ h.extractLsb' 0 6, 0#26 ++ h.extractLsb' 6 6) else lensDraw n h

/-- pattern_word for 4^m samples per pixel (R180). -/
def patternWord (px py : Int) (k m : Nat) : Nat :=
  let c := 64 / 2 ^ m
  let s := 4 ^ m
  let ts := 256 / s
  let q := (py % 8).toNat * 8 + (px % 8).toNat
  let hp := mix32 (BitVec.ofNat 32 (0x10000 + q))
  let hs := mix32 (BitVec.ofNat 32 (q * 256 + k))
  let h := hs.toNat
  let x := k % 2 ^ m * c + bits h 0 6 % c
  let y := k / 2 ^ m * c + bits h 8 6 % c
  let t := (5 * k + hp.toNat) % 2 ^ 32 % s * ts + bits h 16 8 % ts
  let (u, v) := lensDraw 8 hs
  t * 2 ^ 24 + v.toNat * 2 ^ 18 + u.toNat * 2 ^ 12 + y * 2 ^ 6 + x

/-- The sample region of a bucket (R181). -/
structure Samples where
  ox : Int
  oy : Int
  rw : Nat
  /-- log4 of the samples per pixel. -/
  m : Nat
  deriving DecidableEq, Repr

/-- The sample region of a store in its frame. -/
def Store.region (x : Store) (d : Nat) : Samples :=
  { ox := x.bx * fdBs d - fdMargin d, oy := x.by_ * fdBs d - fdMargin d, rw := fdRw d, m := fdM d }

/-- Number of samples. -/
def Samples.size (r : Samples) : Nat := r.rw * r.rw * 4 ^ r.m

/-- Pixel and pattern word of a sample id. -/
def Samples.sample (r : Samples) (id : Nat) : Int × Int × Nat :=
  let p := id / 4 ^ r.m
  let px := r.ox + (p % r.rw : Nat)
  let py := r.oy + (p / r.rw : Nat)
  (px, py, patternWord px py (id % 4 ^ r.m) r.m)

/-- Position of a sample in 1/256 pixel (R179). -/
def samplePos (px py : Int) (w : Nat) : Int × Int :=
  (256 * px + 4 * (bits w 0 6 : Nat) + 2, 256 * py + 4 * (bits w 6 6 : Nat) + 2)

/-- A signed 6-bit field. -/
def sext6 (x : Nat) : Int := (BitVec.ofNat 6 x).toInt

/-! ### Coverage (R182–R185) -/

/-- A corner: its open and close positions, and FP32 codes of COC0, COC1, S and T. -/
structure Corner where
  p0 : Point
  p1 : Point
  c0 : Nat
  c1 : Nat
  s : Nat
  t : Nat
  deriving DecidableEq, Repr

/-- The corner of a vertex record, and its SHADED (R167). -/
def cornerOf (r : Nat) : Corner × Bool :=
  ({ p0 := pointAt r 0, p1 := pointAt r 1, c0 := f32of .fp16 (bits r 192 16), c1 := f32of .fp16 (bits r 208 16),
     s := f32of .fp16 (bits r 288 16), t := f32of .fp16 (bits r 304 16) }, decide (bits r 337 1 = 1))

/-- A placed corner: snapped position, depth, S and T. -/
structure Placed where
  x : Int
  y : Int
  z : Nat
  s : Nat
  t : Nat
  deriving DecidableEq, Repr

/-- A corner at a sample's time and lens (R182), or none when it covers nothing there. -/
def Corner.place (c : Corner) (w : Nat) : Option Placed :=
  let tt := f32div (f32ofInt (2 * (bits w 24 8 : Nat) + 1)) (f32ofInt 512)
  let mixed (a b : Nat) : Nat := f32add a (f32mul tt (f32sub b a))
  let ci := mixed c.c0 c.c1
  let lens (f : Nat) : Nat := f32div (f32ofInt (sext6 f)) (f32ofInt 32)
  let sx := f32add (mixed c.p0.x c.p1.x) (f32mul ci (lens (bits w 12 6)))
  let sy := f32add (mixed c.p0.y c.p1.y) (f32mul ci (lens (bits w 18 6)))
  let ok (s : Nat) : Bool := f32lt (f32abs s) (f32ofInt (2 ^ 23))
  let snap (s : Nat) : Int := (toInt .rne (-(2 ^ 40)) (2 ^ 40) (FFmt.fp32.val (f32mul s (f32ofInt 256)))).1
  if ok sx && ok sy then some { x := snap sx, y := snap sy, z := mixed c.p0.z c.p1.z, s := c.s, t := c.t } else none

/-- E_ab(p) (R183). -/
def edgeFn (a b : Placed) (p : Int × Int) : Int := (b.x - a.x) * (p.2 - a.y) - (b.y - a.y) * (p.1 - a.x)

/-- The directed edge is included (R183). -/
def edgeIn (a b : Placed) : Bool := decide (b.y - a.y > 0) || (decide (b.y = a.y) && decide (b.x - a.x < 0))

/-- Depth and (s, t) of a sample that a triangle covers (R183, R184). -/
def triangleAt (a b c : Placed) (p : Int × Int) : Option (Nat × Nat) :=
  let area := edgeFn a b (c.x, c.y)
  if area = 0 then none
  else
    let (b, c, area) := if area < 0 then (c, b, -area) else (b, c, area)
    let inside (u v : Placed) : Bool :=
      let e := edgeFn u v p
      decide (0 < e) || (decide (e = 0) && edgeIn u v)
    if inside a b && inside b c && inside c a then
      let wa := f32ofInt (edgeFn b c p)
      let wb := f32ofInt (edgeFn c a p)
      let wc := f32ofInt (edgeFn a b p)
      let form (f : Placed → Nat) : Nat :=
        f32div (f32add (f32add (f32mul wa (f a)) (f32mul wb (f b))) (f32mul wc (f c))) (f32ofInt area)
      some (form Placed.z, f32to .fp16 (form Placed.s) + 2 ^ 16 * f32to .fp16 (form Placed.t))
    else none

/-- What a micropolygon of four corners, or a triangle of three, gives at a sample (R182–R185). -/
def coverAt (cs : List Corner) (p : Int × Int) (w : Nat) : Option (Nat × Nat) :=
  match cs.map (fun c => c.place w) with
  | [some a, some b, some c] => triangleAt a b c p
  | [some a, some b, some c, some d] =>
    (match triangleAt a b c p with
     | some r => some r
     | none => triangleAt a c d p)
  | _ => none

/-- The covered samples of a region from an id up, ascending: id, depth, (s, t) (R185, R477). -/
def coveredFrom (r : Samples) (cs : List Corner) (first : Nat) : List (Nat × Nat × Nat) :=
  (List.range (r.size - first)).filterMap (fun i =>
    let id := first + i
    let (px, py, w) := r.sample id
    match coverAt cs (samplePos px py w) w with
    | some (z, st) => some (id, z, st)
    | none => none)

/-! ### The sample buffer (R186, R187) -/

/-- The opaque record at the claim (R186). -/
def recordReset : BitVec 128 := 0xFFFFFFFFFFFFFFFF000000007F800000#128

def Store.record (x : Store) (id : Nat) : BitVec 128 :=
  ((x.records.find? (fun r => r.1 = id)).map (·.2)).getD recordReset

/-- A record written; one in its reset state is not listed, ids rise. -/
def setRecord : List (Nat × BitVec 128) → Nat → BitVec 128 → List (Nat × BitVec 128)
  | [], i, r => if r = recordReset then [] else [(i, r)]
  | (k, q) :: m, i, r =>
    if i = k then (if r = recordReset then m else (k, r) :: m)
    else if i < k then (if r = recordReset then (k, q) :: m else (i, r) :: (k, q) :: m)
    else (k, q) :: setRecord m i r

/-- An FP16 channel as an unsigned float with `f` fraction bits (R186). -/
def packChannel (f c : Nat) : Nat :=
  match FFmt.fp16.val c with
  | .nan _ => 0
  | .inf neg => if neg then 0 else 31 * 2 ^ f - 1
  | .num neg m _ =>
    if neg ∨ m = 0 then 0
    else
      let n := 10 - f
      let q := c / 2 ^ n
      let r := c % 2 ^ n
      let up := decide (2 ^ (n - 1) < r) || (decide (r = 2 ^ (n - 1)) && decide (q % 2 = 1))
      min (if up then q + 1 else q) (31 * 2 ^ f - 1)

/-- The value of a packed channel as an FP32 code. -/
def unpackChannel (f c : Nat) : Nat := f32of .fp16 (c * 2 ^ (10 - f))

/-- Bits [63:32] of the record of an opaque colour (R186). -/
def packColour (rg ba : Nat) : Nat :=
  packChannel 6 (bits rg 0 16) + 2 ^ 11 * packChannel 6 (bits rg 16 16) + 2 ^ 22 * packChannel 5 (bits ba 0 16)

/-- Lexicographic order of lists of numbers. -/
def lexLt : List Nat → List Nat → Bool
  | a :: as, b :: bs => decide (a < b) || (decide (a = b) && lexLt as bs)
  | _, _ => false

/-- (z, K, RGBA) of a layer (R187). -/
def Layer.rank (l : Layer) : List Nat := [l.z, l.key, l.rgba]

/-- A layer put in its place among the layers of a store, which are kept by sample and rank. -/
def insertLayer : List Layer → Layer → List Layer
  | [], l => [l]
  | x :: xs, l => if lexLt (l.sample :: l.rank) (x.sample :: x.rank) then l :: x :: xs else x :: insertLayer xs l

/-- An INT64 sum, saturating (R187). -/
def satInt64 (x : Int) : Int := max (-(2 ^ 63)) (min (2 ^ 63 - 1) x)

/-- A layer folded into a tail (R187). -/
def Tail.fold (t : Tail) (l : Layer) : Tail :=
  let a := f32of .fp16 (bits l.rgba 48 16)
  let units (v : Nat) (k : Nat) : Int :=
    (toInt .rne (-(2 ^ 63)) (2 ^ 63 - 1) (match FFmt.fp32.val v with
      | .num n m e => .num n m (e + k)
      | x => x)).1
  let add (s : Int) (i : Nat) : Int := satInt64 (s + units (f32mul a (f32of .fp16 (bits l.rgba (16 * i) 16))) 16)
  { t with n := min (t.n + 1) (2 ^ 32 - 1), sa := (t.sa + (units a 24).toNat) % 2 ^ 64,
           scr := add t.scr 0, scg := add t.scg 1, scb := add t.scb 2,
           least := if t.n = 0 || lexLt l.rank t.least.rank then l else t.least }

/-- A layer folded into the tail of its sample; tails are kept by sample. -/
def foldTail : List Tail → Layer → List Tail
  | [], l => [({ sample := l.sample, n := 0, sa := 0, scr := 0, scg := 0, scb := 0, least := l } : Tail).fold l]
  | t :: ts, l =>
    if t.sample = l.sample then t.fold l :: ts
    else if l.sample < t.sample then
      ({ sample := l.sample, n := 0, sa := 0, scr := 0, scg := 0, scb := 0, least := l } : Tail).fold l :: t :: ts
    else t :: foldTail ts l

/-- A transparent write (R187): the seven least layers stay exact. -/
def Store.addLayer (x : Store) (l : Layer) : Store :=
  let ls := insertLayer x.layers l
  let mine := ls.filter (fun y => y.sample = l.sample)
  let x := { x with records := setRecord x.records l.sample (x.record l.sample ||| (1#128 <<< 31)) }
  if 7 < mine.length then
    match mine.getLast? with
    | some g => { x with layers := ls.erase g, tails := foldTail x.tails g }
    | none => x
  else { x with layers := ls }

/-- One sample write (R186, R187). -/
def Store.write (x : Store) (q : SampleWrite) : Store :=
  let z := q.depth.toNat
  let alpha := bits q.ba.toNat 16 16
  let positive (f : FFmt) (c : Nat) : Bool := (FFmt.fp32.val 0).lt (f.val c)
  if !(f32finite z && positive .fp32 z && positive .fp16 alpha) then x
  else if alpha < 0x3C00 then
    x.addLayer { sample := q.id, z := z, key := q.key.toNat, rgba := q.rg.toNat + 2 ^ 32 * q.ba.toNat }
  else
    let r := (x.record q.id).toNat
    let c := packColour q.rg.toNat q.ba.toNat
    if lexLt [z, q.key.toNat, c] [bits r 0 31, bits r 64 64, bits r 32 32] then
      { x with records := setRecord x.records q.id
                 (BitVec.ofNat 128 (z + bits r 31 1 * 2 ^ 31 + c * 2 ^ 32 + q.key.toNat * 2 ^ 64)) }
    else x

/-! ### Resolve (R190–R193) -/

/-- The weights of a filter record, or none when it breaks R190. -/
def filterOf (bs : List Byte) : Option (Nat × List Nat) :=
  let x := leNat bs
  let radius := bits x 0 8
  let ws := (List.range 129).map (fun i => bits x (32 + 32 * i) 32)
  if radius = 0 ∨ 128 < radius ∨ bits x 8 24 ≠ 0 ∨ ws.all f32finite = false then none else some (radius, ws)

/-- x^n by squaring and multiplying from the top set bit (R191). -/
def powInt (x n : Nat) : Nat :=
  (List.range (Nat.log2 n)).foldl (fun acc i =>
    let sq := f32mul acc acc
    if bits n (Nat.log2 n - 1 - i) 1 = 1 then f32mul sq x else sq) x

/-- A colour: R, G, B as FP32 codes. -/
abbrev Colour := Nat × Nat × Nat

def Colour.map (f : Nat → Nat) (c : Colour) : Colour := (f c.1, f c.2.1, f c.2.2)
def Colour.add (a b : Colour) : Colour := (f32add a.1 b.1, f32add a.2.1 b.2.1, f32add a.2.2 b.2.2)

/-- The colour of 64 bits of FP16 RGBA. -/
def colour16 (rgba : Nat) : Colour :=
  (f32of .fp16 (bits rgba 0 16), f32of .fp16 (bits rgba 16 16), f32of .fp16 (bits rgba 32 16))

/-- FP32 value of an integer times 2^e, exactly scaled. -/
def f32scaled (i e : Int) : Nat := f32mul (f32ofInt i) (f32 (.num { neg := false, m := 1, e := e }))

/-- Alpha and colour of a tail (R191). -/
def Tail.blend (t : Tail) : Nat × Colour :=
  let sa := f32scaled t.sa (-24)
  let m := f32div sa (f32ofInt t.n)
  let col (s : Int) : Nat := f32div (f32scaled s (-16)) sa
  (f32sub f32one (powInt (f32sub f32one m) t.n), (col t.scr, col t.scg, col t.scb))

/-- The value of a sample: colour and alpha (R191). -/
def Store.value (x : Store) (id : Nat) : Colour × Nat :=
  let r := (x.record id).toNat
  let none_ := decide (bits r 64 64 = 2 ^ 64 - 1)
  let front (z key : Nat) : Bool := none_ || lexLt [z, key] [bits r 0 31, bits r 64 64]
  let exact := (x.layers.filter (fun l => decide (l.sample = id) && front l.z l.key)).map (fun l =>
    (f32of .fp16 (bits l.rgba 48 16), colour16 l.rgba))
  let tail := (x.tails.filter (fun t => decide (t.sample = id) && decide (0 < t.n) && front t.least.z t.least.key)).map
    Tail.blend
  let (c, tr) := (exact ++ tail).foldl (fun (acc : Colour × Nat) l =>
    let w := f32mul acc.2 l.1
    (acc.1.add (l.2.map (f32mul w)), f32mul acc.2 (f32sub f32one l.1))) ((0, 0, 0), f32one)
  if none_ then (c, f32sub f32one tr)
  else
    let o : Colour := (unpackChannel 6 (bits r 32 11), unpackChannel 6 (bits r 43 11), unpackChannel 5 (bits r 54 10))
    (c.add (o.map (f32mul tr)), f32one)

/-- The filtered value of a pixel: R, G, B, A (R192). -/
def Store.pixel (x : Store) (r : Samples) (radius : Nat) (ws : List Nat) (px py : Nat) : List Nat :=
  let reach := 4 * radius
  let (num, den) := (List.range r.size).foldl (fun (acc : List Nat × Nat) id =>
    let (qx, qy, w) := r.sample id
    let (sx, sy) := samplePos qx qy w
    let dx := (sx - (256 * (px : Int) + 128)).natAbs
    let dy := (sy - (256 * (py : Int) + 128)).natAbs
    if dx ≤ reach ∧ dy ≤ reach then
      let k := f32mul (ws.getD (dx / 4) 0) (ws.getD (dy / 4) 0)
      let (c, a) := x.value id
      (List.zipWith (fun n v => f32add n (f32mul k v)) acc.1 [c.1, c.2.1, c.2.2, a], f32add acc.2 k)
    else acc) ([0, 0, 0, 0], 0)
  if (FFmt.fp32.val den).eq (FFmt.fp32.val 0) then [0, 0, 0, 0] else num.map (fun n => f32div n den)

/-- A channel as FP16: RNE, an overflow saturates, NaN becomes 0 (R193). -/
def outFp16 (c : Nat) : Nat := if f32isNan c then 0 else (FFmt.fp16.result .rne false true (FFmt.fp32.val c).res).1

/-- A channel clamped to [0, 1], scaled and rounded half to even (R193). -/
def outUnorm (scale c : Nat) : Nat :=
  match FFmt.fp32.val c with
  | .nan _ => 0
  | .inf neg => if neg then 0 else scale
  | .num neg m e => if neg then 0 else (min (scale : Int) (roundInt .rne false (m * scale) e).1).toNat

/-- The bytes of a pixel in an output format (R193). -/
def pixelBytes (fmt : Nat) (p : List Nat) : List Byte :=
  let c (i : Nat) : Nat := p.getD i 0
  if fmt = 0 then (List.range 4).flatMap (fun i => toLe 2 (outFp16 (c i)))
  else toLe 4 (outUnorm 1023 (c 0) + 2 ^ 10 * outUnorm 1023 (c 1) + 2 ^ 20 * outUnorm 1023 (c 2) +
    2 ^ 30 * outUnorm 3 (c 3))

end Sys2Proof.Machine
end

