-- ==== Sys2Proof/Machine/Rays.lean ====
section
/-!
DEFINITION. Traversal of bounding-volume hierarchies (07 R194–R203). FP32 values are codes.
-/

namespace Sys2Proof.Machine

/-- A ray (R197): origin, direction, limits, mode, and the core, function and device that read for it. -/
structure Ray where
  o : Point
  d : Point
  tmin : Nat
  tmax : Nat
  any : Bool
  core : Nat
  vf : Nat
  dev : Nat
  /-- Depth that a push may not exceed: STACK − 5 (R200). -/
  depth : Int
  deriving DecidableEq, Repr

/-- A record of 64 bytes as it stands, or what stops the read (R201, R202). -/
inductive RecordRes where
  | ok (x : Nat) (canon : Nat)
  | fault
  | poisoned
  | park (p : Parked) (va : Nat)
  deriving DecidableEq, Repr

/-- The read of a node or a triangle by the ray unit of a core. -/
def State.rayRecord (s : State) (r : Ray) (va : Nat) : RecordRes :=
  if 2 ^ 49 ≤ va ∨ bits va 40 9 = 0x1FF then .fault
  else
    match s.translate (some r.core) (some (r.core / 64)) r.vf r.dev va .read with
    | .fault => .fault
    | .replay => .park (.page (va / 4096)) va
    | .migrating leaf => .park (.move leaf) va
    | .ok _ canon _ _ _ =>
      if s.badLine (lineOf canon) then .poisoned else .ok (s.readNat canon 64) canon

/-- invd of an axis (R197): ±0 gives ±∞. -/
def invOf (d : Nat) : Nat := f32div f32one d

/-- A plane of a quantised box: O + q × 2^E, rounded once (R195). -/
def planeOf (rnd : Rnd) (o q e : Nat) : Nat :=
  f32r rnd (addVal rnd (FFmt.fp32.val o) (.num false q (BitVec.ofNat 8 e).toInt))

/-- Near and far values of an axis (R197). -/
def slab (o inv lo hi : Nat) : Nat × Nat :=
  let v (r : Rnd) (p : Nat) : Nat := f32mulR r (f32subR r p o) inv
  let nan (r : Rnd) : Bool := f32isNan (v r lo) || f32isNan (v r hi)
  (if nan .rdn then f32ninf else f32min (v .rdn lo) (v .rdn hi),
   if nan .rup then f32inf else f32max (v .rup lo) (v .rup hi))

/-- tnear of a child box of a node, when it is hit (R195, R197). -/
def boxHit (r : Ray) (tcur node i : Nat) : Option Nat :=
  let b := bits node (128 + 48 * i) 48
  let q (k : Nat) : Nat := bits b (8 * k) 8
  if q 3 < q 0 ∨ q 4 < q 1 ∨ q 5 < q 2 then none
  else
    let axis (a : Nat) (o d : Nat) : Nat × Nat :=
      let org := bits node (32 * a) 32
      let e := bits node (96 + 8 * a) 8
      slab o (invOf d) (planeOf .rdn org (q a) e) (planeOf .rup org (q (3 + a)) e)
    let x := axis 0 r.o.x r.d.x
    let y := axis 1 r.o.y r.d.y
    let z := axis 2 r.o.z r.d.z
    let tnear := f32max (f32max (f32max r.tmin x.1) y.1) z.1
    let tfar := f32min (f32min (f32min tcur x.2) y.2) z.2
    if f32le tnear tfar then some tnear else none

/-- A child reference of a node, and its KIND (R195). -/
def childRef (node i : Nat) : Nat := bits node (320 + 48 * i) 48
def refKind (c : Nat) : Nat := bits c 46 2
def refCount (c : Nat) : Nat := bits c 43 3
def refVa (c : Nat) : Nat := bits c 0 43 * 64

/-- A node that ends the trace with BADNODE (R201): a child of KIND 3, or a reserved field that is not zero. -/
def nodeBad (node : Nat) : Bool :=
  decide (bits node 120 8 ≠ 0) ||
    (List.range 4).any (fun i => decide (refKind (childRef node i) = 3) ||
      (decide (refKind (childRef node i) = 1) && decide (refCount (childRef node i) ≠ 0)))

/-- The hit children in the order of (tnear, index) (R199). -/
def hitChildren (r : Ray) (tcur node : Nat) : List (Nat × Nat) :=
  let hs := (List.range 4).filterMap (fun i =>
    if refKind (childRef node i) = 0 then none else (boxHit r tcur node i).map (fun t => (t, childRef node i)))
  let rec insert (x : Nat × Nat) : List (Nat × Nat) → List (Nat × Nat)
    | [] => [x]
    | y :: ys => if f32lt x.1 y.1 then x :: y :: ys else y :: insert x ys
  hs.foldl (fun l x => insert x l) []

/-- The upper half of an FP32 value rounded toward −∞ (R200). -/
def tnearHalf (t : Nat) : Nat := if 2 ^ 31 ≤ t ∧ t % 2 ^ 16 ≠ 0 then t / 2 ^ 16 + 1 else t / 2 ^ 16

/-- The pop of a stack (R199): entries whose stored tnear exceeds tcur are discarded. -/
def popRay (tcur : Nat) : List (Nat × Nat) → Option (Nat × List (Nat × Nat))
  | [] => none
  | (c, t) :: rest => if f32lt tcur (t * 2 ^ 16) then popRay tcur rest else some (c, rest)

/-- A trace goes on with its stack, or ends (R199, R201). -/
def RayState.next (x : RayState) : RayEnd :=
  match popRay x.tcur x.stack with
  | some (c, rest) => .running { x with ref := some c, tri := 0, stack := rest }
  | none => .ended (if x.held.isSome then 1 else 0) x.held

def pSub (p q : Point) : Point := Point.map2 f32sub p q
/-- (ax × bx + ay × by) + az × bz. -/
def dot (a b : Point) : Nat := f32add (f32add (f32mul a.x b.x) (f32mul a.y b.y)) (f32mul a.z b.z)
def cross (a b : Point) : Point :=
  (f32sub (f32mul a.y b.z) (f32mul a.z b.y), f32sub (f32mul a.z b.x) (f32mul a.x b.z),
   f32sub (f32mul a.x b.y) (f32mul a.y b.x))

/-- The hit of a triangle record (R198). -/
def triangleHit (r : Ray) (tcur x : Nat) : Option RayHit :=
  let v0 := pointAt x 0
  let e1 := pSub (pointAt x 1) v0
  let e2 := pSub (pointAt x 2) v0
  let p := cross r.d e2
  let det := dot e1 p
  if (FFmt.fp32.val det).eq (FFmt.fp32.val 0) then none
  else
    let inv := f32div f32one det
    let s := pSub r.o v0
    let b1 := f32mul (dot s p) inv
    let q := cross s e1
    let b2 := f32mul (dot r.d q) inv
    let t := f32mul (dot e2 q) inv
    if f32le 0 b1 && f32le 0 b2 && f32le (f32add b1 b2) f32one && f32le r.tmin t && f32le t tcur then
      some { t := t, b1 := b1, b2 := b2, prim := bits x 288 32, geom := bits x 320 32 }
    else none

/-- A hit is accepted in CLOSEST mode (R198). -/
def acceptHit (held : Option RayHit) (h : RayHit) : Bool :=
  match held with
  | none => true
  | some k => f32lt h.t k.t || (!f32lt k.t h.t && lexLt [h.geom, h.prim] [k.geom, k.prim])

/-- A node as it was read: its nearest hit child is visited next and the others are pushed (R199–R201). -/
def RayState.node (x : RayState) (r : Ray) (node : Nat) : RayEnd :=
  if nodeBad node then .ended 3 x.held
  else
    match hitChildren r x.tcur node with
    | [] => x.next
    | (_, c0) :: rest =>
      let pushed := rest.map (fun p => (p.2, tnearHalf p.1)) ++ x.stack
      if rest ≠ [] ∧ r.depth < (pushed.length : Int) then .ended 2 x.held
      else .running { x with ref := some c0, tri := 0, stack := pushed }

/-- A triangle record as it was read: the leaf goes on with the next of its `last` + 1 records, or the trace pops (R198–R201). -/
def RayState.triangle (x : RayState) (r : Ray) (last rec : Nat) : RayEnd :=
  let on (y : RayState) : RayEnd := if y.tri < last then .running { y with tri := y.tri + 1 } else y.next
  if bits rec 352 160 ≠ 0 then .ended 3 x.held
  else
    match triangleHit r x.tcur rec with
    | none => on x
    | some h =>
      if r.any then .ended 1 (some h)
      else if acceptHit x.held h then on { x with held := some h, tcur := h.t } else on x

/-- The record that a traversal reads next (R195, R199): its address, and whether it is a triangle of a leaf. -/
def RayState.nextRead (x : RayState) (c : Nat) : Nat := refVa c + (if refKind c = 2 then 64 * x.tri else 0)

/-- What one read of a traversal comes to. -/
inductive RayStep where
  /-- It goes on or ends, having read a line, if any. -/
  | on (e : RayEnd) (line : Option Nat)
  | parks (p : Parked) (va : Nat)
  deriving DecidableEq, Repr

/-- One read of a traversal, of the record as it stands (R199–R203). -/
def RayState.step (s : State) (r : Ray) (x : RayState) : RayStep :=
  match x.ref with
  | none => .on x.next none
  | some c =>
    if refKind c = 3 then .on (.ended 3 x.held) none
    else
      match s.rayRecord r (x.nextRead c) with
      | .fault => .on (.ended 3 x.held) none
      | .poisoned => .on .poisoned none
      | .park p v => .parks p v
      | .ok rec canon =>
        .on (if refKind c = 2 then x.triangle r (refCount c) rec else x.node r rec) (some (lineOf canon))

/-- The reference under which a root stands: one of KIND 1, or for an address outside the virtual space, whose read meets an
unmapped fault, one of KIND 3, which ends the trace alike (R201, R231). -/
def rootRef (root : Nat) : Nat := (if root < 2 ^ 49 then 1 else 3) * 2 ^ 46 + root / 64 % 2 ^ 43

/-- A trace at its root (R199). -/
def RayState.start (tmax root : Nat) : RayState := { ref := some (rootRef root), tri := 0, stack := [], tcur := tmax, held := none }

/-- The six result words of a trace (R482). -/
def rayResult (status : Nat) (held : Option RayHit) : List Nat :=
  match held with
  | some h => [status, h.t, h.b1, h.b2, h.prim, h.geom]
  | none => [status, f32inf, 0, 0, 0xFFFFFFFF, 0xFFFFFFFF]

/-! ### Rays in the ray unit (R200, R202, R204, R481) -/

/-- A word of a captured ray: 0–2 the origin, 3–5 the direction, 6 and 7 the limits, 8 and 9 the pair b. -/
def LaneRay.word (x : LaneRay) (i : Nat) : Nat := (x.words.getD i 0).toNat

/-- The ray of a lane (R197, R481). -/
def LaneRay.ray (x : LaneRay) (core vf dev : Nat) (depth : Int) : Ray :=
  { o := (x.word 0, x.word 1, x.word 2), d := (x.word 3, x.word 4, x.word 5), tmin := x.word 6, tmax := x.word 7,
    any := decide (bits (x.word 8) 0 1 = 1), core := core, vf := vf, dev := dev, depth := depth }

/-- A ray at its start (R199, R481). -/
def LaneRay.start (lane : Nat) (words : List Word) : LaneRay :=
  let x : LaneRay := { lane := lane, words := words, st := .poisoned, parkedOn := none }
  { x with st := .running (RayState.start (x.word 7) ((x.word 8 + 2 ^ 32 * x.word 9) / 64 * 64)) }

/-- A ray is in flight. -/
def LaneRay.inFlight (x : LaneRay) : Bool :=
  match x.st with
  | .running _ => true
  | _ => false

/-- A stack entry (R200): bits [63:16] the reference, bits [15:0] the stored tnear. -/
def entryBits (e : Nat × Nat) : Nat := packBits [(16, e.2), (48, e.1)]

/-- The entries of a ray that stand in the ray-stack area before pre-emption: all but the top eight, entry 0 the bottom one
(R200). -/
def RayState.displaced (x : RayState) : List Nat := ((x.stack.drop 8).reverse).map entryBits

/-- The five top entries of a ray's stack at pre-emption (R204; log entry 53): the current reference; tcur and the held t; PRIM
and GEOM; b1 and b2; the depth, with the triangle that comes next, whether a hit is held, and how the trace stands. -/
def LaneRay.topEntries (x : LaneRay) : List Nat :=
  let hit (h : Option RayHit) : RayHit := h.getD { t := 0, b1 := 0, b2 := 0, prim := 0, geom := 0 }
  let five (ref tcur : Nat) (h : Option RayHit) (depth tri st : Nat) : List Nat :=
    [packBits [(48, ref)], packBits [(32, tcur), (32, (hit h).t)], packBits [(32, (hit h).prim), (32, (hit h).geom)],
     packBits [(32, (hit h).b1), (32, (hit h).b2)], packBits [(32, depth), (8, tri), (1, if h.isSome then 1 else 0), (4, st)]]
  match x.st with
  | .running y => five (y.ref.getD 0) y.tcur y.held y.stack.length y.tri 0
  | .ended st h => five 0 0 h 0 0 (1 + st)
  | .poisoned => five 0 0 none 0 0 15

/-- The STACK entries of a lane of a stopped team: its stack from the bottom, zeros, and the five top entries (R204). -/
def LaneRay.image (x : LaneRay) (stack : Nat) : List Nat :=
  let es := match x.st with
    | .running y => y.stack.reverse.map entryBits
    | _ => []
  es ++ List.replicate (stack - 5 - es.length) 0 ++ x.topEntries

/-- A ray read back from the entries of its lane (R204, R308); with STACK below 6 it starts again. -/
def LaneRay.ofImage (x : LaneRay) (stack : Nat) (es : List Nat) : LaneRay :=
  if stack < 6 then LaneRay.start x.lane x.words
  else
    let e (i : Nat) : Nat := es.getD (stack - 5 + i) 0
    let held : Option RayHit :=
      if bits (e 4) 40 1 = 1 then
        some { t := bits (e 1) 32 32, b1 := bits (e 3) 0 32, b2 := bits (e 3) 32 32, prim := bits (e 2) 0 32, geom := bits (e 2) 32 32 }
      else none
    let st : RayEnd := match bits (e 4) 41 4 with
      | 0 => .running
        { ref := if bits (e 0) 0 48 = 0 then none else some (bits (e 0) 0 48), tri := bits (e 4) 32 8,
          stack := ((es.take (bits (e 4) 0 32)).map (fun x => (bits x 16 48, bits x 0 16))).reverse,
          tcur := bits (e 1) 0 32, held := held }
      | 15 => .poisoned
      | n => .ended (n - 1) held
    { x with st := st, parkedOn := none }

end Sys2Proof.Machine
end

