-- ==== Sys2Proof/Machine/Texture.lean ====
section
/-!
DEFINITION. Texture descriptors, levels and filtering (19 R483–R485). FP32 values are codes.
-/

namespace Sys2Proof.Machine

/-- A texture descriptor (R483). -/
structure Texture where
  fmt : Nat
  bilinear : Bool
  wrapU : Nat
  wrapV : Nat
  levels : Nat
  w : Nat
  h : Nat
  pitch : Nat
  base : Nat
  deriving DecidableEq, Repr

/-- The texture of a descriptor of 256 bits, or none when it has a reserved code or bit (R483). -/
def textureOf (x : Nat) : Option Texture :=
  if 3 < bits x 0 4 ∨ bits x 5 2 = 3 ∨ bits x 7 2 = 3 ∨ bits x 9 4 = 15 ∨ bits x 13 1 ≠ 0 ∨ bits x 58 6 ≠ 0 ∨
      bits x 106 150 ≠ 0 then none
  else some { fmt := bits x 0 4, bilinear := decide (bits x 4 1 = 1), wrapU := bits x 5 2, wrapV := bits x 7 2,
              levels := bits x 9 4, w := bits x 14 14 + 1, h := bits x 28 14 + 1, pitch := bits x 42 16,
              base := bits x 64 42 * 128 }

/-- Bytes of a texel. -/
def Texture.bytes (x : Texture) : Nat :=
  match x.fmt with
  | 1 => 8 | 3 => 16 | _ => 4

def Texture.levelW (x : Texture) (k : Nat) : Nat := max 1 (x.w / 2 ^ k)
def Texture.levelH (x : Texture) (k : Nat) : Nat := max 1 (x.h / 2 ^ k)
def Texture.levelPitch (x : Texture) (k : Nat) : Nat :=
  if k = 0 then 128 * x.pitch else (x.levelW k * x.bytes + 127) / 128 * 128

/-- Start of a level (R483). -/
def Texture.start (x : Texture) : Nat → Nat
  | 0 => x.base
  | k + 1 => x.start k + x.levelPitch k * x.levelH k

/-- A wrapped integer coordinate (R483). -/
def wrapTexel (mode : Nat) (i : Int) (w : Nat) : Nat :=
  match mode with
  | 0 => (i % w).toNat
  | 1 => (min (max i 0) (w - 1)).toNat
  | _ =>
    let m := (i % (2 * w)).toNat
    if m < w then m else 2 * w - 1 - m

/-- VA of a texel of a level. -/
def Texture.va (x : Texture) (k : Nat) (i j : Int) : Nat :=
  x.start k + wrapTexel x.wrapV j (x.levelH k) * x.levelPitch k + wrapTexel x.wrapU i (x.levelW k) * x.bytes

/-- R, G, B, A of a texel from its bytes (R483). -/
def Texture.texel (x : Texture) (v : Nat) : List Nat :=
  match x.fmt with
  | 0 => (List.range 4).map (fun c => f32div (f32ofInt (bits v (8 * c) 8)) (f32ofInt 255))
  | 1 => (List.range 4).map (fun c => f32of .fp16 (bits v (16 * c) 16))
  | 2 => [v, 0, 0, f32one]
  | _ => (List.range 4).map (fun c => bits v (32 * c) 32)

/-- Where a level is sampled (R484): nothing, one texel, or four with the fractions in 1/256. -/
inductive Footprint where
  | none
  | one (i j : Int)
  | four (i j : Int) (fx fy : Nat)
  deriving DecidableEq, Repr

/-- floor of an FP32 number, and 256 times its fraction rounded half to even. -/
def floorFrac (c : Nat) : Int × Nat :=
  match FFmt.fp32.val c with
  | .num n m e =>
    let i := (roundInt .rdn n m e).1
    (i, ((roundInt .rne n m (e + 8)).1 - 256 * i).toNat)
  | _ => (0, 0)

/-- The footprint of (u, v) on a level (R484). -/
def Texture.footprint (x : Texture) (k u v : Nat) : Footprint :=
  let pu := f32mul u (f32ofInt (x.levelW k))
  let pv := f32mul v (f32ofInt (x.levelH k))
  let small (c : Nat) : Bool := f32lt (f32abs c) (f32ofInt (2 ^ 24))
  if !(f32finite u && f32finite v && small pu && small pv) then .none
  else
    let a := f32sub pu f32half
    let b := f32sub pv f32half
    if x.bilinear then
      let (i, fx) := floorFrac a
      let (j, fy) := floorFrac b
      .four i j fx fy
    else .one (f32floor (f32add a f32half)) (f32floor (f32add b f32half))

/-- The texels that a footprint reads, by VA. -/
def Texture.reads (x : Texture) (k : Nat) : Footprint → List Nat
  | .none => []
  | .one i j => [x.va k i j]
  | .four i j _ _ => [x.va k i j, x.va k (i + 1) j, x.va k i (j + 1), x.va k (i + 1) (j + 1)]

/-- A colour of a level from its texels (R484). -/
def Texture.colour (x : Texture) (k : Nat) (f : Footprint) (read : Nat → Nat) : List Nat :=
  let t (i j : Int) : List Nat := x.texel (read (x.va k i j))
  match f with
  | .none => [0, 0, 0, 0]
  | .one i j => t i j
  | .four i j fx fy =>
    let w (n m : Nat) : Nat := f32div (f32ofInt ((n * m : Nat) : Int)) (f32ofInt 65536)
    let part (n m : Nat) (c : List Nat) : List Nat := c.map (f32mul (w n m))
    let sum (a b : List Nat) : List Nat := List.zipWith f32add a b
    sum (sum (sum (part (256 - fx) (256 - fy) (t i j)) (part fx (256 - fy) (t (i + 1) j)))
      (part (256 - fx) fy (t i (j + 1)))) (part fx fy (t (i + 1) (j + 1)))

/-- l0, l1 and f in 1/256 of a level of detail (R485). -/
def Texture.lod (x : Texture) (l : Nat) : Nat × Nat × Nat :=
  let c := if f32isNan l || f32lt l 0 then 0 else f32min l (f32ofInt x.levels)
  let (i, f) := floorFrac c
  (i.toNat, min (i.toNat + 1) x.levels, f)

/-- c0 + f × (c1 − c0) per channel (R485). -/
def mixColour (f : Nat) (a b : List Nat) : List Nat :=
  let k := f32div (f32ofInt f) (f32ofInt 256)
  List.zipWith (fun p q => f32add p (f32mul k (f32sub q p))) a b

end Sys2Proof.Machine
end

