-- ==== Sys2Proof/Machine/Render.lean ====
section
/-!
DEFINITION. The render and ray instructions, opcodes 0xE0 to 0xED (19_isa_render_ray.md R468–R487).
-/

namespace Sys2Proof.Machine

/-! ### Ownership and grid accesses (R469, R475, R476) -/

/-- BUCKET_OWNER in some lanes (R175). -/
def bucketOwner (s : State) (lanes : Mask) (dest : BitVec 8) : Done :=
  .trap s { cause := .bucketOwner, lanes := lanes, dest := dest, flags := 0 }

/-- An instruction that needs an owned bucket: BUCKET_OWNER without one (R469). -/
def withStore (s : State) (g : Group) (lanes : Mask) (dest : BitVec 8) (k : Store → Nat → Done) : Done :=
  match s.ownedStore g.team with
  | none => bucketOwner s lanes dest
  | some x => k x (((s.storeFrame x).map (·.desc)).getD 0)

/-- Where the access of a lane to a grid leads (R475). -/
def State.gridTarget (s : State) (c : Ctx) (x : Store) (lane handle : Nat) (o : Int) (size : Nat) (k : Access) :
    LaneTarget :=
  match x.grid? handle with
  | none => .cause lane .badHandle
  | some gr =>
    if o < 0 ∨ (gridBytes gr.nu gr.nv : Int) - size < o then .cause lane .badHandle
    else if o.toNat % size ≠ 0 then .cause lane .misalignedData
    else
      match gr.spill with
      | some va => s.resolveVa c lane (BitVec.ofNat 64 (va + o.toNat)) size k false false
      | none => .hit { lane := lane, space := .grid x.core, addr := 65536 * gr.place + o.toNat, plain := false,
                       leaf := none }

/-- Handle and offset of a lane (R475). -/
def gridHandle (w : Word) : Nat := bits w.toNat 16 16
def gridOffset (w : Word) (off : BitVec 6) (size : Nat) : Int := (bits w.toNat 0 16 : Nat) + off.toInt * size

/-- The last producer of a group changed. -/
def Group.modLast (g : Group) (f : Producer → Producer) : Group :=
  match g.producers.getLast? with
  | some p => { g with producers := g.producers.dropLast ++ [f p] }
  | none => g

/-- A change to the state that an effect leaves. -/
def Done.andThen (d : Done) (f : State → State) : Done :=
  match d with
  | .next s n => .next (f s) n
  | x => x

/-- GLD (R475). -/
def execGld (d a : RegName) (sz : AccSize) (off : BitVec 6) (ta : Bool) : State → Host.Outcome State Fault Refusal :=
  issue (fun g =>
    let n := sz.names
    wordOp [(a, ta)] (spanNames d n) (g.spanOk d n n && g.spanOk a 1 1) (g.generalSpan d n) (destOf d)
      (fun s g b active =>
        withStore s g active (destOf d) (fun x _ =>
          let c := s.ctx g
          let ls := lanesOf g.width active
          afterResolve s g c .read (destOf d)
            (ls.map (fun l => s.gridTarget c x l (gridHandle (g.word a l)) (gridOffset (g.word a l) off sz.bytes)
              sz.bytes .read))
            (fun hs _ =>
              (loadHits s g b c d n sz.bytes active false (accessCycles g active sz.bytes) (loadConv sz.bytes false)
                hs).andThen (fun s' => s'.modGroup g.id (fun g' => g'.modLast (fun p =>
                  { p with grids := (ls.map (fun l => gridHandle (g.word a l))).eraseDups })))))))

/-- Bits of a grid byte that `gst` leaves alone (R476). -/
def gridKeep (o : Nat) : Byte :=
  if o < 64 then 0xFF
  else
    match (o - 64) % 48 with
    | 36 | 37 | 38 | 39 | 43 => 0xFF
    | 42 => 0xFD
    | _ => 0

/-- GST (R475, R476). -/
def execGst (d a : RegName) (sz : AccSize) (off : BitVec 6) (ta k : Bool) : State → Host.Outcome State Fault Refusal :=
  issue (fun g =>
    let n := sz.names
    wordOp (srcSpan d n k ++ [(a, ta)]) [] (g.spanOk d n n && g.spanOk a 1 1) true 0xFF
      (fun s g b active =>
        withStore s g active 0xFF (fun x _ =>
          let c := s.ctx g
          let ls := lanesOf g.width active
          afterResolve s g c .write 0xFF
            (ls.map (fun l => s.gridTarget c x l (gridHandle (g.word a l)) (gridOffset (g.word a l) off sz.bytes)
              sz.bytes .write))
            (fun hs _ =>
              let data (h : Hit) : QWrite :=
                { space := h.space, addr := h.addr, data := toLe sz.bytes (g.unit d n h.lane),
                  keep := (List.range sz.bytes).map (fun i =>
                    gridKeep ((gridOffset (g.word a h.lane) off sz.bytes).toNat + i)) }
              (storeHits s g b c (accessCycles g active sz.bytes) data hs).andThen (fun s' =>
                s'.modGroup g.id (fun g' => g'.modWindow (fun w =>
                  { w with grids := (w.grids ++ ls.map (fun l => gridHandle (g.word a l))).eraseDups })))))))

/-! ### Producers that read several places (R265, R477, R484) -/

/-- A producer whose result is made of what some accesses read, as `loadHits` makes it: `k` takes the reader and the
group and gives the group with the result. -/
def gatherHits (s : State) (g : Group) (b : Bool) (c : Ctx) (dest : BitVec 8) (kind : ProdKind) (names : List RegName)
    (cycles bytes : Nat) (hs : List Hit) (k : (Hit → Nat) → Group → Option Group) : Done :=
  withLines s g hs false (fun s1 =>
    let g1 := s1.again g
    let ks := hitKeys hs
    let direct := g1.window.isNone && hs.all (fun h => !h.plain && s1.readable g1 h.key)
    let g2 := if direct then g1 else (g1.openWindow b).note ks [] [] 0
    let s2 := (s1.setGroup g2).usedHits c hs
    Done.undone s (pendGroup s2 g2 b dest kind names (k (fun h => s2.peek g2.queued h.space h.addr bytes) g2) cycles
      (hs.any s2.poisoned) (!direct) (s2.missing g.core ks)))

/-! ### Rasterisation (R477, R478) -/

/-- The writes of a rasterisation: samples by active lane in ascending order, and the token, which is written in
every live lane (R477). -/
def rastResult (d b : RegName) (active : Mask) (covered : List (Nat × Nat × Nat)) (g : Group) : Option Group :=
  let ls := lanesOf g.width active
  let pick (l : Nat) : Nat × Nat × Nat := covered.getD ((ls.takeWhile (· ≠ l)).length) (0xFFFFFFFF, f32inf, 0)
  let value (f : Nat × Nat × Nat → Nat) : RegVal := .ofLanes g.width (fun l => BitVec.ofNat 32 (f (pick l)))
  let token : Word :=
    match covered[ls.length]? with
    | some x => BitVec.ofNat 32 (x.1 + 1)
    | none => 0
  (g.writeAll [(d, value (·.1)), (d + 1, value (·.2.1)), (d + 2, value (·.2.2))] active).map (fun g' => g'.putLive b token)

/-- The samples from the token's on (R477). -/
def coveredToken (r : Samples) (cs : List Corner) (token : Nat) : List (Nat × Nat × Nat) :=
  if token = 0 then [] else coveredFrom r cs (token - 1)

/-- The three 16-byte parts of a vertex record (R166). -/
def vertexParts (nu i j : Nat) : List Nat := (List.range 3).map (fun p => 64 + 48 * (i + (nu + 1) * j) + 16 * p)

/-- The effect of `rast5` (R477). -/
def rast5Effect (d a b : RegName) (s : State) (g : Group) (sl : Bool) (active : Mask) : Done :=
  needUniform s g sl (destOf d) [(a, 1), (b, 1)]
    (withStore s g active (destOf d) (fun x desc =>
      let av := (g.word a 0).toNat
      let bad : Done := .trap s { cause := .badHandle, lanes := active, dest := destOf d, flags := 0 }
      match x.grid? (bits av 16 16) with
      | none => bad
      | some gr =>
        let m := bits av 0 10
        if bits av 10 6 ≠ 0 ∨ gr.nu * gr.nv ≤ m then bad
        else
          let iu := m % gr.nu
          let iv := m / gr.nu
          let offs := [(iu, iv), (iu + 1, iv), (iu + 1, iv + 1), (iu, iv + 1)].flatMap (fun p =>
            vertexParts gr.nu p.1 p.2)
          let c := s.ctx g
          afterResolve s g c .read (destOf d)
            (offs.flatMap (fun (o : Nat) => everyLane g active (s.gridTarget c x 0 gr.handle (o : Int) 16 .read)))
            (fun hs _ =>
              (gatherHits s g sl c (destOf d) .raster [d, d + 1, d + 2, b] (max 4 (popLanes g.width active)) 16 hs
                (fun read g' =>
                  let ps := hs.map read
                  let rec_ (i : Nat) : Nat := ps.getD (3 * i) 0 + 2 ^ 128 * ps.getD (3 * i + 1) 0 +
                    2 ^ 256 * ps.getD (3 * i + 2) 0
                  let cs := (List.range 4).map (fun i => cornerOf (rec_ i))
                  rastResult d b active
                    (if cs.all (·.2) then coveredToken (x.region desc) (cs.map (·.1)) (g.word b 0).toNat else []) g')).andThen
                (fun s' => s'.modGroup g.id (fun g' => g'.modLast (fun p => { p with grids := [gr.handle] }))))))

/-- The issue record of `rast5` and `rast3`. -/
def rastOp (d a b : RegName) (n : Nat) (ta tb : Bool) (body : State → Group → Bool → Mask → Done) (g : Group) : Op :=
  wordOp (srcSpan a n ta ++ [(b, tb)]) [d, d + 1, d + 2, b] (g.spanOk d 3 1 && g.spanOk a n 1 && g.spanOk b 1 1)
    (g.generalSpan d 3) (destOf d) body

/-- RAST5 (R477). -/
def execRast5 (d a b : RegName) (ta tb : Bool) : State → Host.Outcome State Fault Refusal :=
  issue (rastOp d a b 1 ta tb (rast5Effect d a b))

/-- The corners of `rast3` (R478). -/
def rast3Corners (w : List Word) : List Corner :=
  let f (i : Nat) : Nat := (w.getD i 0).toNat
  [(0, 0, 0), (3, f32one, 0), (6, 0, f32one)].map (fun p =>
    let v : Point := (f p.1, f (p.1 + 1), f (p.1 + 2))
    { p0 := v, p1 := v, c0 := 0, c1 := 0, s := p.2.1, t := p.2.2 })

/-- RAST3 (R478). -/
def execRast3 (d a b : RegName) (ta tb : Bool) : State → Host.Outcome State Fault Refusal :=
  issue (rastOp d a b 9 ta tb (fun s g sl active =>
    needUniform s g sl (destOf d) [(a, 9), (b, 1)]
      (withStore s g active (destOf d) (fun x desc =>
        let w := g.descriptor a 9
        let cov := if w.all (fun v => f32finite v.toNat) then
          coveredToken (x.region desc) (rast3Corners w) (g.word b 0).toNat else []
        if (s.accessWaits g []).isSome then .wait .retry
        else pendGroup s g sl (destOf d) .raster [d, d + 1, d + 2, b] (rastResult d b active cov g)
          (max 4 (popLanes g.width active)) false g.window.isSome []))))

/-! ### Sample writes (R479) -/

/-- SWR (R479, R189): the writes go with the window. -/
def execSwr (d a : RegName) (ta k : Bool) : State → Host.Outcome State Fault Refusal :=
  issue (fun g =>
    wordOp (srcSpan d 4 k ++ srcSpan a 2 ta) [] (g.spanOk d 4 4 && g.spanOk a 2 2) true 0xFF (fun s g b active =>
      withStore s g active 0xFF (fun x desc =>
        let ls := (lanesOf g.width active).filter (fun l => g.word d l ≠ 0xFFFFFFFF)
        let out := maskWhere g.width (fun l => ls.contains l && decide ((x.region desc).size ≤ (g.word d l).toNat))
        let ws : List SampleWrite := ls.map (fun l =>
          { id := (g.word d l).toNat, depth := g.word (d + 1) l, rg := g.word (d + 2) l, ba := g.word (d + 3) l,
            key := g.pair a l })
        let cycles := max 4 (popLanes g.width active)
        let layers := ls.any (fun l => bits (g.word (d + 3) l).toNat 16 16 < 0x3C00)
        if out ≠ 0 then bucketOwner s out 0xFF
        else if let some c := (if layers then s.recordFault x desc (((s.team? g.team).map (·.launch)).getD 0) else none) then
          .trap s { cause := c, lanes := active, dest := 0xFF, flags := 0 }
        else if ws = [] then .next s cycles
        else if (s.accessWaits g []).isSome then .wait .retry
        else .next (s.setGroup ((g.openWindow b).modWindow (fun w => { w with samples := w.samples ++ ws }))) cycles)))

/-! ### Binning, dicing and resolve (R472, R473, R480) -/

/-- BIN (R472). -/
def execBin (a : RegName) (ta : Bool) : State → Host.Outcome State Fault Refusal :=
  issue (descOp a 3 1 ta false false (fun s g b _ ws =>
    if dq ws 0 % 16 ≠ 0 ∨ 3 < dw ws 2 then badDescriptor s g b else defer s g (s.ctx g) (.bin a ta) .bin ws [] 1))

/-- `dice` operations of a team that have not reached their single points (R473). -/
def State.dicesOf (s : State) (team : Nat) : Nat :=
  (s.ops.filter (fun o => o.team = team && o.kind = .dice)).length +
    (s.teamGroups team).foldl (fun n g =>
      match g.window with
      | some w => n + (w.deferred.filter (fun o => o.kind = .dice)).length
      | none => n) 0

/-- DICE (R473). -/
def execDice (a : RegName) (ta : Bool) : State → Host.Outcome State Fault Refusal :=
  issue (descOp a 4 1 ta false false (fun s g b _ ws =>
    withStore s g (g.slot b).mask 0xFF (fun x _ =>
      let c := s.ctx g
      if dq ws 0 % 16 ≠ 0 ∨ 2 ^ 17 ≤ dw ws 2 ∨ dw ws 3 % 8 ≠ 0 ∨ c.bytes < dw ws 3 + 8 ∨
          256 ≤ x.grids.length + s.dicesOf g.team then badDescriptor s g b
      else defer s g c (.dice a ta) .dice ws [] 1)))

/-- RESOLVE (R480). -/
def execResolve (a : RegName) (ta : Bool) : State → Host.Outcome State Fault Refusal :=
  issue (descOp a 6 1 ta false false (fun s g b _ ws =>
    withStore s g (g.slot b).mask 0xFF (fun _ _ =>
      let align := if bits (dw ws 3) 0 1 = 0 then 8 else 4
      if dq ws 0 % align ≠ 0 ∨ dw ws 2 % align ≠ 0 ∨ bits (dw ws 3) 1 31 ≠ 0 ∨ dq ws 4 % 128 ≠ 0 then
        badDescriptor s g b
      else defer s g (s.ctx g) (.resolve a ta) .resolve ws [] 1)))

/-! ### Rays (R481, R482, R202) -/

/-- Rays in flight on a core (R202). -/
def State.raysOf (s : State) (core : Nat) : Nat :=
  s.groups.foldl (fun n g =>
    if g.core = core then g.producers.foldl (fun n p => n + (p.rays.filter LaneRay.inFlight).length) n else n) 0

/-- The ray unit of a core takes rays: the 512th in flight asks for leave (R112). -/
def State.takeRays (s : State) (core n : Nat) : State :=
  if 512 ≤ s.raysOf core + n ∧ s.leaves.any (fun l => decide (l.who = .burst core)) = false then
    { s with leaves := s.leaves ++ [({ die := core / 64, units := 4, who := .burst core, granted := false } : Leave)] }
  else s

/-- TRACE (R481): the rays are captured; their reads are events of the producer (R202). -/
def execTrace (d a b : RegName) (ta tb : Bool) : State → Host.Outcome State Fault Refusal :=
  issue (fun g =>
    wordOp (srcSpan a 8 ta ++ srcSpan b 2 tb) (spanNames d 6) (g.spanOk d 6 2 && g.spanOk a 8 4 && g.spanOk b 2 2)
      (g.generalSpan d 6) (destOf d) (fun s g sl active =>
        let ls := lanesOf g.width active
        let bad := maskWhere g.width (fun l => hasLane active l && decide (bits (g.word b l).toNat 1 5 ≠ 0))
        if bad ≠ 0 then .trap s { cause := .badHandle, lanes := bad, dest := destOf d, flags := 0 }
        else if 4096 < s.raysOf g.core + ls.length ∨ (s.accessWaits g []).isSome = true then .wait .retry
        else
          let rays := ls.map (fun l =>
            LaneRay.start l ((spanNames a 8).map (fun r => g.word r l) ++ [g.word b l, g.word (b + 1) l]))
          (pendRegs s g sl (destOf d) .trace ((spanNames d 6).map (fun r => (r, RegVal.ofLanes g.width (fun _ => 0))))
            active (max 4 (popLanes g.width active)) false g.window.isSome []).andThen (fun s' =>
              (s'.takeRays g.core ls.length).modGroup g.id (fun g' => g'.modLast (fun p => { p with rays := rays })))))

/-! ### Textures (R483–R485) -/

/-- A texture instruction of `n` coordinate names: `reads` gives the texels of a lane by VA, and `colour` its result
(R483). -/
def sampleOp (d a b : RegName) (n : Nat) (ta tb : Bool) (reads : Texture → Group → Nat → List Nat)
    (colour : Texture → Group → Nat → (Nat → Nat) → List Nat) (g : Group) : Op :=
  wordOp (srcSpan a n ta ++ srcSpan b 2 tb) (spanNames d 4) (g.spanOk d 4 4 && g.spanOk a n 2 && g.spanOk b 2 2)
    (g.generalSpan d 4) (destOf d) (fun s g sl active =>
      needUniform s g sl (destOf d) [(b, 2)]
        (let c := s.ctx g
         let va := g.pair b 0
         let ls := lanesOf g.width active
         if va.toNat % 32 ≠ 0 then .trap s { cause := .misalignedData, lanes := active, dest := destOf d, flags := 0 }
         else
           afterResolve s g c .read (destOf d) (everyLane g active (s.resolveVa c 0 va 16 .read false false) ++
               everyLane g active (s.resolveVa c 0 (va + 16) 16 .read false false)) (fun ds _ =>
             let read (h : Hit) : Nat := s.peek g.queued h.space h.addr 16
             let desc := (ds.map read).getD 0 0 + 2 ^ 128 * (ds.map read).getD 1 0
             match textureOf desc with
             | none => .trap s { cause := .badHandle, lanes := active, dest := destOf d, flags := 0 }
             | some x =>
               afterResolve s g c .read (destOf d)
                 (ls.flatMap (fun l => (reads x g l).map (fun v =>
                   s.resolveVa c l (BitVec.ofNat 64 v) x.bytes .read false false)))
                 (fun hs _ =>
                   gatherHits s g sl c (destOf d) .sample (spanNames d 4) (max 4 (popLanes g.width active)) x.bytes
                     (ds ++ hs) (fun read g' =>
                       let texel (v : Nat) : Nat :=
                         ((hs.find? (fun h => h.leaf.any (fun p => p.1 = v))).map read).getD 0
                       let cols := (List.range g.width).map (fun l =>
                         if hasLane active l then colour x g l texel else [])
                       g'.writeAll ((List.range 4).map (fun i =>
                         (d + BitVec.ofNat 7 i,
                          RegVal.ofLanes g.width (fun l => BitVec.ofNat 32 ((cols.getD l []).getD i 0))))) active)))))

/-- Coordinates of a lane. -/
def texU (a : RegName) (g : Group) (l : Nat) : Nat := (g.word a l).toNat
def texV (a : RegName) (g : Group) (l : Nat) : Nat := (g.word (a + 1) l).toNat

/-- SAMPLE (R484). -/
def execSample (d a b : RegName) (ta tb : Bool) : State → Host.Outcome State Fault Refusal :=
  issue (sampleOp d a b 2 ta tb
    (fun x g l => x.reads 0 (x.footprint 0 (texU a g l) (texV a g l)))
    (fun x g l read => x.colour 0 (x.footprint 0 (texU a g l) (texV a g l)) read))

/-- SAMPLEG (R485). -/
def execSampleg (d a b : RegName) (ta tb : Bool) : State → Host.Outcome State Fault Refusal :=
  let level (x : Texture) (g : Group) (l : Nat) : Nat × Nat × Nat := x.lod (g.word (a + 2) l).toNat
  let foot (x : Texture) (g : Group) (l k : Nat) : Footprint := x.footprint k (texU a g l) (texV a g l)
  issue (sampleOp d a b 3 ta tb
    (fun x g l =>
      let (l0, l1, _) := level x g l
      x.reads l0 (foot x g l l0) ++ x.reads l1 (foot x g l l1))
    (fun x g l read =>
      let (l0, l1, f) := level x g l
      mixColour f (x.colour l0 (foot x g l l0) read) (x.colour l1 (foot x g l l1) read)))

/-! ### Queue launches (R486, R487) -/

/-- Payload names of a lane of `regroup`, when its queue exists. -/
def payNames (qs : List PQueue) (d : RegName) (q : Nat) : Option (List RegName) :=
  (qs[q]?).bind (fun x => if d.toNat + x.pay ≤ 128 then some (spanNames d x.pay) else none)

/-- REGROUP (R486). -/
def execRegroup (d a : RegName) (ta k : Bool) : State → Host.Outcome State Fault Refusal :=
  issue (fun g =>
    wordOp [(d, k), (a, ta)] [] (g.spanOk d 1 1 && g.spanOk a 1 1) true 0xFF (fun s g _ active =>
      let qs := ((s.launchOf g).map (·.queues)).getD []
      let ls := lanesOf g.width active
      let names (l : Nat) : Option (List RegName) :=
        match payNames qs d (g.word a l).toNat with
        | some ns => if ns.all (fun r => (g.cls r).isSome) then some ns else none
        | none => none
      let all := (ls.filterMap names).flatten
      if all.any (fun r => k && !(g.reg r).full) then
        .trap s { cause := .emptyRead, lanes := active, dest := 0xFF, flags := 0 }
      else if all.any (fun r => !(g.reg r).full) then .wait .retry
      else if all.any (fun r => (g.reg r).poison) then
        .trap s { cause := .eccUncorrectable, lanes := active, dest := 0xFF, flags := 0 }
      else
        let bad := maskWhere g.width (fun l => hasLane active l && (names l).isNone)
        if bad ≠ 0 then .trap s { cause := .badHandle, lanes := bad, dest := 0xFF, flags := 0 }
        else
          defer s g (s.ctx g) (.regroup d a ta k) .regroup []
            (ls.map (fun l => BitVec.ofNat 32 l :: g.word a l :: ((names l).getD []).map (fun r => g.word r l)))
            (max 4 (popLanes g.width active))))

/-- ENQ (R487). -/
def execEnq (a : RegName) (ta : Bool) : State → Host.Outcome State Fault Refusal :=
  issue (descOp a 2 2 ta false false (fun s g _ _ ws => defer s g (s.ctx g) (.enq a ta) .enq ws [] 1))

/-! ### Frames (R470, R471) -/

/-- A `bkt` operation that settles; its result, when it has one, covers every live lane (R470). -/
def bktOp (ds : List RegName) (a : RegName) (n : Nat) (ta : Bool) (dest : BitVec 8)
    (k : State → Group → Bool → List Word → Done) (g : Group) : Op :=
  { slotOp (srcSpan a n ta) ds (ds.all (fun r => g.spanOk r 1 1) && g.spanOk a n n) true (fun s g b _ =>
      if !g.uniformSpan a n then .trap s (slotTrap g b .shape dest) else k s g b (g.descriptor a n))
    with dest := dest }

/-- The frame of a handle operand: BAD_HANDLE for a handle above 3 or a FREE slot (R151, R470). -/
def withFrame (s : State) (g : Group) (b : Bool) (dest : BitVec 8) (ws : List Word) (k : Frame → Ctx → Done) : Done :=
  let c := s.ctx g
  match (if 3 < dw ws 0 then none else s.frame? c.vf c.dev (dw ws 0)) with
  | some f => k f c
  | none => .trap s (slotTrap g b .badHandle dest)

/-- The ranges that an open zeroes: the bin directory and the words of both pool headers (R150, R158). -/
def openStores (d : Nat) : List (Nat × Nat) :=
  [(fdBinDir d, 8 * fdCount d), (fdBinHdr d, 4), (fdBinHdr d + 8, 12), (fdSpillHdr d, 4), (fdSpillHdr d + 8, 12)]

/-- The pieces of several ranges, or what stops the first that does not resolve. -/
def State.openPieces (s : State) (c : Ctx) : List (Nat × Nat) → RangeRes
  | [] => .ok []
  | (va, n) :: rest =>
    match s.opRange c.core c.vf c.dev true va n with
    | .ok ps =>
      (match s.openPieces c rest with
       | .ok qs => .ok (ps ++ qs)
       | x => x)
    | x => x

/-- The effect of `bkt.open` (R150). -/
def bktOpenEffect (d : RegName) (s : State) (g : Group) (b : Bool) (ws : List Word) : Done :=
  let c := s.ctx g
  let va := dq ws 0
  let trap (x : Cause) : Done := .trap s (slotTrap g b x (destOf d))
  if va % 64 ≠ 0 then trap .badHandle
  else
    match s.opRange c.core c.vf c.dev false va 64 with
    | .fault => trap .pageFault
    | .park p v => .stay (s.parkGroup g c .read [(p, v)])
    | .ok ps =>
      let lines := s.walkLines (some c.die) c.vf va 64 ++ pieceLines ps
      let desc := leNat (s.readPieces ps)
      if s.poisonedPieces ps then trap .eccUncorrectable
      else if s.heldOff lines false then .waitIn (s.noteHeld lines) .retry
      else if ps.any (fun p => s.locked .mem p.1 p.2.1 false) then .wait .retry
      else if !fdValid desc then trap .badHandle
      else
        let took := ((s.readBy lines).rangeUsed c.die c.vf c.dev va 64).postLines c.vf false (corePlace c.core) false (pieceLines ps)
        match s.freeFrame c.vf c.dev with
        | none => .next (took.modGroup g.id (fun g => g.putLive d 0xFFFFFFFF)) 1
        | some h =>
          match s.openPieces c (openStores desc) with
          | .fault => trap .pageFault
          | .park p v => .stay (s.parkGroup g c .write [(p, v)])
          | .ok qs =>
            let out := pieceLines qs
            let walks := (openStores desc).flatMap (fun r => s.walkLines (some c.die) c.vf r.1 r.2)
            if s.heldOff walks false then .waitIn (s.noteHeld walks) .retry
            else if s.heldOff out true then .waitIn (s.noteHeld out) .retry
            else if qs.any (fun p => s.locked .mem p.1 p.2.1 true) then .wait .retry
            else
              let f : Frame := { vf := c.vf, dev := c.dev, h := h, st := .opened, desc := desc, sealing := none,
                                 buckets := [], deques := [], counts := [] }
              let n := qs.foldl (fun n p => n + p.2.1) 0
              let used := (openStores desc).foldl (fun (s : State) r => s.rangeUsed c.die c.vf c.dev r.1 r.2) (took.readBy walks)
              let s1 := ((used.writePieces qs (List.replicate n 0)).wrote none out).postLines c.vf false (corePlace c.core) true out
              .next (({ s1 with frames := s1.frames ++ [f] }).modGroup g.id (fun g =>
                g.putLive d (BitVec.ofNat 32 h))) 1

/-- BKT.OPEN (R150, R470). -/
def execBktOpen (d a : RegName) (ta : Bool) : State → Host.Outcome State Fault Refusal :=
  issue (bktOp [d] a 2 ta (destOf d) (bktOpenEffect d))

/-- Released `bin` operations on a frame (R152). -/
def State.binsOn (s : State) (vf dev h : Nat) : List Nat :=
  (s.ops.filter (fun o =>
    let l := s.launch? o.launch
    o.kind = .bin && (l.map (·.vf)).getD 0 = vf && (l.map (·.dev)).getD 0 = dev && dw o.operands 2 = h)).map (·.id)

/-- BKT.SEAL (R151, R152, R470): the slot blocks until the seal takes effect. -/
def execBktSeal (a : RegName) (ta : Bool) : State → Host.Outcome State Fault Refusal :=
  issue (bktOp [] a 1 ta 0xFF (fun s g b ws =>
    withFrame s g b 0xFF ws (fun f c =>
      if f.st ≠ .opened then .trap s (slotTrap g b .badHandle 0xFF)
      else if f.sealing.isSome then .wait .retry
      else .block (s.setFrame { f with sealing := some (s.binsOn f.vf f.dev f.h) }) 1 (.seal c.vf c.dev f.h))))

/-- BKT.CLAIM (R135, R174, R470). -/
def execBktClaim (d a : RegName) (ta : Bool) : State → Host.Outcome State Fault Refusal :=
  issue (bktOp [d] a 1 ta (destOf d) (fun s g b ws =>
    withFrame s g b (destOf d) ws (fun f _ =>
      match s.team? g.team with
      | none => .wait .retry
      | some t =>
        let q := f.deque (t.core / 64)
        match (if q.asks = [] then s.claim f q.die t else none) with
        | some (s1, w) => .next (s1.modGroup g.id (fun g => g.putLive d w)) 1
        | none => .block (s.setFrame (f.setDeque { q with asks := q.asks ++ [.claim g.id b] })) 1 (.claim d))))

/-- A frame slot freed: its waiting claims find it exhausted (R135, R151). -/
def State.closeFrame (s : State) (f : Frame) : State :=
  (f.deques.flatMap (·.claims)).foldl (fun s c => s.modGroup c.1 (fun g => g.claimed c.2 0xFFFFFFFF)) (s.dropFrame f)

/-- BKT.CLOSE (R151, R470). -/
def execBktClose (d a : RegName) (ta : Bool) : State → Host.Outcome State Fault Refusal :=
  issue (bktOp [d] a 1 ta (destOf d) (fun s g b ws =>
    withFrame s g b (destOf d) ws (fun f _ =>
      let owned := f.buckets.any (fun x => match x with | .owned _ => true | _ => false)
      if f.sealing.isSome then .wait .retry
      else if owned then .next (s.modGroup g.id (fun g => g.putLive d 0)) 1
      else .next ((s.closeFrame f).modGroup g.id (fun g => g.putLive d 1)) 1)))

/-- An access of the team that names a grid is outstanding (R471). -/
def State.gridBusy (s : State) (team h : Nat) : Bool :=
  (s.teamGroups team).any (fun g =>
    g.producers.any (fun p => p.grids.contains h) ||
      (match g.window with
       | some w => w.grids.contains h
       | none => false))

/-- BKT.FREE (R471). -/
def execBktFree (a : RegName) (ta : Bool) : State → Host.Outcome State Fault Refusal :=
  issue (bktOp [] a 1 ta 0xFF (fun s g b ws =>
    match (s.ownedStore g.team).bind (fun x => (x.grid? (dw ws 0)).map (fun r => (x, r))) with
    | none => .trap s (slotTrap g b .badHandle 0xFF)
    | some (x, gr) =>
      if s.gridBusy g.team (dw ws 0) then .wait .retry else .next (s.setStore (x.release gr)) 1))

end Sys2Proof.Machine
end

