-- ==== Sys2Proof/Machine/SaveArea.lean ====
section
/-!
DEFINITION. The layout of saved state (11 R305–R307, 20 R498): tag block, register storage, group records, team
records and engine records, written to bytes and read back.
-/

namespace Sys2Proof.Machine

/-! ### Tags and register storage (R306) -/

/-- Names allocated to a group, and h0–h7 (R211). -/
def Group.allocated (g : Group) (k : Nat) : Bool := decide (120 ≤ k) || decide (k < g.nG + g.nA + g.nU)

/-- The four bits of a name in the tag block: unallocated names are 0b0100. -/
def Group.tagBits (g : Group) (k : Nat) : Nat :=
  if g.allocated k then
    let r := g.reg (BitVec.ofNat 7 k)
    r.val.shape.code + 4 * (if r.full then 1 else 0) + 8 * (if r.poison then 1 else 0)
  else 4

/-- The tag block, 64 bytes. -/
def Group.tagBlock (g : Group) : List Byte :=
  toLe 64 (packBits ((List.range 128).map (fun k => (4, g.tagBits k))))

/-- Words that a name takes in the register storage: by its class, or `W` for h0–h7 and v0–v(G − 1). -/
def Group.slotWords (g : Group) (k : Nat) : Nat :=
  if 120 ≤ k ∨ k < g.nG then g.width else if k < g.nG + g.nA then 2 else 1

/-- Names in the order of the register storage: uniform-capable, affine-capable, general-capable, h0–h7. -/
def Group.storageOrder (g : Group) : List Nat :=
  (List.range g.nU).map (· + (g.nG + g.nA)) ++ (List.range g.nA).map (· + g.nG) ++ List.range g.nG ++
    (List.range 8).map (· + 120)

/-- A value as the words of its slot: a uniform in word 0, an affine in words 0 and 1, zeros elsewhere. -/
def RegVal.slotValue (v : RegVal) (n : Nat) : List Word :=
  (List.range n).map (fun i =>
    match v with
    | .uniform u => if i = 0 then u else 0
    | .affine b s => if i = 0 then b else if i = 1 then s else 0
    | .general ws => ws.getD i 0)

/-- The register storage. -/
def Group.storage (g : Group) : List Byte :=
  g.storageOrder.flatMap (fun k =>
    ((g.reg (BitVec.ofNat 7 k)).val.slotValue (g.slotWords k)).flatMap (fun w => toLe 4 w.toNat))

/-- Bytes of the register storage: 4U + 8A + 4W(G + 8). -/
def Group.storageBytes (g : Group) : Nat := 4 * g.nU + 8 * g.nA + 4 * g.width * (g.nG + 8)

/-- Bytes padded with zeros to a multiple of 128. -/
def pad128 (bs : List Byte) : List Byte := bs ++ List.replicate ((128 - bs.length % 128) % 128) 0

def round128 (n : Nat) : Nat := (n + 127) / 128 * 128

/-- The image of `save` (R498). -/
def Group.image (g : Group) : List Byte := pad128 (g.tagBlock ++ g.storage)
def Group.imageBytes (g : Group) : Nat := round128 (64 + g.storageBytes)

/-- Offset of a name in the register storage, in bytes. -/
def Group.slotOffset (g : Group) (k : Nat) : Nat :=
  ((g.storageOrder.takeWhile (· ≠ k)).map g.slotWords).foldl (· + ·) 0 * 4

/-- The value of a slot under a tag. -/
def slotRead (tag w : Nat) (ws : List Word) : RegVal :=
  match tag with
  | 0 => .uniform (ws.getD 0 0)
  | 1 => .affine (ws.getD 0 0) (ws.getD 1 0)
  | _ => .general ((List.range w).map (fun i => ws.getD i 0))

/-- Bits of name k of a tag block. -/
def tagOf (block : Nat) (k : Nat) : Nat := bits block (4 * k) 4

/-- Code of the widest tag of a name's class, whatever the mode. -/
def Group.widest (g : Group) (k : Nat) : Nat :=
  if 120 ≤ k ∨ k < g.nG then 2 else if k < g.nG + g.nA then 1 else 0

/-- The tag block suits the classes of the group: no tag wider than its class, unallocated names 0b0100 (R498, R523). -/
def Group.tagsFit (g : Group) (block : Nat) (upTo : Nat) : Bool :=
  (List.range upTo).all (fun k =>
    if g.allocated k then decide (tagOf block k % 4 ≤ g.widest k) else decide (tagOf block k = 4))

/-- The name that a tag block and a register storage give; `full` as given. -/
def Group.loadReg (g : Group) (block : Nat) (storage : List Byte) (full : Bool) (k : Nat) : Reg :=
  let bs := (storage.drop (g.slotOffset k)).take (4 * g.slotWords k)
  let ws := wordsOf (g.slotWords k) (leNat bs)
  { val := slotRead (tagOf block k % 4) g.width ws, full := full, poison := decide (bits (tagOf block k) 3 1 = 1) }

/-! ### Group records (R306) -/

/-- WIDTH code of a width (R116). -/
def widthCode (w : Nat) : Nat := if w = 16 then 0 else if w = 32 then 1 else 2

/-- The 47-bit field of a code address. -/
def codeAddr (a : DWord) : Nat := a.toNat / 4 % 2 ^ 47
def optBit {α : Type} (o : Option α) : Nat := if o.isSome then 1 else 0
def boolBit (b : Bool) : Nat := if b then 1 else 0

/-- The 64-byte header of a group record. -/
def Group.headerBits (g : Group) : Nat :=
  packBits
    [(146, 0), (2, widthCode g.width), (7, g.nU), (7, g.nA), (7, g.nG), (5, g.num), (8, 0),
     (47, codeAddr g.slotA.pc), (47, codeAddr g.slotB.pc), (47, codeAddr (g.slotA.jpc.getD 0)), (1, optBit g.slotA.jpc),
     (47, codeAddr (g.slotB.jpc.getD 0)), (1, optBit g.slotB.jpc), (6, g.stack.length), (6, 0), (32, g.specCount.toNat),
     (32, g.mode.toNat), (16, g.pathCount.getD 0 0), (16, g.pathCount.getD 1 0), (16, g.pathCount.getD 2 0),
     (16, g.pathCount.getD 3 0)]

/-- The barrier that a slot is blocked on (R306 BWV, BWN). -/
def Slot.barrier? (x : Slot) : Option Nat :=
  match x.wait with
  | .barrier b => some b
  | _ => none

/-- The 128-byte control block. -/
def Group.controlBits (g : Group) : Nat :=
  packBits
    ([(39, 0), (3, g.slotA.barrier?.getD 0), (1, optBit g.slotA.barrier?), (3, g.slotB.barrier?.getD 0),
      (1, optBit g.slotB.barrier?), (32, g.clockH.toNat), (1, boolBit g.slotA.parked), (1, boolBit g.slotB.parked),
      (1, boolBit g.lastB)] ++
     (List.range 4).map (fun i => (8, (g.pathFault.getD i 0).toNat)) ++
     (List.range 8).map (fun b => (1, boolBit (g.barPend.getD b false))) ++
     [(32, g.srseed.toNat), (47, codeAddr g.trapBase), (8, g.trapDest.toNat), (32, g.trapMode.toNat),
      (32, g.trapCause.toNat), (47, codeAddr g.trapPc)] ++
     (List.range 8).map (fun p => (64, (g.preds.getD p 0).toNat)) ++
     [(64, g.slotA.mask.toNat), (64, g.slotB.mask.toNat), (64, g.trapMask.toNat)])

/-- A group record. -/
def Group.record (g : Group) : List Byte :=
  pad128 (toLe 64 g.headerBits ++ toLe 128 g.controlBits ++ g.tagBlock ++ toLe 64 g.tileCfg.toNat ++ g.storage)

def Group.recordBytes (g : Group) : Nat := round128 (320 + g.storageBytes)

/-- A slot read back: its PC, mask, JPC, parked state and barrier wait (R306, R308). -/
def slotFrom (pc jpc jv mask parked bwv bwn : Nat) : Slot :=
  { pc := BitVec.ofNat 64 (4 * pc), mask := BitVec.ofNat 64 mask,
    jpc := if jv = 1 then some (BitVec.ofNat 64 (4 * jpc)) else none, parked := decide (parked = 1),
    wait := if bwv = 1 then .barrier bwn else .none }

/-- The reserved fields of a group record are zero and its header matches the group it is for (R523). -/
def Group.recordFits (g : Group) (bs : List Byte) : Bool :=
  let h := leNat (bs.take 64)
  let c := leNat ((bs.drop 64).take 128)
  let t := leNat ((bs.drop 192).take 64)
  let m := leNat ((bs.drop 256).take 64)
  decide (bits h 0 146 = 0 ∧ bits h 146 2 = widthCode g.width ∧ bits h 148 7 = g.nU ∧ bits h 155 7 = g.nA ∧
      bits h 162 7 = g.nG ∧ bits h 169 5 = g.num ∧ bits h 174 8 = 0 ∧ bits h 378 6 = 0 ∧ bits h 372 6 ≤ g.divMax) &&
    decide (bits c 0 39 = 0 ∧ bits c 250 7 = 0 ∧ bits c 262 11 = 0) && decide (bits (bits h 416 32) 22 10 = 0) &&
    (List.range 4).all (fun i => decide (bits c (82 + 8 * i) 8 ≤ 0x19)) && decide (2 ^ 96 > m ∧ bits m 12 20 = 0) && g.tagsFit t 128 &&
    decide (bits c 832 64 < 2 ^ g.width ∧ bits c 896 64 < 2 ^ g.width)

/-- The group read back from its record (R308). `g` gives what the device keeps. -/
def Group.ofRecord (g : Group) (bs : List Byte) (stack : List StackEntry) : Group :=
  let h := leNat (bs.take 64)
  let c := leNat ((bs.drop 64).take 128)
  let t := leNat ((bs.drop 192).take 64)
  let st := (bs.drop 320).take g.storageBytes
  { g with
    slotA := slotFrom (bits h 182 47) (bits h 276 47) (bits h 323 1) (bits c 832 64) (bits c 79 1) (bits c 42 1) (bits c 39 3)
    slotB := slotFrom (bits h 229 47) (bits h 324 47) (bits h 371 1) (bits c 896 64) (bits c 80 1) (bits c 46 1) (bits c 43 3)
    lastB := decide (bits c 81 1 = 1)
    specCount := BitVec.ofNat 32 (bits h 384 32)
    mode := BitVec.ofNat 32 (bits h 416 32)
    pathCount := (List.range 4).map (fun i => bits h (448 + 16 * i) 16)
    clockH := BitVec.ofNat 32 (bits c 47 32)
    pathFault := (List.range 4).map (fun i => BitVec.ofNat 8 (bits c (82 + 8 * i) 8))
    barPend := (List.range 8).map (fun b => decide (bits c (114 + b) 1 = 1))
    srseed := BitVec.ofNat 32 (bits c 122 32)
    trapBase := BitVec.ofNat 64 (4 * bits c 154 47)
    trapDest := BitVec.ofNat 8 (bits c 201 8)
    trapMode := BitVec.ofNat 32 (bits c 209 32)
    trapCause := BitVec.ofNat 32 (bits c 241 32)
    trapPc := BitVec.ofNat 64 (4 * bits c 273 47)
    preds := (List.range 8).map (fun p => BitVec.ofNat 64 (bits c (320 + 64 * p) 64))
    trapMask := BitVec.ofNat 64 (bits c 960 64)
    tileCfg := BitVec.ofNat 96 (leNat ((bs.drop 256).take 12))
    regs := (List.range 128).map (fun k =>
      if g.allocated k then g.loadReg t st (decide (bits (tagOf t k) 2 1 = 1)) k else Reg.default)
    stack := stack
    window := none
    rollbacks := 0
    ticket := none
    anchors := []
    anchorAt := none
    anchorWaited := 0
    stuck := false
    narrowed := false }

/-! ### Divergence stacks (R223, R305) -/

/-- A stack entry of 32 bytes (R223): MASK, RESUME, JOIN and JV. -/
def StackEntry.bytes (e : StackEntry) : List Byte :=
  toLe 32 (packBits [(64, e.mask.toNat), (49, 0), (47, codeAddr e.resume), (1, optBit e.join),
    (47, codeAddr (e.join.getD 0)), (48, 0)])

/-- A stack entry read back. -/
def stackEntryOf (bs : List Byte) : StackEntry :=
  let x := leNat bs
  { mask := BitVec.ofNat 64 x, resume := BitVec.ofNat 64 (4 * bits x 113 47),
    join := if bits x 160 1 = 1 then some (BitVec.ofNat 64 (4 * bits x 161 47)) else none }

/-- The reserved fields of an entry are zero, and its mask lies within the width (R523). -/
def stackEntryFits (w : Nat) (bs : List Byte) : Bool :=
  let x := leNat bs
  decide (bits x 64 49 = 0 ∧ bits x 208 48 = 0 ∧ bits x 0 64 < 2 ^ w)

/-- The stack of a group in memory order: entry 0 is the bottom (R223). -/
def Group.stackImage (g : Group) : List Byte :=
  let es := g.stack.reverse
  (es.flatMap StackEntry.bytes) ++ List.replicate (32 * g.divMax - 32 * es.length) 0

/-- The stack of a given depth read back. -/
def stackFrom (bs : List Byte) (depth : Nat) : List StackEntry :=
  ((List.range depth).map (fun i => stackEntryOf ((bs.drop (32 * i)).take 32))).reverse

/-! ### Engine records (R307) -/

/-- STATE of an engine record. -/
def OpState.code : OpState → Nat
  | .queued | .withheld | .running => 0 | .stopped => 1 | .parked => 2

/-- An engine record of 128 bytes. -/
def EngineOp.record (o : EngineOp) : List Byte :=
  toLe 128 (packBits [(152, 0), (3, o.state.code), (5, o.group), (32, o.word.toNat), (64, o.progress),
    (768, natOfWords o.operands)])

/-! ### Team records (R305) -/

/-- Bytes of the parts of a team record before the engine records: header, groups, scratchpad, stacks, ray stacks,
accumulators. -/
structure RecordLayout where
  groups : Nat
  groupBytes : Nat
  scratch : Nat
  stackAt : Nat
  rays : Nat
  acc : Nat
  engines : Nat

/-- The layout for a kernel. -/
def Kernel.layout (k : Kernel) : RecordLayout :=
  let gb := round128 (320 + 4 * k.nU + 8 * k.nA + 4 * k.width * (k.nG + 8))
  let scratch := 128 + k.groups * gb
  let stackAt := scratch + 128 * k.scratch
  let rays := stackAt + round128 (32 * k.divstack * k.groups)
  let acc := rays + round128 (8 * k.width * k.stack * k.groups)
  { groups := 128, groupBytes := gb, scratch := scratch, stackAt := stackAt, rays := rays, acc := acc,
    engines := acc + 4096 * k.acc }

/-- The team header, 128 bytes. -/
def Team.header (t : Team) (engn size : Nat) : List Byte :=
  toLe 128 (packBits ([(7, 0), (5, t.kernel.groups - 1), (1, boolBit t.pair), (19, 0), (16, t.x), (16, t.y), (16, t.z),
    (56, 0)] ++ t.barriers.flatMap (fun b => [(6, b.count), (1, boolBit b.phase)]) ++
    List.replicate (8 - t.barriers.length) (7, 0) ++ [(32, size), (32, engn)]))

/-- Words of the accumulator image (R443). -/
def Team.accImage (t : Team) : List Byte :=
  (List.range (1024 * t.kernel.acc)).flatMap (fun i => toLe 4 (lookup 0 t.acc i).toNat)

end Sys2Proof.Machine
end

