-- ==== Sys2Proof/Machine/System.lean ====
section
/-!
DEFINITION. The fabric, system and trap instructions, opcodes 0xF0 to 0xF7 (20_isa_system_fabric.md R488–R498).
-/

namespace Sys2Proof.Machine

/-! ### Remote stores (R489, R490) -/

/-- The header of a fabric message (R29), its remaining fields above bit 127. -/
def fabHeader (taddr len window seq src dst vf kind rest : Nat) : BitVec 512 :=
  BitVec.ofNat 512 (packBits [(23, 0), (4, kind), (9, vf), (6, dst), (6, src), (16, seq), (8, window), (5, len), (2, 0),
    (49, taddr), (384, rest)])

/-- Next SEQ to a destination (R29). -/
def State.nextSeq (s : State) (dst : Nat) : Nat := ((s.fabSeq.find? (fun p => p.1 = dst)).map (·.2)).getD 0

/-- A message put at the hub, with the next SEQ of its destination (R28, R29). -/
def State.post (s : State) (dst owner taddr len window vf kind rest : Nat) (payload : List Word)
    (source : Option (Nat × Nat × Nat)) : State :=
  let seq := s.nextSeq dst
  let (id, s) := s.fresh
  let m : FabMsg :=
    { id := id, dst := dst, owner := owner, header := fabHeader taddr len window seq s.device dst vf kind rest,
      payload := payload, source := source }
  { s with fabWaiting := s.fabWaiting ++ [m]
           fabSeq := s.fabSeq.filter (fun p => p.1 ≠ dst) ++ [(dst, (seq + 1) % 65536)]
           fabUnacked := match source with
             | some (l, t, g) => s.fabUnacked ++ [{ dst := dst, seq := seq, launch := l, team := t, group := g }]
             | none => s.fabUnacked }

/-- The checks of R489 on LEN and VA: the cause they give. -/
def xstCause (width va len : Nat) : Option Cause :=
  if len % 4 ≠ 0 ∨ len < 4 ∨ 128 < len ∨ 4 * width < len then some .badHandle
  else if va % 4 ≠ 0 ∨ 128 < va % 128 + len then some .misalignedData
  else if 2 ^ 49 ≤ va ∨ bits va 40 9 = 0x1FF then some .pageFault
  else none

/-- The effect of `xst` after its shape check (R489, R490). -/
def xstEffect (d a lenName : RegName) (s : State) (g : Group) (active : Mask) : Done :=
  let c := s.ctx g
  let va := (g.pair a (lowest g.width active)).toNat
  let len := (g.word lenName (lowest g.width active)).toNat
  let trap (x : Cause) : Done := .trap s { cause := x, lanes := active, dest := 0xFF, flags := 0 }
  match xstCause g.width va len with
  | some x => trap x
  | none =>
    match s.translate (some c.core) (some c.die) c.vf c.dev va .peer with
    | .fault => trap .pageFault
    | .replay => .stay (s.parkGroup g c .peer [(.page (va / 4096), va)])
    | .migrating leaf => .stay (s.parkGroup g c .peer [(.move leaf, va)])
    | .ok pa _ e addr sz =>
      let ws := s.entryLines (some c.core) (some c.die) c.vf va
      if 64 ≤ g.xstOut then .wait .retry
      else if s.heldOff ws false then .waitIn (s.noteHeld ws) .retry
      else
        let s := if ws = [] then s else s.readBy ws
        let words := (List.range (len / 4)).map (g.word d)
        let s1 := (s.used (some c.core) (some c.die) c.vf va e sz addr).post (bits pa 42 6) c.vf (bits pa 0 34)
          (len / 4 - 1) (bits pa 34 8) c.vf 1 0 words (some (((s.team? g.team).map (·.launch)).getD 0, g.team, g.num))
        .next (s1.modGroup g.id (fun x => { x with xstOut := x.xstOut + 1 })) (max 4 (len / 4))

/-- XST (R489, R490). -/
def execXst (d a b : RegName) (ta tb k : Bool) : State → Host.Outcome State Fault Refusal :=
  issue (fun g =>
    { wordOp ((d, k) :: (srcSpan a 2 ta ++ [(b, tb)])) [] (g.spanOk d 1 1 && g.spanOk a 2 2 && g.spanOk b 1 1) true
        0xFF (fun s g sl active => needUniform s g sl 0xFF [(a, 2), (b, 1)] (xstEffect d a b s g active))
      with settles := true })

/-! ### Presenting a frame (R492) -/

/-- PRESENT (R492). -/
def execPresent (a : RegName) (ta : Bool) : State → Host.Outcome State Fault Refusal :=
  issue (descOp a 2 2 ta true false (fun s g _ _ ws =>
    let c := s.ctx g
    let p : PresentReq :=
      { vf := c.vf, dev := c.dev, va := dq ws 0, group := g.id,
        source := (((s.team? g.team).map (·.launch)).getD 0, g.team, g.num) }
    .next (({ s with presents := s.presents ++ [p] }).modGroup g.id (fun x => { x with presents := x.presents + 1 }))
      1))

/-! ### Special registers (R493–R495) -/

/-- The registers that `csrr` reads outside trap mode, by number (R493). -/
def csrUser (n : Nat) : Bool :=
  decide (n ≤ 5 ∨ n = 8 ∨ n = 9 ∨ (0x10 ≤ n ∧ n ≤ 0x12) ∨ (0x18 ≤ n ∧ n ≤ 0x1B) ∨ (0x20 ≤ n ∧ n ≤ 0x28))

/-- `csrr` has an effect in the mode of the group; TRAPRES reads 0 in trap mode (R3, R493, R294). -/
def csrReadable (trap : Bool) (n : Nat) : Bool := csrUser n || (trap && decide (n = 0x29))

/-- `csrw` has an effect in the mode of the group (R493). -/
def csrWritable (trap : Bool) (n : Nat) : Bool :=
  decide (n = 0x10 ∨ n = 0x11 ∨ n = 0x27 ∨ n = 0x28) ||
    (trap && decide (n = 0x12 ∨ (0x21 ≤ n ∧ n ≤ 0x26) ∨ n = 0x29))

/-- The value of a special register other than LANEID, modulo 2^32 (R493). -/
def csrValue (s : State) (g : Group) (n : Nat) : Word :=
  let t := s.team? g.team
  match n with
  | 0x01 => BitVec.ofNat 32 g.num
  | 0x02 => BitVec.ofNat 32 ((t.map (·.index)).getD 0)
  | 0x03 => BitVec.ofNat 32 (g.core % 64)
  | 0x04 => BitVec.ofNat 32 (g.core / 64)
  | 0x05 => ((s.launchOf g).map (·.seq)).getD 0
  | 0x08 => BitVec.ofNat 32 s.cycle
  | 0x09 => g.clockH
  | 0x10 => g.mode
  | 0x11 => g.seed
  | 0x12 => g.specCount
  | 0x18 | 0x19 | 0x1A | 0x1B => BitVec.ofNat 32 (g.pathCount.getD (n - 0x18) 0)
  | 0x20 => g.trapCause
  | 0x21 => loWord g.trapPc &&& 0xFFFFFFFC#32
  | 0x22 => hiWord g.trapPc
  | 0x23 => loWord g.trapMask
  | 0x24 => hiWord g.trapMask
  | 0x25 => g.trapDest.setWidth 32
  | 0x26 => g.trapMode
  | 0x27 => loWord g.trapBase
  | 0x28 => hiWord g.trapBase
  | _ => 0

/-- CSRR (R493, R494): under the slot's mask; a read of CLOCK latches its high half. -/
def execCsrr (d : RegName) (csr : BitVec 12) : State → Host.Outcome State Fault Refusal :=
  issue (fun g =>
    { slotOp [] [d] (g.spanOk d 1 1) false (fun s g b mask =>
        let v : RegVal := if csr = 0 then .affine 0 1 else .uniform (csrValue s g csr.toNat)
        match g.writeAll [(d, v)] mask with
        | none => .trap s (slotTrap g b .shape (destOf d))
        | some g' =>
          .next (s.setGroup (if csr = 8 then { g' with clockH := BitVec.ofNat 32 (s.cycle / 2 ^ 32) } else g')) 1)
      with legal := csrReadable g.inTrap csr.toNat, dest := destOf d })

/-- A pair of words with its low or high word written. -/
def withLo (x : DWord) (w : Word) : DWord := pairOf w (hiWord x)
def withHi (x : DWord) (w : Word) : DWord := pairOf (loWord x) w

/-- A special register written (R293, R495). -/
def Group.csrWrite (g : Group) (n : Nat) (v : Word) : Group :=
  match n with
  | 0x10 => { g with mode := modeBits v }
  | 0x11 =>
    (match g.window with
     | some w => { g with window := some { w with srseed := some v } }
     | none => { g with srseed := v })
  | 0x12 => { g with specCount := v }
  | 0x21 => { g with trapPc := withLo g.trapPc v }
  | 0x22 => { g with trapPc := withHi g.trapPc (v &&& 0x1FFFF#32) }
  | 0x23 => { g with trapMask := withLo g.trapMask v }
  | 0x24 => if g.width = 64 then { g with trapMask := withHi g.trapMask v } else g
  | 0x25 => { g with trapDest := v.setWidth 8 }
  | 0x26 => { g with trapMode := v }
  | 0x27 => { g with trapBase := withLo g.trapBase v }
  | 0x28 => { g with trapBase := withHi g.trapBase (v &&& 0x1FFFF#32) }
  | _ => g

/-- The name that `csrw TRAPRES` writes: it waits until that is full (R294). -/
def Group.trapResNames (g : Group) : List RegName :=
  let n := g.trapDest.toNat
  if n ≤ 127 ∧ (g.cls (BitVec.ofNat 7 n)).isSome = true then [BitVec.ofNat 7 n] else []

/-- `csrw TRAPRES` (R294). -/
def trapRes (d : RegName) (s : State) (g : Group) (b : Bool) : Done :=
  let m := g.trapMask &&& g.live
  let n := g.trapDest.toNat
  if 0x80 ≤ n ∧ n ≤ 0x87 then
    .next (s.setGroup (g.setPred (BitVec.ofNat 3 (n - 0x80)) m (fun l => (g.word d l).getLsbD 0))) 1
  else
    let r : RegName := BitVec.ofNat 7 n
    if 127 < n ∨ (g.cls r).isNone = true then .trap s (slotTrap g b .illegalRegister 0xFF)
    else writeRegs s g b 0xFF [(r, (g.reg d).val)] m 1

/-- CSRW (R294, R493, R495). -/
def execCsrw (d : RegName) (csr : BitVec 12) (k : Bool) : State → Host.Outcome State Fault Refusal :=
  issue (fun g =>
    { slotOp [(d, k)] (if csr = 0x29 then g.trapResNames else []) (g.spanOk d 1 1) (csr ≠ 0x10 && csr ≠ 0x11) (fun s g b _ =>
        if csr = 0x29 then trapRes d s g b
        else if !g.uniformSpan d 1 then .trap s (slotTrap g b .shape 0xFF)
        else
          let v := g.word d 0
          if csr = 0x27 ∧ v.extractLsb' 0 2 ≠ 0 then .trap s (slotTrap g b .misalignedPc 0xFF)
          else .next (s.setGroup (g.csrWrite csr.toNat v)) 1)
      with legal := csrWritable g.inTrap csr.toNat })

/-! ### Entering and leaving the handler (R496, R497) -/

/-- TRAP (R496): SOFTWARE as a completing trap; the number stands in the word alone. -/
def execTrap (_n : BitVec 16) : State → Host.Outcome State Fault Refusal :=
  issue (fun _ => slotOp [] [] true true (fun s g b _ => .trap (s.charge g.id 1) (slotTrap g b .software 0xFF)))

/-- RFT (R298, R497). -/
def execRft (next : Bool) : State → Host.Outcome State Fault Refusal :=
  issue (fun g => { slotOp [] [] true true (fun s g b _ =>
      let pc := g.trapPc + (if next then 4 else 0)
      if pc.extractLsb' 0 2 ≠ 0 then .trap s (slotTrap g b .double 0xFF)
      else .jump (s.setGroup (g.leaveTrap b pc)) 1) with legal := g.inTrap })

/-! ### Saving and restoring registers (R498) -/

/-- The places of `n` 16-byte pieces from a VA, as lane accesses of lane 0: a window block is reached at its opener's
scratchpad. -/
def imageTargets (s : State) (c : Ctx) (va : DWord) (k : Access) (n : Nat) : List LaneTarget :=
  (List.range n).map (fun i =>
    match s.resolveVa c 0 (va + BitVec.ofNat 64 (16 * i)) 16 k true false with
    | .win l slot off =>
      (match s.wins.find? (fun w => w.slot = slot) with
       | some w =>
         .hit { lane := l, space := .scratch (w.openerTeam.getD 0), addr := w.offset + off, plain := false, leaf := none }
       | none => .cause l .badHandle)
    | t => t)

/-- Memory lines of some accesses. -/
def hitLines (hs : List Hit) : List Nat := ((hs.filter (fun h => h.space = .mem)).map (fun h => lineOf h.addr)).eraseDups

/-- `save` and `rest` (R498): the pair a, its checks, and the accesses to the image. -/
def imageOp (a : RegName) (ta : Bool) (k : Access)
    (body : State → Group → Bool → Ctx → List Hit → Done) (g : Group) : Op :=
  { slotOp (srcSpan a 2 ta) [] (g.spanOk a 2 2) true (fun s g b _ =>
      if !g.uniformSpan a 2 then .trap s (slotTrap g b .shape 0xFF)
      else if (g.pair a 0).toNat % 128 ≠ 0 then .trap s (slotTrap g b .misalignedData 0xFF)
      else if g.regs.any (fun r => !r.full) || g.producers ≠ [] then .wait .retry
      else
        let c := s.ctx g
        afterResolve s g c k 0xFF (imageTargets s c (g.pair a 0) k (g.imageBytes / 16)) (fun hs _ =>
          match s.requestHits g hs (decide (k = .write)) with
          | .inl s1 => .waitIn s1 .retry
          | .inr s1 => body (s1.usedHits c hs) (s1.again g) b c hs))
    with legal := g.inTrap }

/-- SAVE (R498). -/
def execSave (a : RegName) (ta : Bool) : State → Host.Outcome State Fault Refusal :=
  issue (imageOp a ta .write (fun s g _ _ hs =>
    let img := g.image
    let s1 := hs.zipIdx.foldl (fun s p =>
      s.apply { space := p.1.space, addr := p.1.addr, data := (img.drop (16 * p.2)).take 16, keep := [] }) s
    let host := (hs.filter (·.plain)).length
    .next ((s1.wrote (some g.id) (hitLines hs)).modGroup g.id (fun x => { x with hostOut := x.hostOut + host }))
      hs.length))

/-- The group with v0–v119 read from an image (R498): a poisoned line poisons them. -/
def Group.loadImage (g : Group) (img : List Byte) (poisoned : Bool) : Group :=
  let block := leNat (img.take 64)
  { g with regs := (List.range 128).map (fun k =>
      if k < 120 ∧ g.allocated k = true then
        let r := g.loadReg block (img.drop 64) true k
        { r with poison := r.poison || poisoned }
      else g.reg (BitVec.ofNat 7 k)) }

/-- REST (R498). -/
def execRest (a : RegName) (ta : Bool) : State → Host.Outcome State Fault Refusal :=
  issue (imageOp a ta .read (fun s g b _ hs =>
    let img := hs.flatMap (fun h => toLe 16 (s.peek [] h.space h.addr 16))
    if !g.tagsFit (leNat (img.take 64)) 120 then .trap s (slotTrap g b .badHandle 0xFF)
    else .next (s.setGroup (g.loadImage img (hs.any s.poisoned))) hs.length))

end Sys2Proof.Machine
end

