-- ==== Sys2Proof/Machine/Arbiters.lean ====
section
/-!
DEFINITION. Bindings, shares, token buckets, arbiters, cache ways, the mesh and power leave (04_shares_arbiters.md
R92–R114).
-/

namespace Sys2Proof.Machine

/-! ### What an event comes to -/

/-- The cycles in which a group with an anchor has waited on an access or an anchor, counted up to now (R277). -/
def State.countAnchor (s : State) (g : Group) : Group :=
  match g.anchorAt with
  | none => g
  | some a =>
    let waits := g.stuck || (match g.block with | .anchor _ => true | _ => false)
    { g with anchorAt := some s.cycle, anchorWaited := g.anchorWaited + (if waits then s.cycle - a else 0),
             stuck := g.stuck && decide (0 < s.unperformed g) }

/-- Slots that wait at issue are tried again after anything has happened (R221; log entry 2), and what groups have waited is
counted (R277). -/
def State.wakeRetry (s : State) : State :=
  let wake (x : Slot) : Slot := if x.wait = .retry then { x with wait := .none } else x
  let on (g : Group) : Group :=
    let g := s.countAnchor g
    { g with slotA := wake g.slotA, slotB := wake g.slotB }
  { s with groups := s.groups.map on }

/-- Scheduler-visible waits of a slot (R138, R253). -/
def Wait.visible : Wait → Bool
  | .monitor _ _ _ _ _ | .booth _ | .barrier _ | .path _ _ | .window _ => true
  | _ => false

/-- The group is blocked in scheduler-visible waits, and not in trap mode (R138, R139). -/
def Group.idle (g : Group) : Bool :=
  let quiet (x : Slot) : Bool := decide (x.mask = 0) || x.parked || x.wait.visible
  g.trapB.isNone && (decide (g.block = .rows) || (decide (g.block = .none) && quiet g.slotA && quiet g.slotB))

/-- The leave of `trace` bursts as rays come and go (R112): from the 512th ray in flight a core asks for it, without that many
a request not granted is withdrawn, and with leave and no ray in flight the time since then counts. -/
def State.noteRays (s : State) : State :=
  let cores := (s.groups.filter (fun g => g.producers.any (fun p => p.kind = .trace))).map (·.core)
  let asks := cores.eraseDups.filter (fun c =>
    decide (512 ≤ s.raysOf c) && !s.leaves.any (fun l => decide (l.who = .burst c)))
  let kept := s.leaves.filter (fun l => match l.who with
    | .burst c => l.granted || decide (512 ≤ s.raysOf c)
    | .op _ => true)
  { s with
    leaves := kept ++ asks.map (fun c => ({ die := c / 64, units := 4, who := .burst c, granted := false } : Leave))
    raysIdle := kept.filterMap (fun l => match l.who with
      | .burst c =>
        if l.granted = true ∧ s.raysOf c = 0 then
          some (c, ((s.raysIdle.find? (fun p => p.1 = c)).map (·.2)).getD s.cycle)
        else none
      | .op _ => none) }

/-- What follows every event: since when every group of each team has been idle (R139), and the leave of rays (R112). -/
def State.noteIdle (s : State) : State :=
  let idle (t : Team) : Bool := t.state = .running && (s.teamGroups t.id).all Group.idle
  State.noteRays { s with teams := s.teams.map (fun t =>
    { t with idleSince := if idle t then some (t.idleSince.getD s.cycle) else none }) }

/-- An event whose condition fails leaves the state as it is (log entry 14). -/
def event (f : State → Option State) (s : State) : Host.Outcome State Fault Refusal :=
  .next ((f s).getD s).wakeRetry.noteIdle

/-- The state, when a condition holds. -/
def given (p : Bool) (s : State) : Option State := if p then some s else none

/-- The cycle reaches a deadline (R4). -/
def State.by_ (s : State) (cycle : Nat) : State := { s with cycle := max s.cycle cycle }

/-! ### Device status and queue states (R68, R80, R83) -/

def devstat : Nat := 8

/-- DEVSTAT.FATAL: the package has stopped. -/
def State.fatal (s : State) : Bool := decide (bits (s.pfGet devstat) 30 1 = 1)

/-- RECOVERY (R83, R86). -/
def State.recovery (s : State) : Bool := decide (bits (s.pfGet devstat) 25 1 = 1)

/-- A write of the host to a register: in RECOVERY only the mailbox is served (R83). -/
def hostWrite (f : State → Option State) : State → Host.Outcome State Fault Refusal :=
  event (fun s => if s.recovery then none else f s)

/-- Contexts run: start-up is complete and the package has not stopped (R31, R84). -/
def State.running (s : State) : Bool := s.mgmt.powered && decide (s.mgmt.stage = 5) && !s.fatal && !s.mgmt.alarmed

/-- Offset of a queue register in State.vfq. -/
def qreg (vf q off : Nat) : Nat := vf * 2 ^ 20 + 0x40 * q + off

def State.qGet (s : State) (vf q off : Nat) : Nat := (lookup 0 s.vfq (qreg vf q off)).toNat
def State.qSet (s : State) (vf q off v : Nat) : State :=
  { s with vfq := assign 0 s.vfq (qreg vf q off) (BitVec.ofNat 32 v) }
def State.qGet64 (s : State) (vf q off : Nat) : Nat := s.qGet vf q off + 2 ^ 32 * s.qGet vf q (off + 4)

/-- STATE of a queue (R68, R80). -/
def State.queueState (s : State) (vf q : Nat) : Nat := if s.stopped.contains vf then 5 else bits (s.qGet vf q 0x1C) 29 3

/-- Some queue of the function is not DISABLED. -/
def State.vfBusy (s : State) (vf : Nat) : Bool := s.stopped.contains vf || s.queues.any (fun x => decide (x.vf = vf))

/-! ### Bindings and shares (R92–R99) -/

def shareBlock (owner : Nat) : Nat := 0x100000 + 0x40 * owner
/-- Offset of the share entry of a class. -/
def shareOff (owner cls : Nat) : Nat := shareBlock owner + 4 + 4 * cls
def shstat : Nat := 0x108080

/-- Classes whose entries a share block holds (R94). -/
def classesOf (owner : Nat) : List Nat :=
  if owner = 512 then [4, 6, 8] else if owner = 513 then [4, 5, 6, 8] else [1, 2, 3, 4, 5, 6, 7, 8]

/-- Classes whose owners reach every arbiter of the package (R97). -/
def packageWide (cls : Nat) : Bool := decide (5 ≤ cls ∧ cls ≤ 7)

/-- Assignable capacity of every arbiter of a class; of DLINK the hub links are the least (R97). -/
def assignable (cls : Nat) : Nat :=
  match cls with
  | 1 => 256 | 2 | 3 => 16 | 4 => 146 | 5 => 42 | 6 => 280 | 7 => 104 | _ => 252

/-- PMASK of an owner under a binding word; owners 512 and 513 reach every partition (R97). -/
def reachOf (owner bind : Nat) : Nat := if 512 ≤ owner then 0xFFFF else if bits bind 31 1 = 1 then bits bind 0 16 else 0

/-- Owners with a share block that is not wholly zero. -/
def State.ownersUsed (s : State) : List Nat :=
  ((s.pf.filter (fun p => decide (0x100000 ≤ p.1 ∧ p.1 < shstat))).map (fun p => (p.1 - 0x100000) / 0x40)).eraseDups

/-- The sum of ρ over the owners that reach the arbiters of a class in a partition. -/
def State.rhoSum (s : State) (cls p : Nat) : Nat :=
  (s.ownersUsed.filter (fun o => (classesOf o).contains cls)).foldl (fun n o =>
    let r := reachOf o (s.vfbind o)
    if (packageWide cls && decide (r ≠ 0)) || bits r p 1 = 1 then n + bits (s.pfGet (shareOff o cls)) 0 8 else n) 0

/-- Some arbiter of the classes is over its assignable capacity (R98). -/
def State.overCapacity (s : State) (classes : List Nat) : Bool :=
  classes.any (fun c => (List.range 16).any (fun p => decide (assignable c < s.rhoSum c p)))

/-- Bound functions of a partition. -/
def State.boundIn (s : State) (p : Nat) : Nat :=
  (s.ownersUsed.filter (fun o => decide (o < 512 ∧ bits (reachOf o (s.vfbind o)) p 1 = 1))).length

/-- A refused write recorded (R99). -/
def State.shareRefused (s : State) (cause cls owner : Nat) : State :=
  s.pfSet shstat (packBits [(10, owner), (4, cls), (13, 0), (4, cause), (1, 1)])

/-- The first condition of R98 that a write of VFBIND breaks; `s` holds the new value. -/
def State.bindCause (s : State) (owner v : Nat) (busy : Bool) : Option Nat :=
  if bits v 31 1 = 1 ∧ bits v 0 16 = 0 then some 1
  else if (List.range 16).any (fun p => decide (32 < s.boundIn p)) then some 2
  else if s.overCapacity (classesOf owner) then some 3
  else if busy then some 5
  else none

/-! ### Bucket levels (R100) -/

/-- The name of every arbiter of a class in a partition, and of every arbiter of a class. -/
def arbRow (cls p : Nat) : Nat := arbOf cls (2 ^ 19 + p)
def arbAll (cls : Nat) : Nat := arbOf cls (2 ^ 19 + 16)

/-- Partition in which an arbiter lies (R92, R206): a carousel is 128 × core + carousel, a slice 16 × die + cluster, a
channel 4 × die + y, a mesh output 80 × die + 5 × (4y + x) + port. -/
def arbPartition (arb : Nat) : Nat :=
  let i := arbIndex arb
  match arbClass arb with
  | 1 => i / 128 / 16
  | 2 | 3 => i / 4
  | 4 => i
  | _ => 4 * (i / 80) + i % 80 / 20

/-- Units of charge in a token (R100). -/
def tokenUnits (cls : Nat) : Nat := if cls = 6 then 64 else 1

/-- ρ and β in effect, in units of charge (R96, R98). -/
def State.rho (s : State) (cls owner : Nat) : Int :=
  tokenUnits cls * bits (lookup 0 s.shares (shareOff owner cls)).toNat 0 8
def State.beta (s : State) (cls owner : Nat) : Int :=
  tokenUnits cls * bits (lookup 0 s.shares (shareOff owner cls)).toNat 8 13

/-- Reserved rate of an arbiter in tokens (R97): of the die links, the hub links have one. -/
def reservedRate (arb : Nat) : Nat :=
  match arbClass arb with
  | 4 | 8 => 4
  | 6 => if 8 ≤ arbIndex arb then 4 else 0
  | 7 => 1
  | _ => 0

/-- Rate and depth of a bucket of an arbiter; owner 514 stands for the reserved traffic, of depth four times its rate (R97,
R101). -/
def State.rateOf (s : State) (arb owner : Nat) : Int :=
  if owner = 514 then tokenUnits (arbClass arb) * reservedRate arb else s.rho (arbClass arb) owner
def State.depthOf (s : State) (arb owner : Nat) : Int :=
  if owner = 514 then 4 * tokenUnits (arbClass arb) * reservedRate arb else s.beta (arbClass arb) owner

/-- The entry of a name. -/
def State.levelAt (s : State) (arb owner : Nat) : Option Int :=
  (s.levels.find? (fun x => x.arb = arb && x.owner = owner)).map (·.level)

/-- The level of an owner at an arbiter (R100): its own, that of its partition's arbiters, that of its class's; the
reserved bucket starts full. -/
def State.level (s : State) (arb owner : Nat) : Int :=
  match s.levelAt arb owner with
  | some l => l
  | none =>
    match s.levelAt (arbRow (arbClass arb) (arbPartition arb)) owner with
    | some l => l
    | none =>
      match s.levelAt (arbAll (arbClass arb)) owner with
      | some l => l
      | none => if owner = 514 then s.depthOf arb owner else 0

def State.setLevel (s : State) (arb owner : Nat) (l : Int) : State :=
  { s with levels := s.levels.filter (fun x => !(x.arb = arb && x.owner = owner)) ++
      [{ arb := arb, owner := owner, level := l }] }

/-- LEND (R95). -/
def State.lend (s : State) (owner : Nat) : Bool := decide (512 ≤ owner) || decide (bits (s.vfbind owner) 30 1 = 1)

/-- The owner holds tokens at the arbiter (R101). -/
def State.holdsTokens (s : State) (arb owner : Nat) : Bool := decide (0 < s.level arb owner)

/-- BORROWED raised by 1, saturating (R94, R101). -/
def State.borrow (s : State) (owner : Nat) : State :=
  let o := shareBlock owner + 0x28
  let n := min (2 ^ 64 - 1) (s.pfGet64 o + 1)
  (s.pfSet o (n % 2 ^ 32)).pfSet (o + 4) (n / 2 ^ 32)

/-- A grant: its charge is taken from tokens, or it is counted as borrowed (R100, R101). -/
def State.grant (s : State) (arb owner charge : Nat) : State :=
  if owner = 514 ∨ s.holdsTokens arb owner = true then s.setLevel arb owner (s.level arb owner - charge) else s.borrow owner

/-- The owner of number order next after the last one granted in a step (R101). -/
def State.roundPick (s : State) (arb step : Nat) (owners : List Nat) : Option Nat :=
  let last := ((s.roundRobin.find? (fun p => p.1 = 2 * arb + step)).map (·.2)).getD 0
  let key (o : Nat) : Nat := if last ≤ o then o else o + 1024
  (owners.foldl (fun (best : Option Nat) o =>
    match best with
    | none => some o
    | some b => if key o < key b then some o else some b) none)

/-- The round robin of a step starts after an owner. -/
def State.roundSet (s : State) (arb step owner : Nat) : State :=
  { s with roundRobin := s.roundRobin.filter (fun p => p.1 ≠ 2 * arb + step) ++ [(2 * arb + step, owner + 1)] }

/-- The step and the owner that an arbiter grants among waiting owners (R101): step 0 takes token holders, step 1
borrowers. -/
def State.arbitrate (s : State) (arb : Nat) (owners : List Nat) : Option (Nat × Nat) :=
  match s.roundPick arb 0 (owners.filter (fun o => s.holdsTokens arb o)) with
  | some o => some (0, o)
  | none => (s.roundPick arb 1 (owners.filter (fun o => s.lend o))).map (fun o => (1, o))

/-- The bucket of a carousel charged for the pass-cycles of an instruction of the group that issued (R100, R103), and
waits at issue of the other groups ended. -/
def State.chargePass (before after : State) : State :=
  match before.group? before.cur with
  | none => after
  | some g =>
    let n := after.cycle - before.cycle
    if n = 0 then after
    else
      let arb := arbOf 1 (128 * g.core + g.carousel)
      let vf := (before.ctx g).vf
      let own := (after.group? g.id).map (fun g => (g.slotA.wait, g.slotB.wait))
      let s := (after.grant arb vf n).wakeRetry
      match own with
      | some (a, b) => s.modGroup g.id (fun g => { g with slotA := { g.slotA with wait := a },
                                                          slotB := { g.slotB with wait := b } })
      | none => s

/-- What follows an instruction of a group: its pass charged and idle teams noted. -/
def State.chargeIssue (before after : State) : State := (before.chargePass after).noteIdle

/-! ### Cache ways (R105) -/

/-- Class of a slice: L2WAY or RDCWAY, and its arbiter's number. -/
def sliceClass (id : Nat) : Nat := if id < 64 then 2 else 3
def slicePartition (id : Nat) : Nat := id % 64 / 4

/-- The ways dealt to the owners that reach a slice, in owner-number order (R105). -/
def State.dealOf (s : State) (id : Nat) : List (Nat × Nat) :=
  let cls := sliceClass id
  let os := (s.shares.map (fun p => (p.1 - 0x100000) / 0x40)).eraseDups
  (os.filter (fun o => decide (o < 512 ∧ bits (reachOf o (s.vfbind o)) (slicePartition id) 1 = 1))).filterMap (fun o =>
    let n := (s.rho cls o).toNat
    if n = 0 then none else some (o, n))

/-- The slice of a number; one that has filled nothing holds nothing but its deal (R105). -/
def State.slice (s : State) (id : Nat) : Slice :=
  (s.slices.find? (fun x => x.id = id)).getD { id := id, deal := s.dealOf id, lastFill := [], reclaim := [], evictions := [], lines := [] }

def State.setSlice (s : State) (x : Slice) : State := { s with slices := s.slices.filter (fun y => y.id ≠ x.id) ++ [x] }

/-- Owner of a way; none when it is free. -/
def Slice.ownerOf (x : Slice) (way : Nat) : Option Nat :=
  (x.deal.foldl (fun (acc : Nat × Option Nat) p =>
    (acc.1 + p.2, if acc.1 ≤ way ∧ way < acc.1 + p.2 then some p.1 else acc.2)) (0, none)).2

/-- An owner has made no fill in the slice for the last four epochs (R105). -/
def Slice.quiet (x : Slice) (epoch owner : Nat) : Bool :=
  (x.lastFill.find? (fun p => p.1 = owner)).all (fun p => decide (p.2 + 4 < epoch))

/-- A way is lendable: it has an owner, and that owner is quiet (R105). -/
def Slice.lendable (x : Slice) (epoch way : Nat) : Bool := (x.ownerOf way).any (x.quiet epoch)

/-- Ways among which a fill of an owner chooses its victim (R105). -/
def Slice.victimWays (x : Slice) (epoch owner : Nat) (lend : Bool) : List Nat :=
  let own := (List.range 16).filter (fun w => x.ownerOf w = some owner)
  let lent := (List.range 16).filter (x.lendable epoch)
  let free := (List.range 16).filter (fun w => (x.ownerOf w).isNone || x.lendable epoch w)
  if own = [] ∨ (lend = true ∧ lent ≠ []) then free else own

/-- Sets of an L2 slice and of a remote-data cache slice (R92); the set of a line is given by its low number bits (log
entry 27). -/
def sliceSet (id line : Nat) : Nat := line % (if id < 64 then 2048 else 512)

/-- An open window holds a line of memory (R265). -/
def State.lineHeld (s : State) (line : Nat) : Bool :=
  s.groups.any (fun g => g.window.any (fun w => w.holds { space := .mem, line := line }))

/-- Cores whose copies a holder gives up with its own (R246): the cores of the row of a remote-data cache slice. -/
def coresOf (holder : Nat) : List Nat :=
  if holder < 256 then [holder]
  else if holder < 272 then (List.range 16).map (fun i => 16 * (holder - 256) + i)
  else []

/-- Holders whose copies a slice's copy of a line includes (R246): every one of an L2 slice; the row of a remote-data cache
slice. -/
def includes (id holder : Nat) : Bool :=
  decide (id < 64) || decide (holder = 256 + (id - 64) / 4) ||
    (decide (holder < 256 ∨ (512 ≤ holder ∧ holder < 768)) && decide (holder % 512 / 16 = (id - 64) / 4))

/-- Open windows of the cores of holders that hold a line roll back (R265). -/
def State.loseLine (s : State) (cores : List Nat) (line : Nat) : State :=
  s.groups.foldl (fun s g =>
    match g.window with
    | some w => if cores.contains g.core && w.holds { space := .mem, line := line } then s.rollback g.id true else s
    | none => s) s

/-- A line leaves a slice (R105, R246, R265): the copies that it includes go, open windows that hold it roll back, and one
that has been written goes back, to memory from an L2 slice and to its home from another, charged to its owner. -/
def State.evictLine (s : State) (id : Nat) (l : SliceLine) : State :=
  let gone := s.caches.filter (fun c => c.line = l.line && includes id c.holder)
  let cores := if id < 64 then List.range 256 else (List.range 16).map (fun i => 16 * ((id - 64) / 4) + i)
  let s := s.loseLine cores l.line
  let dirty := l.dirty || gone.any (fun c => c.st = .modified)
  let s : State := { s with caches := s.caches.filter (fun c => !(c.line = l.line && includes id c.holder)) }
  if !dirty then s
  else if id < 64 then s.postBack l.owner l.line
  else s.postLines l.owner false (slicePlace ((id - 64) / 16) (id % 16)) true [l.line]

/-- What a fill of a line into a slice comes to (R105, R265): its place, with the line that leaves it; a remote-data cache
slice gives up no line that an open window holds. -/
inductive FillPlace where
  | present
  | empty (way : Nat)
  | victim (l : SliceLine)
  /-- Every way it may take is held: the fill waits. -/
  | held
  /-- The owner has no way to fill. -/
  | noWay
  deriving DecidableEq, Repr

def State.fillPlace (s : State) (id owner line : Nat) : FillPlace :=
  let x := s.slice id
  if x.lines.any (fun l => decide (l.line = line)) then .present
  else
    let ways := x.victimWays s.epoch owner (s.lend owner)
    let here := x.lines.filter (fun l => sliceSet id l.line = sliceSet id line)
    match ways.find? (fun w => !here.any (fun l => l.way = w)) with
    | some w => .empty w
    | none =>
      if ways = [] then .noWay
      else
        match here.find? (fun l => ways.contains l.way && (decide (id < 64) || !s.lineHeld l.line)) with
        | some l => .victim l
        | none => .held

/-- A fill of a line into a slice for an owner (R105): its victim leaves, and an owner's fill into its own ways ends
their lendable state. -/
def State.fillSlice (s : State) (id owner line : Nat) (dirty : Bool) : State :=
  let place (w : Nat) (s : State) : State :=
    let x := s.slice id
    let lent := x.ownerOf w = some owner && x.lendable s.epoch w
    s.setSlice { x with
      lines := x.lines ++ [{ line := line, owner := owner, way := w, dirty := dirty }]
      lastFill := x.lastFill.filter (fun p => p.1 ≠ owner) ++ [(owner, s.epoch)]
      reclaim := if lent ∧ ¬ owner ∈ x.reclaim then x.reclaim ++ [owner] else x.reclaim }
  match s.fillPlace id owner line with
  | .present =>
    let x := s.slice id
    let was := x.lines.filter (fun l => decide (l.line = line))
    s.setSlice { x with lines := x.lines.filter (fun y => decide (y.line ≠ line)) ++
                          was.map (fun l => { l with dirty := l.dirty || dirty }) }
  | .empty w => place w s
  | .victim v =>
    let s1 := s.evictLine id v
    let x := s1.slice id
    place v.way (s1.setSlice { x with lines := x.lines.filter (fun l => l.line ≠ v.line) })
  | .held | .noWay => s

/-- A borrower's line in a way that its owner is taking back (R105). -/
def Slice.borrowed (x : Slice) (epoch : Nat) : Option SliceLine :=
  x.lines.find? (fun l =>
    match x.ownerOf l.way with
    | some o => x.reclaim.contains o && !x.quiet epoch o && decide (l.owner ≠ o)
    | none => false)

/-- WAY_RECLAIM_EVICTION (R105): one borrower's line leaves a reclaimed way, of at most 64 in each 1,000 cycles. -/
def execWayReclaimEviction (slice : Nat) : State → Host.Outcome State Fault Refusal :=
  event (fun s =>
    let x := s.slice slice
    let recent := x.evictions.filter (fun c => decide (s.cycle < c + 1000))
    match x.borrowed s.epoch with
    | some l =>
      if 64 ≤ recent.length then none
      else
        let s1 := s.evictLine slice l
        let y := s1.slice slice
        some (s1.setSlice { y with lines := y.lines.filter (fun z => z.line ≠ l.line), evictions := recent ++ [s.cycle] })
    | none => none)

/-! ### Grants (R101) -/

/-- Kind and destination of a fabric message (R29). -/
def FabMsg.kind (m : FabMsg) : Nat := bits m.header.toNat 23 4
/-- Flits of a message: its header, and 1 or 2 data flits (R28, R30). -/
def FabMsg.flits (m : FabMsg) : Nat := 1 + (m.payload.length + 15) / 16
/-- Control kinds use the reserved rate (R101). -/
def FabMsg.control (m : FabMsg) : Bool := m.kind ≠ 1

/-- FROUTE of a destination (R65). -/
def froute (dst : Nat) : Nat := hubSpace + 0x3100 + 4 * dst

/-- Output port of a destination, when its entry is valid and the port is up (R28, R31, R65). -/
def State.portOf (s : State) (dst : Nat) : Option Nat :=
  let e := s.pfGet (froute dst)
  if bits e 31 1 = 1 ∧ ¬ bits e 0 3 ∈ s.fabDown then some (bits e 0 3) else none

/-- Messages that may leave by a port: the oldest of each destination, unless its route has changed and earlier
messages are not acknowledged (R28). -/
def State.portMsgs (s : State) (port : Nat) : List FabMsg :=
  s.fabWaiting.filter (fun m =>
    s.portOf m.dst = some port && !s.fabHeld.contains m.dst &&
      ((s.fabWaiting.find? (fun x => x.dst = m.dst)).map (·.id)) = some m.id)

/-- A message leaves by a port. -/
def State.sendMsg (s : State) (port : Nat) (m : FabMsg) : State :=
  { s with fabWaiting := s.fabWaiting.filter (fun x => x.id ≠ m.id)
           fabSent := s.fabSent ++ [{ port := port, header := m.header, payload := m.payload }] }

/-- A grant at a fabric port (R101, R103). -/
def State.grantFabric (s : State) (arb port : Nat) : Option State :=
  let ms := s.portMsgs port
  match (if 0 < s.level arb 514 then ms.find? (·.control) else none) with
  | some m => some ((s.grant arb 514 m.flits).sendMsg port m)
  | none =>
    let data := ms.filter (fun m => !m.control)
    match s.arbitrate arb (data.map (·.owner)) with
    | some (step, o) =>
      (data.find? (fun m => m.owner = o)).map (fun m => ((s.grant arb o m.flits).roundSet arb step o).sendMsg port m)
    | none => none

/-- Reserved traffic at an arbiter that has a reserved rate (R101). -/
def reservedAt (arb : Nat) (reserved : Bool) : Bool := reserved && decide (0 < reservedRate arb)

/-- The charge of a request (R100): a line packet's is that of its length under the sender's dictionary (R13, R16). -/
def State.chargeOf (s : State) (r : ArbReq) : Nat :=
  match r.line, s.linkDir? (arbIndex r.arb) with
  | some (l, src, dst), some d =>
    let m : DieMsg := { src := src, dst := dst, cls := r.vc, line := BitVec.ofNat 1024 (s.readNat (128 * l) 128) }
    5 + bits (d.tx.encodeLine (s.pfGet (dlctlOf d.dir)) 0 m (Config.choice s.draw)).1.header.toNat 9 6
  | _, _ => r.charge

/-- A granted request goes on: a line that leaves its source by a die link becomes a message of it (R7–R9). -/
def State.goOn (s : State) (r : ArbReq) : State :=
  let s1 : State := { s with requests := s.requests.erase r }
  let s2 := match r.line with
    | some (l, src, dst) =>
      if src = senderOf (arbIndex r.arb) then
        s1.offer { src := src, dst := dst, cls := r.vc, line := BitVec.ofNat 1024 (s.readNat (128 * l) 128) }
      else s1
    | none => s1
  s2.setOut r.owner r.reserved r.rest

/-- Requests that wait at an arbiter; a die link that carries no traffic grants none (R11). -/
def State.waitingAt (s : State) (arb : Nat) : List ArbReq :=
  if arbClass arb = 6 ∧ s.linkUp (arbIndex arb / 2) = false then [] else s.requests.filter (fun r => r.arb = arb)

/-- A grant at another arbiter (R101). Reserved traffic whose bucket is empty waits for the next refill, and the steps go on
for the other requests (log entry 27). -/
def State.grantRequest (s : State) (arb : Nat) : Option State :=
  let rs := s.waitingAt arb
  match (if 0 < s.level arb 514 then rs.find? (fun r => reservedAt arb r.reserved) else none) with
  | some r => some ((s.grant arb 514 (s.chargeOf r)).goOn r)
  | none =>
    let rs := rs.filter (fun r => !reservedAt arb r.reserved)
    match s.arbitrate arb (rs.map (·.owner)) with
    | some (step, o) =>
      (rs.find? (fun r => r.owner = o)).map (fun r => ((s.grant arb o (s.chargeOf r)).roundSet arb step o).goOn r)
    | none => none

/-- ARBITER_GRANT (R101). -/
def execArbiterGrant (arb : Nat) : State → Host.Outcome State Fault Refusal :=
  event (fun s => if arbClass arb = 7 then s.grantFabric arb (arbIndex arb) else s.grantRequest arb)

/-! ### The mesh (R107–R111) -/

/-- MESHCTL of the die of an output. -/
def State.meshctl (s : State) (output : Nat) : Nat := s.pfGet (dieSpace (output / 80) + 0x100)
/-- Weight of a channel; 0 is used as 1 (R109). -/
def State.meshWeight (s : State) (output vc : Nat) : Nat := max 1 (bits (s.meshctl output) (4 * vc) 4)

/-- An output; one that has granted nothing has no credits, its next grant begins a round, and the round robin of each channel
begins at port 0 (log entry 5). -/
def State.meshOut (s : State) (output : Nat) : MeshOut :=
  (s.meshOuts.find? (fun o => o.output = output)).getD
    { output := output, credits := [0, 0, 0, 0], p := 0, last := [4, 4, 4, 4], promote := 0x40, freeAt := 0 }

/-- PROMOTE of the round of an output (R109). -/
def State.meshPromote (s : State) (output : Nat) : Nat := (s.meshOut output).promote

/-- Packets stand in one input virtual channel. -/
def MeshHead.sameInput (a b : MeshHead) : Bool := decide (a.output / 5 = b.output / 5 ∧ a.input = b.input ∧ a.vc = b.vc)

/-- A packet is the head of its input virtual channel. -/
def State.isHead (s : State) (h : MeshHead) : Bool := s.meshHeads.find? h.sameInput = some h

/-- The next hop's buffer has room for the whole packet: 10 flits for each channel of a router's input (R108, R110); units at
local and edge ports take what they are sent. -/
def State.hasRoom (s : State) (h : MeshHead) : Bool :=
  match h.rest with
  | n :: _ =>
    decide (h.output % 5 = 0 ∨ arbClass n.arb ≠ 8) || decide
      (((s.meshHeads.filter (fun x => x.output / 5 = arbIndex n.arb / 5 && decide (x.input = n.input ∧ x.vc = n.vc))).foldl
        (fun k x => k + x.flits) 0) + h.flits ≤ 10)
  | [] => true

/-- The owner whose bucket a packet uses at its output (R101). -/
def MeshHead.payer (h : MeshHead) : Nat := if h.reserved then 514 else h.owner

/-- A head is eligible (R110); reserved traffic under its own bucket. -/
def State.eligible (s : State) (h : MeshHead) : Bool :=
  s.isHead h && decide (h.asOf ≤ s.cycle) && s.hasRoom h &&
    (s.holdsTokens (arbOf 8 h.output) h.payer || (!h.reserved && s.lend h.owner))

/-- Age of a head at the current cycle (R110). -/
def State.ageOf (s : State) (h : MeshHead) : Nat :=
  if s.eligible h then min 255 (h.age + (s.cycle - h.asOf)) else min 255 h.age

/-- The ages up to the current cycle, kept before what makes a head eligible changes (R110). -/
def State.settleAges (s : State) : State :=
  { s with meshHeads := s.meshHeads.map (fun h => { h with age := s.ageOf h, asOf := max h.asOf s.cycle }) }

/-- A head is promoted (R110); a PROMOTE of 0 disables promotion (R109). -/
def State.promoted (s : State) (h : MeshHead) : Bool :=
  decide (s.meshPromote h.output ≠ 0 ∧ s.meshPromote h.output ≤ s.ageOf h)

/-- A packet granted at an output: it goes on to its next arbiter, its flits cross, and its owner is charged (R100, R108,
R111). -/
def State.crossMesh (s : State) (o : MeshOut) (h : MeshHead) : State :=
  let left : State := { s with meshHeads := (s.meshHeads.erase h).map (fun x => { x with age := s.ageOf x, asOf := max x.asOf s.cycle }) }
  let s1 := left.grant (arbOf 8 o.output) h.payer h.flits
  let s2 := s1.sendOn h.owner h.reserved (s.cycle + h.flits) h.rest
  { s2 with meshOuts := s.meshOuts.filter (fun x => x.output ≠ o.output) ++ [{ o with freeAt := s.cycle + h.flits }] }

/-- The promoted head that an output grants: the greatest age, then the lowest input port, then the lowest channel
(R111 step 1). -/
def State.promotedHead (s : State) (hs : List MeshHead) : Option MeshHead :=
  (hs.filter s.promoted).foldl (fun best h =>
    match best with
    | none => some h
    | some b =>
      if s.ageOf b < s.ageOf h ∨ (s.ageOf b = s.ageOf h ∧ (h.input < b.input ∨ (h.input = b.input ∧ h.vc < b.vc))) then some h
      else some b) none

/-- The head of a channel (R101, R111 step 4): reserved traffic first, then token holders, round robin by input port. -/
def State.channelHead (s : State) (o : MeshOut) (vc : Nat) (hs : List MeshHead) : Option MeshHead :=
  let mine := hs.filter (fun h => h.vc = vc)
  let pick (hs : List MeshHead) : Option MeshHead :=
    (List.range 5).findSome? (fun i => hs.find? (fun h => h.input = (o.last.getD vc 4 + 1 + i) % 5))
  ((pick (mine.filter (·.reserved))).orElse
    (fun _ => pick (mine.filter (fun h => s.holdsTokens (arbOf 8 o.output) h.payer)))).orElse (fun _ => pick mine)

/-- Step 2 of R111: the first channel from p on with an eligible head and a credit. -/
def MeshOut.channel (o : MeshOut) (hs : List MeshHead) : Option Nat :=
  ((List.range 4).map (fun i => (o.p + i) % 4)).find? (fun c => decide (0 < o.credits.getD c 0) && hs.any (fun h => h.vc = c))

/-- A new round of an output (R109, R111 step 3): what MESHCTL holds takes effect. -/
def State.newRound (s : State) (o : MeshOut) : MeshOut :=
  { o with credits := (List.range 4).map (s.meshWeight o.output), p := 0, promote := bits (s.meshctl o.output) 24 8 }

/-- Arbitration of a free output (R111). -/
def State.arbitrateMesh (s : State) (o : MeshOut) : Option State :=
  let hs := s.meshHeads.filter (fun h => h.output = o.output && s.eligible h)
  match s.promotedHead hs with
  | some h => some (s.crossMesh o h)
  | none =>
    if hs = [] then none
    else
      let o := if (o.channel hs).isSome then o else s.newRound o
      match o.channel hs with
      | none => none
      | some c =>
        (s.channelHead o c hs).map (fun h =>
          s.crossMesh { o with credits := o.credits.set c (o.credits.getD c 0 - 1), p := c, last := o.last.set c h.input } h)

/-- MESH_OUTPUT_ARBITRATION (R111): in the first cycle in which the output is free. -/
def execMeshOutputArbitration (output : Nat) : State → Host.Outcome State Fault Refusal :=
  event (fun s =>
    let o := s.meshOut output
    (s.by_ o.freeAt).arbitrateMesh o)

/-- HEAD_PROMOTED (R110): the cycle at whose end the age of a head reaches PROMOTE. -/
def execHeadPromoted (output input : Nat) : State → Host.Outcome State Fault Refusal :=
  event (fun s =>
    match s.meshHeads.find? (fun h => h.output = output && h.input = input && s.eligible h && !s.promoted h) with
    | some h =>
      if s.meshPromote output = 0 then none
      else some (s.by_ (h.asOf + (s.meshPromote output - h.age)))
    | none => none)

/-! ### Writes of bindings and shares (R98) -/

/-- Buckets that an owner reaches anew hold β (R100). -/
def State.reachAnew (s : State) (owner old new : Nat) : State :=
  let s := (List.range 16).foldl (fun s p =>
    if bits new p 1 = 1 ∧ bits old p 1 = 0 then
      [1, 4, 8].foldl (fun s c =>
        let inRow (x : Level) : Bool := x.owner = owner && arbClass x.arb = c && arbIndex x.arb < 2 ^ 19 && arbPartition x.arb = p
        ({ s with levels := s.levels.filter (fun x => !inRow x) }).setLevel (arbRow c p) owner (s.beta c owner)) s
    else s) s
  if old = 0 ∧ new ≠ 0 then
    [5, 6, 7].foldl (fun s c =>
      ({ s with levels := s.levels.filter (fun x => !(x.owner = owner && arbClass x.arb = c)) }).setLevel (arbAll c) owner
        (s.beta c owner)) s
  else s

/-- VFBIND_WRITE (R95, R98). -/
def execVfbindWrite (owner v : Nat) : State → Host.Outcome State Fault Refusal :=
  hostWrite (fun s =>
    if 512 ≤ owner then none
    else
      let w := packBits [(16, v), (14, 0), (2, v / 2 ^ 30)]
      let s1 := s.pfSet (shareBlock owner) w
      match s1.bindCause owner w (s.vfBusy owner) with
      | some c => some (s.shareRefused c 0 owner)
      | none => some ({ s1 with meshHeads := s.settleAges.meshHeads }.reachAnew owner (reachOf owner (s.vfbind owner)) (reachOf owner w)))

/-- SHARE_ENTRY_WRITE (R96, R98): taken at the next epoch boundary. -/
def execShareEntryWrite (off v : Nat) : State → Host.Outcome State Fault Refusal :=
  hostWrite (fun s =>
    let owner := (off - 0x100000) / 0x40
    let cls := (off % 0x40 - 4) / 4
    if off < 0x100000 ∨ shstat ≤ off ∨ off % 4 ≠ 0 ∨ off % 0x40 < 8 ∨ 0x28 ≤ off % 0x40 ∨ ¬ cls ∈ classesOf owner then none
    else
      let w := v % 2 ^ 21
      let s1 := s.pfSet off w
      if s1.overCapacity [cls] then some (s.shareRefused 3 cls owner)
      else if cls ≠ 2 ∧ cls ≠ 3 ∧ (bits w 8 13 = 0 ∨ 4096 < bits w 8 13) then some (s.shareRefused 4 cls owner)
      else some s1)

/-! ### Epochs (R97, R98, R100, R105) -/

/-- Every bucket level refilled with the shares in effect. -/
def State.refill (s : State) : State :=
  { s with levels := s.levels.map (fun x =>
      { x with level := min (s.depthOf x.arb x.owner) (x.level + s.rateOf x.arb x.owner) }) }

/-- Owners 512 and 513 are always bound: their buckets exist from the first boundary at which they have a share. -/
def State.hubOwners (s : State) : State :=
  [512, 513].foldl (fun s o => (classesOf o).foldl (fun s c =>
    if (s.levelAt (arbAll c) o).isNone && decide (0 < s.beta c o) then s.setLevel (arbAll c) o 0 else s) s) s

/-- EPOCH_BOUNDARY (R97, R98, R100, R105): written shares take effect, buckets refill, and ways are dealt again. -/
def execEpochBoundary : State → Host.Outcome State Fault Refusal :=
  event (fun s =>
    let s := (s.by_ (256 * (s.epoch + 1))).settleAges
    let written := s.pf.filter (fun p => decide (0x100000 ≤ p.1 ∧ p.1 < shstat ∧ 8 ≤ p.1 % 0x40 ∧ p.1 % 0x40 < 0x28))
    let s1 := ({ s with epoch := s.epoch + 1, shares := written }).hubOwners.refill
    some { s1 with slices := s1.slices.map (fun x =>
      { x with deal := s1.dealOf x.id, reclaim := x.reclaim.filter (fun o => !x.quiet s1.epoch o) }) })

/-! ### Power leave (R112–R114) -/

def State.budget (s : State) (die : Nat) : Nat := max 400 (bits (s.pfGet (dieSpace die + 0x200)) 0 10)
/-- Leave that a die holds. -/
def State.leaveHeld (s : State) (die : Nat) : Nat :=
  (s.leaves.filter (fun l => l.die = die && l.granted)).foldl (fun n l => n + l.units) 0

/-- k of R113: sixteenths of the clock for an amount of leave. -/
def leaveClock (budget units : Nat) : Nat := if units ≤ budget then 16 else max 8 (16 * budget / units)

/-- GOVSTAT written: HELD, and STEP for the clock (R114). -/
def State.governed (s : State) (die : Nat) : State :=
  s.pfSet (dieSpace die + 0x204)
    (packBits [(10, s.leaveHeld die), (6, 0), (4, leaveClock (s.budget die) (s.leaveHeld die) - 1)])

/-- A request for leave (R112). -/
def State.askLeave (s : State) (die units : Nat) (who : LeaveFor) : State :=
  { s with leaves := s.leaves ++ [{ die := die, units := units, who := who, granted := false }] }

/-- Leave released, or its request withdrawn (R112, R113): the clock is restored. -/
def State.dropLeave (s : State) (who : LeaveFor) : State :=
  let dies := (s.leaves.filter (fun l => l.who = who && l.granted)).map (·.die)
  dies.foldl State.governed { s with leaves := s.leaves.filter (fun l => l.who ≠ who) }

/-- LEAVE_GRANT (R113): the oldest request of a die is granted. -/
def execLeaveGrant (die : Nat) : State → Host.Outcome State Fault Refusal :=
  event (fun s =>
    match s.leaves.find? (fun l => l.die = die && !l.granted) with
    | none => none
    | some l =>
      let s1 := { s with leaves := s.leaves.map (fun x => if x = l then { x with granted := true } else x) }
      let s2 := match l.who with
        | .op i => s1.modOp i (fun o => { o with leave := true })
        | .burst _ => s1
      some (s2.governed die))

/-- TRACE_BURST_IDLE (R112): no ray in flight for 256 cycles. -/
def execTraceBurstIdle (core : Nat) : State → Host.Outcome State Fault Refusal :=
  event (fun s =>
    match s.raysIdle.find? (fun p => p.1 = core) with
    | some p =>
      if s.raysOf core = 0 then
        some (({ s.by_ (p.2 + 256) with raysIdle := s.raysIdle.filter (fun q => q.1 ≠ core) }).dropLeave (.burst core))
      else none
    | none => none)

end Sys2Proof.Machine
end

