-- ==== Sys2Proof/Machine/Schedule.lean ====
section
/-!
DEFINITION. Which group and slot issue next (05 R128, 08 R221, 04 R104, 11 R295, R300) and the fetch of an instruction
(09 R231, R247, 13 R341).
-/

namespace Sys2Proof.Machine

/-- A slot is issuable: not empty, not parked, not blocked and not frozen by trap mode (R221, R295). -/
def Group.slotReady (g : Group) (b : Bool) : Bool :=
  let x := g.slot b
  decide (x.mask ≠ 0) && !x.parked && decide (x.wait = .none) && (g.trapB.isNone || g.trapB = some b)

/-- A PC that a record of a saved team cannot hold (R300). -/
def farPc (pc : DWord) : Bool := decide (2 ^ 49 ≤ pc.toNat)

/-- The team lets the group issue: it runs, or its stop waits for trap mode to end or for a slot to take its
PAGE_FAULT (R119, R300). -/
def State.teamLets (s : State) (g : Group) : Bool :=
  match s.team? g.team with
  | some t =>
    !t.argsDue && (t.state = .running ||
      (t.state = .stopping && (g.inTrap || (g.slotA.mask ≠ 0 && farPc g.slotA.pc) || (g.slotB.mask ≠ 0 && farPc g.slotB.pc))))
  | none => false

/-- The ISSUE arbiter of a carousel, and whether the function of the group may spend there (R104). -/
def Group.issueArb (g : Group) : Nat := arbOf 1 (128 * g.core + g.carousel)
def State.hasTokens (s : State) (g : Group) : Bool := s.holdsTokens g.issueArb (s.ctx g).vf

/-- A group is issuable (R128). -/
def State.ready (s : State) (g : Group) : Bool :=
  s.running && decide (g.block = .none) && s.teamLets g && (g.slotReady false || g.slotReady true) &&
    (s.hasTokens g || s.lend (s.ctx g).vf)

/-- Groups share a carousel. -/
def Group.mate (g h : Group) : Bool := decide (g.core = h.core ∧ g.carousel = h.carousel)

/-- The run of the group on its carousel has ended (R128, R364). -/
def Group.runOver (g : Group) : Bool := g.yields || decide (1024 ≤ g.runCycles)

def State.prioOf (s : State) (g : Group) : Nat := ((s.team? g.team).map (·.prio)).getD 0

/-- Of two issuable groups of a carousel, the first is chosen (R104, R128). -/
def State.choosesOver (s : State) (g h : Group) : Bool :=
  if s.hasTokens g ≠ s.hasTokens h then s.hasTokens g
  else if g.onTurn && !g.runOver then true
  else if h.onTurn && !h.runOver then false
  else if s.prioOf g ≠ s.prioOf h then decide (s.prioOf h < s.prioOf g)
  else if g.onTurn ≠ h.onTurn then h.onTurn
  else decide (g.id < h.id)

/-- The groups that their carousels let issue. -/
def State.picks (s : State) : List Group :=
  let rs := s.groups.filter s.ready
  rs.filter (fun g => rs.all (fun h => !(g.mate h) || decide (h.id = g.id) || s.choosesOver g h))

/-- The slot that issues (R221): not the one that issued last, when both may. -/
def Group.nextSlot (g : Group) : Bool := if g.slotReady false && g.slotReady true then !g.lastB else g.slotReady true

/-- A group takes its carousel (R128): its run counts while the other group is issuable. -/
def State.takeTurn (s : State) (g : Group) : State :=
  let contested := s.groups.any (fun h => g.mate h && h.id ≠ g.id && s.ready h)
  { s with
    cur := g.id
    curB := g.nextSlot
    groups := s.groups.map (fun h =>
      if h.id = g.id then { h with onTurn := true, yields := false, runCycles := if h.onTurn && contested && !h.runOver then h.runCycles else 0 }
      else if g.mate h then { h with onTurn := false, yields := false, runCycles := 0 }
      else h) }

/-- Where the fetch of the slot State.cur and State.curB name leads (R231, R241, R341): no alignment is checked, for
every PC is a word address. -/
def State.fetchPlace (s : State) (g : Group) : LaneTarget :=
  let c := s.ctx g
  let pc := (g.slot s.curB).pc.toNat
  if 2 ^ 49 ≤ pc ∨ bits pc 40 9 = 0x1FF then .cause 0 .pageFault
  else
    match s.translate (some c.core) (some c.die) c.vf c.dev pc .exec with
    | .fault => .cause 0 .pageFault
    | .replay => .park (.page (pc / 4096)) pc
    | .migrating leaf => .park (.move leaf) pc
    | .ok pa canon e addr sz =>
      .hit { lane := 0, space := .mem, addr := canon, plain := !cohLeaf e pa, leaf := some (pc, e, sz, addr) }

/-- The word that is fetched, when the fetch meets no fault: the bytes that memory holds (R247). -/
def State.fetchWord (s : State) : Option Word :=
  match s.group? s.cur with
  | none => none
  | some g =>
    match s.fetchPlace g with
    | .hit h => some (BitVec.ofNat 32 (s.readNat h.addr 4))
    | _ => none

/-- The instruction that a fetch gives: undecodable words are ILLEGAL_OPCODE, failed fetches are their own event. -/
def State.fetched (s : State) : Instr :=
  match s.fetchWord with
  | none => .instructionFetchFault
  | some w =>
    match decode w with
    | .ok i => i
    | .error _ => .illegalOpcode w

end Sys2Proof.Machine
end

