-- ==== Sys2Proof/Machine/Coherence.lean ====
section
/-!
DEFINITION. Coherence and what is performed away from the issuing core (09_memory_hierarchy.md R246–R252, 10 R266,
R273, R277, 17 R432–R434, R438).
-/

namespace Sys2Proof.Machine

/-! ### Holders of a line (R246) -/

/-- The copies of a line that an ownership request of a core invalidates (R246, R248): L1s and instruction caches of the home
die and of the requester's row, the remote-data cache slices of the other rows, the host, and cores whose open windows hold
the line while it is on its way to them. -/
def State.holdersFor (s : State) (core line : Nat) : List Nat :=
  let rdc := 256 + core / 16
  let near (h : Nat) : Bool := decide (h % 512 / 64 = s.homeOf line ∨ h % 512 / 16 = core / 16)
  let copies := (s.caches.filter (fun c => c.line = line && c.holder ≠ core && c.holder ≠ rdc &&
    (decide (c.holder = 1024 ∨ (256 ≤ c.holder ∧ c.holder < 272)) || near c.holder))).map (·.holder)
  let windows := (s.groups.filter (fun g => g.core ≠ core &&
    (g.window.any (fun w => w.holds { space := .mem, line := line })))).map (·.core)
  (copies ++ windows.filter (fun c => !(copies.contains c || copies.contains (256 + c / 16)))).eraseDups

/-- A holder drops its copy, and the open windows of its cores that an invalidation conflicts with roll back (R248,
R266). -/
def State.invalidateAt (s : State) (holder line : Nat) : State :=
  let k : LineKey := { space := .mem, line := line }
  let cs := coresOf holder
  let s := s.groups.foldl (fun s g =>
    match g.window with
    | some w => if cs.contains g.core && w.hit k true then s.rollback g.id true else s
    | none => s) s
  { s with caches := s.caches.filter (fun c => !(c.line = line &&
      (c.holder = holder || cs.contains c.holder || (decide (256 ≤ holder) && cs.contains (c.holder - 512) && decide (512 ≤ c.holder))))) }

/-- The groups of a holder whose windows delay an invalidation (R273, R277). -/
def State.holderDelays (s : State) (holder line : Nat) : List Group :=
  let k : LineKey := { space := .mem, line := line }
  s.groups.filter (fun g =>
    match g.window with
    | some w => (coresOf holder).contains g.core && (w.atoms.contains k || (g.anchors.contains k && w.hit k true))
    | none => false)

/-! ### Fills (R105, R205, R246, R265) -/

/-- Lines of an L1 and of an instruction cache (R205). -/
def cacheLines (holder : Nat) : Nat := if holder < 256 then 1536 else 512

/-- The line that leaves a full L1 or instruction cache for a fill: the one filled first that no open window of the core holds
(R205, R265; log entry 19). -/
def State.cacheVictim (s : State) (holder : Nat) : Option Nat :=
  let held (l : Nat) : Bool := s.groups.any (fun g => decide (g.core = holder % 512) &&
    g.window.any (fun w => w.holds { space := .mem, line := l }))
  (s.caches.find? (fun c => decide (c.holder = holder) && !held c.line)).map (·.line)

/-- The L1 or the instruction cache of a core has room for a line, once one that may leave has left. -/
def State.cacheRoom (s : State) (holder line : Nat) : Bool :=
  s.caches.any (fun c => c.holder = holder && c.line = line) ||
    decide ((s.caches.filter (fun c => c.holder = holder)).length < cacheLines holder) || (s.cacheVictim holder).isSome

/-- A line put into the L1 or the instruction cache of a core (R205): of a full one, a line leaves it. -/
def State.fillCore (s : State) (holder line : Nat) (st : LineState) : State :=
  let was : Option LineState := (s.caches.find? (fun c => c.holder = holder && c.line = line)).map (fun c => c.st)
  let others := s.caches.filter (fun c => !(c.line = line && c.holder = holder))
  let full := decide (cacheLines holder ≤ (others.filter (fun c => c.holder = holder)).length)
  let kept := match (if full then s.cacheVictim holder else none) with
    | some v => others.filter (fun c => !(c.line = v && c.holder = holder))
    | none => others
  { s with caches := kept ++ [{ holder := holder, line := line, st := if was = some .modified then .modified else st }] }

/-- A fill of a core waits while every place that it may take is held (R265). -/
def State.fillWaits (s : State) (holder vf line : Nat) : Bool :=
  !s.cacheRoom holder line || decide (s.fillPlace (s.sliceFor (holder % 512) line) vf line = .held)

/-- A line brought to the L1 or the instruction cache of a core (R93, R105, R246): into its home slice, into the remote-data
cache slice of the core's row when its home is elsewhere, and into the cache. -/
def State.fillCopy (s : State) (holder vf line : Nat) (st : LineState) : State :=
  let core := holder % 512
  let rdc := 256 + core / 16
  let dirty := decide (st = .modified)
  let s := s.postFill vf core line
  let s := if s.homePart line = 16 then s else s.fillSlice (16 * s.homeOf line + s.sliceOf line) vf line dirty
  let s :=
    if s.homeOf line = core / 64 then s
    else
      let s := s.fillSlice (s.sliceFor core line) vf line dirty
      let was : Option LineState := (s.caches.find? (fun c => c.holder = rdc && c.line = line)).map (fun c => c.st)
      { s with caches := s.caches.filter (fun c => !(c.line = line && c.holder = rdc)) ++
                 [{ holder := rdc, line := line, st := if was = some .modified then .modified else st }] }
  s.fillCore holder line st

/-! ### `pref` (R428) -/

/-- A lane of `pref`: its line comes into the L1 in state S, with the transfers of a load (R100, R428). A lane is dropped where
the fill or the walker's reads would wait, take the line from a core that has modified it, or roll back a window (log
entry 7). -/
def State.prefetch (s : State) (c : Ctx) (g : Group) (h : Hit) : State :=
  let line := lineOf h.addr
  let ws := s.hitWalks g [h]
  if s.caches.any (fun x => x.line = line && (x.holder = g.core || x.st = .modified)) || s.heldOff ws false ||
      s.fillWaits g.core c.vf line then s
  else
    let t := (((if ws = [] then s else s.readBy ws).eccRead [line]).usedHits c [h]).fillCopy g.core c.vf line .shared
    if t.groups = s.groups then t else s

/-- PREF (R428): no event, no trap; any lane may be dropped (log entry 7). -/
def execPref (a : RegName) (sz : AccSize) (off : BitVec 6) (ta : Bool) : State → Host.Outcome State Fault Refusal :=
  issue (fun g => wordOp (srcSpan a 2 ta) [] (g.spanOk a 2 2) true 0xFF (fun s g _ active =>
    let c := s.ctx g
    let ls := lanesOf g.width active
    let s' := ls.foldl (fun s l =>
      match laneTarget s c g (.va false) a off sz.bytes .read true l with
      | .hit h => if Config.dropPrefetch (s.draw + l) then s else s.prefetch c g h
      | _ => s) s
    .next { s' with draw := s'.draw + g.width } (max 4 (popLanes g.width active))))

/-! ### Early ownership (R248) -/

/-- The place of a holder of copies. -/
def holderPlace (holder : Nat) : Place :=
  if holder = 1024 then hubPlace
  else if 256 ≤ holder ∧ holder < 272 then slicePlace ((holder - 256) / 4) (4 * (holder % 4))
  else corePlace (holder % 512)

/-- The function to which the coherence messages of a request are charged: that of the window that asks (R103). -/
def State.ownerFor (s : State) (core line : Nat) : Nat :=
  ((s.groups.find? (fun g => g.core = core && g.window.any (fun w => w.holds { space := .mem, line := line }))).map
    (fun g => (s.ctx g).vf)).getD 0

/-- OWNERSHIP_REQUEST (R248): the home grants at once and sends the invalidations. A grant on its way to another core is
received first, and a core's earlier grant of the line is done first (log entry 19). -/
def execOwnershipRequest (core line : Nat) : State → Host.Outcome State Fault Refusal :=
  event (fun s =>
    match s.own.find? (fun o => o.core = core && o.line = line && !o.granted) with
    | none => none
    | some o =>
      if s.own.any (fun x => x.line = line && x.granted && (x.core = core || !x.received)) then none
      else
        let hs := s.holdersFor core line
        let s := hs.foldl (fun s h => s.postNote (s.ownerFor core line) 3 (s.homePlace line) (holderPlace h)) s
        some { s with own := s.own.map (fun x => if x = o then { x with granted := true, acks := hs.length } else x)
                      inval := s.inval ++ hs.map (fun h =>
                        ({ holder := h, line := line, requester := core, acked := false } : Inval)) })

/-- An ownership request whose grant and acknowledgements have come is done. -/
def State.settleOwn (s : State) : State :=
  { s with own := s.own.filter (fun o => !(o.received && decide (o.acks = 0))) }

/-- OWNERSHIP_GRANT (R248): the requester holds the line in M. -/
def execOwnershipGrant (core line : Nat) : State → Host.Outcome State Fault Refusal :=
  event (fun s =>
    if s.own.any (fun o => o.core = core && o.line = line && o.granted && !o.received) then
      let mark (o : OwnReq) : OwnReq := if o.core = core ∧ o.line = line then { o with received := true } else o
      let s1 : State := { s with own := s.own.map mark }
      let vf := s.ownerFor core line
      if s1.fillWaits core vf line then none else some ((s1.fillCopy core vf line .modified).settleOwn)
    else none)

/-- INVALIDATION (R248, R266): the holder drops its copy and acknowledges, unless a window of it holds the line
(R273, R277). -/
def execInvalidation (holder line : Nat) : State → Host.Outcome State Fault Refusal :=
  event (fun s =>
    match s.inval.find? (fun i => i.holder = holder && i.line = line && !i.acked) with
    | none => none
    | some i =>
      let held := s.holderDelays holder line
      if held ≠ [] then some (s.noteDelay (held.map (fun x => (x, { space := .mem, line := line }))))
      else
        let s1 := (s.invalidateAt holder line).postNote (s.ownerFor i.requester line) 3 (holderPlace holder) (corePlace i.requester)
        some { s1 with inval := s1.inval.map (fun x => if x = i then { x with acked := true } else x) })

/-- INVALIDATION_ACKNOWLEDGEMENT (R248): the requester counts it. -/
def execInvalidationAcknowledgement (core line : Nat) : State → Host.Outcome State Fault Refusal :=
  event (fun s =>
    match s.inval.find? (fun i => i.requester = core && i.line = line && i.acked) with
    | none => none
    | some i =>
      let count (o : OwnReq) : OwnReq := if o.core = core ∧ o.line = line then { o with acks := o.acks - 1 } else o
      let s1 : State := { s with inval := s.inval.erase i, own := s.own.map count }
      some s1.settleOwn)

/-! ### Results that come back lane by lane -/

/-- A producer of a group changed. -/
def State.modProducer (s : State) (gid pid : Nat) (f : Producer → Producer) : State :=
  s.modGroup gid (fun g => { g with producers := g.producers.map (fun p => if p.id = pid then f p else p) })

/-- A lane of a value replaced by a word; a uniform or affine value becomes general. -/
def RegVal.setLane (v : RegVal) (w l : Nat) (x : Word) : RegVal :=
  .ofLanes w (fun i => if i = l then x else v.lane i)

/-- The words of a lane put into the results of a producer, in the order of its names (R217, R252, R433). -/
def Producer.setLane (p : Producer) (w l x : Nat) (poison : Bool) : Producer :=
  { p with result := p.result.zipIdx.map (fun r =>
      { r.1 with val := r.1.val.setLane w l (BitVec.ofNat 32 (x / 2 ^ (32 * r.2))), poison := r.1.poison || poison }) }

/-- The result of a lane, when a producer waits for it. -/
def State.laneResult (s : State) (gid : Nat) (prod : Option Nat) (l x : Nat) (poison : Bool) : State :=
  match prod, s.group? gid with
  | some id, some g => s.modProducer gid id (fun p => p.setLane g.width l x poison)
  | _, _ => s

/-! ### Home-performed atomics (R249, R432–R434) -/

/-- HOME_ATOMIC_PERFORM (R432, R433): the next lane of the oldest one of the group, as one event. -/
def execHomeAtomicPerform (gid : Nat) : State → Host.Outcome State Fault Refusal :=
  event (fun s =>
    match s.homeAtoms.find? (fun h => h.group = gid) with
    | none => none
    | some h =>
      match h.lanes with
      | [] => none
      | (lane, a, v, sv) :: rest =>
        let size := if h.w64 then 8 else 4
        let line := lineOf a
        let k : LineKey := { space := .mem, line := line }
        let held := s.groups.filter (fun x => x.window.any (fun w => w.atoms.contains k))
        if s.locked .mem a size true then none
        else if s.heldOff [line] true then some (s.noteDelay (held.map (fun x => (x, k))))
        else
          let bad := s.badLine line
          let s1 := s.eccRead [line]
          let old := s1.readNat a size
          let s2 := (if bad then s1 else
            { s1 with mem := Memory.setBytes s1.mem a (toLe size (atomNew h.op h.w64 old v sv)) }).wrote none [line]
          let s3 := s2.laneResult gid h.producer lane old bad
          let later := s3.homeAtoms.map (fun x => if x = h then { x with lanes := rest } else x)
          let s4 : State := { s3 with homeAtoms := later.filter (fun x => x.lanes ≠ []) }
          some (s4.modGroup gid (fun g => { g with homeOut := g.homeOut - 1 })))

/-! ### Active messages (R252, R271) -/

/-- A lane of a message executed on the opener's block. -/
def ActiveMsg.lane (m : ActiveMsg) (s : State) (x : MsgLane) : State :=
  let sp : Space := .scratch m.team
  let a := m.base + x.off
  let old := s.peek [] sp a m.size
  let write (v : Nat) (s : State) : State := s.setCells sp (fun c => Memory.setBytes c a (toLe m.size v))
  match m.kind with
  | .load sx =>
    s.laneResult m.group m.prod x.lane (if sx && decide (m.size = 1) then encInt 32 (intOf true 8 old) else old) false
  | .store => write x.v s
  | .atom op => (write (atomNew op (decide (m.size = 8)) old x.v x.sv) s).laneResult m.group m.prod x.lane old false

/-- ACTIVE_MESSAGE (R252): the oldest message of a core, as one event on its line; the group goes on once its
messages have executed (R271). -/
def execActiveMessage (core : Nat) : State → Host.Outcome State Fault Refusal :=
  event (fun s =>
    match s.msgs.find? (fun m => m.target = core) with
    | none => none
    | some m =>
      let k : LineKey := { space := .scratch m.team, line := lineOf m.base }
      let write := match m.kind with | .load _ => false | _ => true
      let away := match s.team? m.team with
        | some t => t.state = .saving || t.state = .saved
        | none => false
      if away || s.delayed (some m.group) k write || m.lanes.any (fun x => s.locked k.space (m.base + x.off) m.size write) then
        none
      else
        let s1 := m.lanes.foldl m.lane (s.external (some m.group) k write)
        let s2 := { s1 with msgs := s1.msgs.erase m }
        some (if s2.msgs.any (fun x => x.group = m.group) then s2
              else s2.modGroup m.group (fun g => if g.block = .message then { g with block := .none } else g)))

/-! ### Condition monitors (R140, R438) -/

/-- The word of a `waitc` read again, as one event: it has changed; a read that is held off leaves it to the `waitc` itself, which
issues again (R140, R438). -/
def State.waitOver (s : State) (w : Wait) : Bool :=
  match w with
  | .monitor line _ addr want _ => s.heldOff [line] false || decide (s.readNat addr 4 ≠ want)
  | _ => false

/-- MONITOR_RECHECK (R139, R140, R438): a waiter without a monitor, resident or swapped out, reads its word 1,800 cycles after its
last read, as one event; when it has changed the waiter goes on, or waits for placement. A read that is held off leaves it to
the `waitc` itself, which issues again. -/
def execMonitorRecheck (g : Nat) (slotB : Bool) : State → Host.Outcome State Fault Refusal :=
  event (fun s =>
    match (s.groups ++ s.teams.flatMap (·.savedGroups)).find? (fun x => x.id = g) with
    | none => none
    | some x =>
      match (x.slot slotB).wait with
      | .monitor line false addr want c =>
        let t := s.by_ (c + 1800)
        let held := t.heldOff [line] false
        let t := if held then t else t.readBy [line]
        let ends := held || decide (t.readNat addr 4 ≠ want)
        let wait : Wait := if ends then .none else .monitor line false addr want t.cycle
        let up (y : Group) : Group := if y.id = g then y.waits slotB wait else y
        some { t with
          groups := t.groups.map up
          teams := t.teams.map (fun m =>
            if m.savedGroups.any (fun y => y.id = g) then
              (if ends then { m with savedGroups := m.savedGroups.map up }.rejoins t.cycle
               else { m with savedGroups := m.savedGroups.map up })
            else m) }
      | _ => none)

end Sys2Proof.Machine
end

