-- ==== Sys2Proof/Machine/Control.lean ====
section
/-!
DEFINITION. The control instructions, opcodes 0x01 to 0x12 (14_isa_control_lane.md R355–R370).
-/

namespace Sys2Proof.Machine

/-- The target of a branch at a PC: its own address plus 4 × offset, modulo 2^64 (R341). -/
def branchTarget (pc : DWord) {n : Nat} (off : BitVec n) : DWord := pc + (off.signExtend 64 <<< 2)

/-- The issuing slot moved, with its whole mask. -/
def moveSlot (s : State) (g : Group) (b : Bool) (pc : DWord) : Done :=
  .jump (s.modGroup g.id (fun g => g.setSlot b { g.slot b with pc := pc, wait := .none })) 1

/-- NOP (R364). -/
def execNop : State → Host.Outcome State Fault Refusal :=
  issue (fun _ => slotOp [] [] true false (fun s _ _ _ => .next s 1))

/-- MODE (R363): MODE[15:0]. -/
def execMode (imm : BitVec 16) : State → Host.Outcome State Fault Refusal :=
  issue (fun _ => slotOp [] [] true false (fun s g _ _ =>
    .next (s.setGroup { g with mode := (g.mode.extractLsb' 16 16) ++ imm }) 1))

/-- MODEX (R363): MODE[21:16]; the bits above read 0 (R342). -/
def execModex (imm : BitVec 6) : State → Host.Outcome State Fault Refusal :=
  issue (fun _ => slotOp [] [] true false (fun s g _ _ =>
    .next (s.setGroup { g with mode := (0#10 ++ imm ++ g.mode.extractLsb' 0 16 : BitVec 32) }) 1))

/-- BRA (R357). -/
def execBra (off : BitVec 24) : State → Host.Outcome State Fault Refusal :=
  issue (fun _ => slotOp [] [] true false (fun s g b _ => moveSlot s g b (branchTarget (g.slot b).pc off)))

/-- A slot split between a target and the next word (R222), or none when the stack would overflow. -/
def Group.split (g : Group) (b : Bool) (taken : Mask) (target : DWord) : Option Group :=
  let x := g.slot b
  let rest := x.mask &&& ~~~taken
  let next := x.pc + 4
  if (g.slot (!b)).mask = 0 then
    some ((g.setSlot b { x with pc := next, mask := rest, wait := .none }).setSlot (!b)
      { pc := target, mask := taken, jpc := x.jpc, parked := false, wait := .none })
  else if g.divMax ≤ g.stack.length then none
  else
    some (({ g with stack := { mask := rest, resume := next, join := x.jpc } :: g.stack }).setSlot b
      { x with pc := target, mask := taken, wait := .none })

/-- The effect of `brc` (R358); without u it gives DOUBLE in trap mode (R296). -/
def brcEffect (u n : Bool) (p : PredName) (off : BitVec 19) (s : State) (g : Group) (b : Bool) (mask : Mask) : Done :=
  let active := g.guarded mask
  let taken := maskWhere g.width (fun l => hasLane active l && (g.pred p l != n))
  let target := branchTarget (g.slot b).pc off
  if g.inTrap && !u then .trap s (slotTrap g b .double 0xFF)
  else if u && decide (taken ≠ 0) && decide (taken ≠ mask) then .trap s (slotTrap g b .uniformity 0xFF)
  else if taken = 0 then .next s 1
  else if taken = mask then moveSlot s g b target
  else
    match g.split b taken target with
    | some g' => .jump (s.setGroup g') 1
    | none => .trap s (slotTrap g b .stackOverflow 0xFF)

/-- BRC (R358). -/
def execBrc (u n : Bool) (p : PredName) (off : BitVec 19) : State → Host.Outcome State Fault Refusal :=
  issue (fun _ => slotOp [] [] true false (brcEffect u n p off))

/-- BRN (R359). -/
def execBrn (n : Bool) (p : PredName) (off : BitVec 19) : State → Host.Outcome State Fault Refusal :=
  issue (fun _ => slotOp [] [] true false (fun s g b mask =>
    let active := g.guarded mask
    if g.inTrap then .trap s (slotTrap g b .double 0xFF)
    else if active ≠ 0 ∧ (lanesOf g.width active).all (fun l => g.pred p l == n) then
      moveSlot s g b (branchTarget (g.slot b).pc off)
    else .next s 1))

/-- CALL (R360). -/
def execCall (d : RegName) (off : BitVec 16) : State → Host.Outcome State Fault Refusal :=
  issue (fun g =>
    { slotOp [] [d, d + 1] (g.spanOk d 2 2) false (fun s g b mask =>
        let next := (g.slot b).pc + 4
        match g.writeAll [(d, .uniform (loWord next)), (d + 1, .uniform (hiWord next))] mask with
        | some g' => moveSlot (s.setGroup g') g b (branchTarget (g.slot b).pc off)
        | none => .trap s (slotTrap g b .shape (destOf d))) with dest := destOf d })

/-- The effect of `jr` and `ret` (R361). -/
def jumpEffect (a : RegName) (s : State) (g : Group) (b : Bool) (mask : Mask) : Done :=
  let target := g.pair a (lowest g.width mask)
  if (lanesOf g.width mask).any (fun l => g.pair a l ≠ target) then .trap s (slotTrap g b .indirectDivergence 0xFF)
  else if target.extractLsb' 0 2 ≠ 0 then .trap s (slotTrap g b .misalignedPc 0xFF)
  else moveSlot s g b target

/-- RET (R361): it differs from `jr` in the prediction alone, which is timing. -/
def execRet (a : RegName) (ta : Bool) : State → Host.Outcome State Fault Refusal :=
  issue (fun g => slotOp (srcSpan a 2 ta) [] (g.spanOk a 2 2) false (jumpEffect a))

/-- JR (R361). -/
def execJr (a : RegName) (ta : Bool) : State → Host.Outcome State Fault Refusal :=
  issue (fun g => slotOp (srcSpan a 2 ta) [] (g.spanOk a 2 2) false (jumpEffect a))

/-- JOIN (R362); DOUBLE in trap mode (R296). -/
def execJoin (off : BitVec 24) : State → Host.Outcome State Fault Refusal :=
  issue (fun _ => slotOp [] [] true false (fun s g b _ =>
    if g.inTrap then .trap s (slotTrap g b .double 0xFF)
    else .next (s.setGroup (g.setSlot b { g.slot b with jpc := some (branchTarget (g.slot b).pc off) })) 1))

/-- YIELD (R364): the run of the group on its carousel ends. -/
def execYield : State → Host.Outcome State Fault Refusal :=
  issue (fun _ => slotOp [] [] true false (fun s g _ _ => .next (s.setGroup { g with yields := true }) 1))

/-- SLEEP (R365): counted from the end of the pass; `sleep 0` does not block. -/
def execSleep (n : BitVec 16) : State → Host.Outcome State Fault Refusal :=
  issue (fun _ => slotOp [] [] true false (fun s _ _ _ =>
    if n = 0 then .next s 1 else .block s 1 (.sleep (s.cycle + 1 + 16 * n.toNat))))

/-- STOP (R367), which in trap mode leaves it when the mask becomes empty (R298). -/
def execStop : State → Host.Outcome State Fault Refusal :=
  issue (fun _ => { slotOp [] [] true true (fun s g b active =>
      let x := g.slot b
      let rest := x.mask &&& ~~~active
      let g1 := g.setSlot b { x with mask := rest, pc := x.pc + 4, wait := .none }
      let g2 := if g.inTrap ∧ rest = 0 then { g1 with mode := modeBits g.trapMode, trapB := none } else g1
      .jump (s.setGroup g2) 1) with guarded := true })

/-- The pending bit of a barrier after an arrival. -/
def pendingAfter (s : State) (gid b : Nat) : Bool :=
  match s.group? gid with
  | some g => g.barPend.getD b false
  | none => false

/-- BAR (R368). -/
def execBar (b : BitVec 3) : State → Host.Outcome State Fault Refusal :=
  issue (fun _ => slotOp [] [] true true (fun s g _ _ =>
    let s' := s.arrive g b.toNat
    if pendingAfter s' g.id b.toNat then .block s' 1 (.barrier b.toNat) else .next s' 1))

/-- BARC (R368). -/
def execBarc (b : BitVec 3) : State → Host.Outcome State Fault Refusal :=
  issue (fun _ => slotOp [] [] true true (fun s g _ _ => .next (s.arrive g b.toNat) 1))

/-- BARW (R368). -/
def execBarw (b : BitVec 3) : State → Host.Outcome State Fault Refusal :=
  issue (fun _ => slotOp [] [] true true (fun s g _ _ =>
    if g.barPend.getD b.toNat false then .block s 1 (.barrier b.toNat) else .next s 1))

/-- WAITP (R370): a pending fault is raised whatever N, and returns to none at the trap's entry. -/
def execWaitp (path : Path) (n : BitVec 14) : State → Host.Outcome State Fault Refusal :=
  issue (fun _ => slotOp [] [] true false (fun s g b _ =>
    let i := pathIndex path
    let c := g.pathFault.getD i 0
    if c ≠ 0 then
      .trap (s.setGroup { g with pathFault := g.pathFault.set i 0 }) (slotTrap g b (.ofPending c) 0xFF)
    else if n.toNat < g.pathCount.getD i 0 then .wait (.path path n.toNat)
    else .next s 1))

/-- SETTLE (R366). -/
def execSettle : State → Host.Outcome State Fault Refusal :=
  issue (fun _ => slotOp [] [] true true (fun s _ _ _ => .next s 1))

end Sys2Proof.Machine
end

