-- ==== Sys2Proof/Machine/GroupEvents.lean ====
section
/-!
DEFINITION. Events of a group: its watchdog, sleeps and forced switches, completion of producers, commit, anchors, and
the traps that no instruction word names (05 R128, 08 R217, 10 R262–R277, 11 R297, 13 R341, R344, 14 R365).
-/

namespace Sys2Proof.Machine

/-- An event of a group that is resident. -/
def groupEvent (g : Nat) (f : State → Group → Option State) : State → Host.Outcome State Fault Refusal :=
  event (fun s => (s.group? g).bind (f s))

/-- WATCHDOG (R297). -/
def execWatchdog (g : Nat) : State → Host.Outcome State Fault Refusal :=
  groupEvent g (fun s x =>
    match x.trapB with
    | some b => some ((s.by_ (x.trapAt + 65536)).haltGroup x .watchdog (x.slot b).pc)
    | none => none)

/-- SLEEP_EXPIRY (R365). -/
def execSleepExpiry (g : Nat) (slotB : Bool) : State → Host.Outcome State Fault Refusal :=
  groupEvent g (fun s x =>
    match (x.slot slotB).wait with
    | .sleep n => some ((s.by_ n).setGroup (x.waits slotB .none))
    | _ => none)

/-- FORCED_SWITCH (R128): after 1,024 pass-cycles in a row. -/
def execForcedSwitch (g : Nat) : State → Host.Outcome State Fault Refusal :=
  groupEvent g (fun s x => if 1024 ≤ x.runCycles then some (s.setGroup { x with yields := true }) else none)

/-! ### Producers (R217, R269) -/

/-- The results of a producer in a register file. -/
def putResults (regs : List Reg) (ws : List RegWrite) : List Reg :=
  ws.foldl (fun rs w => rs.set w.name.toNat { val := w.val, full := true, poison := w.poison }) regs

/-- A producer writes its names and marks them full; one issued before the open window writes the checkpoint as well
(R217, R269). -/
def Group.complete (g : Group) (p : Producer) : Group :=
  let g1 := { g with regs := putResults g.regs p.result, producers := g.producers.filter (fun x => x.id ≠ p.id) }
  if p.inWindow then g1
  else g1.modWindow (fun w => { w with ckpt := { w.ckpt with regs := putResults w.ckpt.regs p.result } })

/-- Lines that a completed access brings into L1 and into the slices that serve them (R105, R246); one that the core holds by
then stays as it is, and one that another core has come to own is left there. -/
def State.fillLines (s : State) (core vf : Nat) (lines : List Nat) : State :=
  lines.foldl (fun s l =>
    if s.caches.any (fun c => c.line = l && (c.holder = core || (c.st = .modified && decide (c.holder < 256)))) then s
    else s.fillCopy core vf l .shared) s

/-- Some line of a completed access finds no place to take (R265). -/
def State.fillsWait (s : State) (core vf : Nat) (lines : List Nat) : Bool :=
  lines.any (fun l => !s.caches.any (fun c => c.line = l && c.holder = core) && s.fillWaits core vf l)

/-! ### Rays (R112, R199–R203) -/

/-- Leave for a `trace` burst that a core holds (R112). -/
def State.burstLeave (s : State) (core : Nat) : Bool := s.leaves.any (fun l => l.who = .burst core && l.granted)

/-- Rays in flight of older producers of a core (R112). -/
def State.raysBefore (s : State) (core id : Nat) : Nat :=
  s.groups.foldl (fun n g =>
    if g.core = core then
      (g.producers.filter (fun p => decide (p.id < id))).foldl (fun n p => n + (p.rays.filter LaneRay.inFlight).length) n
    else n) 0

/-- The rays of a `trace` that may read: those in flight that are not parked, without leave up to the core's 511th (R112). -/
def State.raysReady (s : State) (core : Nat) (p : Producer) : List LaneRay :=
  let fly := p.rays.filter LaneRay.inFlight
  (if s.burstLeave core then fly else fly.take (511 - s.raysBefore core p.id)).filter (fun x => x.parkedOn.isNone)

/-- One of several, in an order that the spec leaves open (log entry 9). -/
def State.pickOne {α : Type} (s : State) : List α → Option α
  | [x] => some x
  | xs => xs[Config.choice s.draw % xs.length]?

/-- A ray of a producer changed. -/
def State.modRay (s : State) (gid pid lane : Nat) (f : LaneRay → LaneRay) : State :=
  s.modProducer gid pid (fun p => { p with rays := p.rays.map (fun x => if x.lane = lane then f x else x) })

/-- A line read by the ray unit of a group (R202, R266): windows of other groups that have written it roll back. -/
def State.rayReads (s : State) (g : Group) (vf line : Nat) : State :=
  let s1 := (s.eccRead [line]).externalLines (some g.id) [{ space := .mem, line := line }] false
  let s2 := s1.supplied g.core (s1.missing g.core [{ space := .mem, line := line }])
  if s2.missing g.core [{ space := .mem, line := line }] = [] then s2 else s2.postFill vf g.core line

/-- A ray makes its next read, one event of the order (R202, R203); a replayable fault or a page in migration parks it (R201). -/
def State.rayStep (s : State) (g : Group) (p : Producer) (x : LaneRay) (y : RayState) : State :=
  let c := s.ctx g
  let stack := ((s.team? g.team).map (·.kernel.stack)).getD 0
  match y.step s (x.ray c.core c.vf c.dev ((stack : Int) - 5)) with
  | .on e none => s.modRay g.id p.id x.lane (fun x => { x with st := e })
  | .on e (some l) =>
    if s.delayed (some g.id) { space := .mem, line := l } false then s.noteHeld [l]
    else (s.rayReads g c.vf l).modRay g.id p.id x.lane (fun x => { x with st := e })
  | .parks q va =>
    let s1 := s.modRay g.id p.id x.lane (fun x => { x with parkedOn := some q })
    match q with
    | .page n =>
      s1.noteFault { vf := c.vf, page := n, va := va, write := false, exec := false, eng := true, hub := false,
                     core := g.core, tag := none, agents := [] } (.ray p.id)
    | _ => s1

/-- The result of an ended ray: its six words, and whether they are poisoned; a poisoned read leaves words that no instruction
can read (R201, R482). -/
def LaneRay.result (x : LaneRay) (draw : Nat) : List Nat × Bool :=
  match x.st with
  | .ended st held => (rayResult st held, false)
  | _ => ((List.range 6).map (fun i => (Config.freeWord (draw + 8 * x.lane + i)).toNat), true)

/-- A `trace` with the results of its rays (R201, R482). -/
def Producer.traced (p : Producer) (w draw : Nat) : Producer :=
  p.rays.foldl (fun (p : Producer) x =>
    let r := x.result draw
    { p with result := p.result.zipIdx.map (fun y =>
        { y.1 with val := y.1.val.setLane w x.lane (BitVec.ofNat 32 (r.1.getD y.2 0)), poison := y.1.poison || r.2 }) }) p

/-- A `trace` goes on by one read of one of its rays, or completes when all of them have ended (R199–R202); its reads begin
after the window that issued it has committed. -/
def State.traceOn (s : State) (g : Group) (p : Producer) : Option State :=
  if p.inWindow then none
  else if p.rays.all (fun x => !x.inFlight) then
    some ({ s with draw := s.draw + 512 }.setGroup (g.complete (p.traced g.width s.draw)))
  else
    match s.pickOne (s.raysReady g.core p) with
    | some x =>
      (match x.st with
       | .running y => some ({ s with draw := s.draw + 1 }.rayStep g p x y)
       | _ => none)
    | none => none

/-- PRODUCER_COMPLETE (R202, R217, R269). A `trace` of a group that has stopped for a save makes no more reads (R300). -/
def execProducerComplete (g : Nat) (id : Nat) : State → Host.Outcome State Fault Refusal :=
  groupEvent g (fun s x =>
    match x.producers.find? (fun p => p.id = id) with
    | none => none
    | some p =>
      if s.msgs.any (fun m => m.prod = some id) || s.homeAtoms.any (fun h => h.producer = some id) ||
          (s.tileOps ++ (x.window.map (·.lateReads)).getD []).any (fun t => match t.work with | .read q _ => decide (q = id) | _ => false)
        then none
      else if x.block = .stopped || (s.team? x.team).any (·.state = .saving) then none
      else if p.kind = .trace then s.traceOn x p
      else if s.fillsWait x.core (s.ctx x).vf p.fills then none
      else some ((s.setGroup (x.complete p)).fillLines x.core (s.ctx x).vf p.fills))

/-! ### Commit (R267) -/

/-- The window of a group may commit: every access has performed (R267). -/
def State.mayCommit (s : State) (g : Group) : Bool := g.window.isSome && decide (s.unperformed g = 0)

/-- The group with its window's effects on itself (R267, R269, R275, R277, R288, R460). -/
def Group.committed (g : Group) (w : Window) : Group :=
  { g with
    window := none
    producers := g.producers.map (fun p => { p with inWindow := false })
    tileCfg := w.shadowCfg.getD g.tileCfg
    srseed := w.srseed.getD g.srseed
    hostOut := g.hostOut + w.hostStores
    rollbacks := 0, narrowed := false, ticket := none, anchors := [], anchorAt := none, anchorWaited := 0, stuck := false,
    block := (match g.block with | .anchor _ => .none | x => x) }

/-- The lines that the lanes of one store write whole (R25). -/
def storeLines (qs : List QWrite) : List Nat :=
  let mem := (qs.filter (fun q => q.space = .mem && q.keep = [])).flatMap (fun q => (List.range q.data.length).map (q.addr + ·))
  ((mem.map lineOf).eraseDups).filter (fun l => decide ((mem.filter (fun a => lineOf a = l)).eraseDups.length = 128))

/-- The effects of a window in program order: its stores drain, its tiles replace their targets, and its deferred operations
are released, with the `mrd`s behind them (R25, R267, R272, R460); its samples are applied to a store (R189). -/
def State.commit (s : State) (g : Group) (w : Window) (x : Option Store) : State :=
  let s := s.externalLines (some g.id) w.writes true
  let s := (w.stores.flatten.foldl State.apply s).cleanLines (w.stores.flatMap storeLines)
  let s := s.modTeam g.team (fun t => w.shadowTiles.foldl (fun t p =>
    { t with acc := (List.range 1024).foldl (fun m i => assign 0 m (1024 * p.1 + i) (lookup 0 p.2 i)) t.acc }) t)
  let s := match x with
    | some x => s.setStore x
    | none => s
  let vf := (s.ctx g).vf
  let s := s.setGroup (g.committed w)
  let late := w.lateReads.map (fun t =>
    { t with after := t.after ++ (s.ops.filter (fun o => decide (o.team = g.team) && o.namesTile t.tile)).map (·.id) })
  let s := w.deferred.foldl (fun s o => s.release vf o) { s with tileOps := s.tileOps ++ late }
  s.announce ((w.writes.filter (fun k => k.space = .mem)).map (·.line))

/-- The window of a group rolls back so that what was found after issue is raised at its own instruction (R274). -/
def State.redo (s : State) (g : Nat) : State := (s.rollback g false).modGroup g (fun x => { x with narrowed := true })

/-- WINDOW_COMMIT (R267): sample writes without an owned bucket are found now, and roll the window back so that they
are raised at their own instruction (R189, R274); those that need lines of a spill slab wait for it (R188). -/
def execWindowCommit (g : Nat) : State → Host.Outcome State Fault Refusal :=
  groupEvent g (fun s x =>
    match x.window with
    | none => none
    | some w =>
      if !s.mayCommit x then none
      else if w.samples = [] then some (s.commit x w none)
      else
        match s.ownedStore x.team with
        | none => some (s.redo g)
        | some st =>
          let desc := ((s.storeFrame st).map (·.desc)).getD 0
          let st' := w.samples.foldl Store.write st
          match s.placeRecords st desc (((s.team? x.team).map (·.launch)).getD 0) st'.linesDue with
          | .ok s1 a b slab =>
            (match s1.group? g with
             | some y =>
               if y.window = x.window then
                 some (s1.commit y w (some { st' with recLines := st.recLines + a, recSpill := st.recSpill + b, slab := slab }))
               else some s1
             | none => some s1)
          | .again s1 => if s1 = s then none else some s1
          | .fault => some (s.redo g)
          | .parks p va => some (s.parkGroup x (s.ctx x) .write [(p, va)])
          | .later ls => some (s.noteHeld ls))

/-! ### Anchors and holds (R273, R277) -/

/-- The home of a line's anchor for a group of a core (R235, R277): its slice, the remote-data cache slice of the core for a host
line, or the bank unit of the core whose scratchpad or store holds it. -/
def State.anchorHome (s : State) (core : Nat) (k : LineKey) : Nat :=
  match k.space with
  | .mem => if s.homePart k.line = 16 then s.sliceFor core k.line else 16 * s.homeOf k.line + s.sliceOf k.line
  | .scratch t =>
    (match s.team? t with
     | some x => 128 + (if x.pair && decide ((x.kernel.scratch + 1) / 2 ≤ k.line) then x.core + 1 else x.core)
     | none => 128)
  | .grid c => 128 + c

/-- A group holds an anchor at the home of a line that a group of a core asks for. -/
def State.anchoredAt (s : State) (g : Group) (core : Nat) (k : LineKey) : Bool :=
  g.anchors.any (fun a => s.anchorHome g.core a = s.anchorHome core k)

/-- The group asks for the anchor of that home. -/
def State.asksAnchor (s : State) (g : Group) (core : Nat) (k : LineKey) : Bool :=
  match g.block with
  | .anchor a => decide (s.anchorHome g.core a = s.anchorHome core k)
  | _ => false

/-- ANCHOR_GRANT (R277): in ticket order; a younger holder rolls back and keeps its ticket. -/
def execAnchorGrant (g : Nat) (line : Nat) : State → Host.Outcome State Fault Refusal :=
  groupEvent g (fun s x =>
    match x.block, x.ticket with
    | .anchor k, some t =>
      let older (y : Group) : Bool := match y.ticket with | some u => decide (u < t) | none => false
      let others := s.groups.filter (fun y => y.id ≠ g)
      if k.line ≠ line || others.any (fun y => (s.anchoredAt y x.core k || s.asksAnchor y x.core k) && older y) then none
      else
        let s1 := (others.filter (fun y => s.anchoredAt y x.core k)).foldl (fun s y => s.rollback y.id false) s
        some (s1.modGroup g (fun x => { x with block := .none, anchors := x.anchors ++ [k],
                                               anchorAt := some (x.anchorAt.getD s.cycle) }))
    | _, _ => none)

/-- The cycle at which the time limit of a group's anchors is reached, while it waits on an access or an anchor (R277). -/
def Group.anchorLimit (g : Group) : Option Nat :=
  match g.window, g.anchorAt with
  | some _, some a => if g.stuck || (match g.block with | .anchor _ => true | _ => false) then some (a + (4096 - g.anchorWaited)) else none
  | _, _ => none

/-- ANCHOR_TIMEOUT (R277). -/
def execAnchorTimeout (g : Nat) : State → Host.Outcome State Fault Refusal :=
  groupEvent g (fun s x => x.anchorLimit.map (fun t => (s.by_ t).rollback g false))

/-- ATOM_HOLD_TIMEOUT (R273): the window rolls back, so that a delayed request is served (log entry 15). -/
def execAtomHoldTimeout (g : Nat) : State → Host.Outcome State Fault Refusal :=
  groupEvent g (fun s x =>
    match x.window with
    | some w => if w.atoms.all (fun k => x.anchors.contains k) then none else some ((s.by_ (w.delayedAt.getD s.cycle + 512)).rollback g true)
    | none => none)

/-! ### Fences and words that are no instruction -/

/-- PCIE_READ_RETURN (R286): stores to COH 0 host memory have reached it. -/
def execPcieReadReturn (g : Nat) : State → Host.Outcome State Fault Refusal :=
  groupEvent g (fun s x => if 0 < x.hostOut then some (s.setGroup { x with hostOut := 0 }.endFence) else none)

/-- ILLEGAL_OPCODE (R340, R344): a word that is no instruction raises the trap at issue, under every guard. -/
def execIllegalOpcode (_w : Word) : State → Host.Outcome State Fault Refusal :=
  issue (fun _ => { slotOp [] [] true false (fun s _ _ _ => .stay s) with legal := false })

/-- INSTRUCTION_FETCH_FAULT (R231, R242, R341): PAGE_FAULT at the fetch, or the group parks. -/
def execInstructionFetchFault : State → Host.Outcome State Fault Refusal :=
  issue (fun _ => slotOp [] [] true false (fun s g b _ =>
    match s.fetchPlace g with
    | .cause _ c => .trap s (slotTrap g b c 0xFF)
    | .park p va => .stay (s.parkGroup g (s.ctx g) .exec [(p, va)])
    | _ => .stay s))

end Sys2Proof.Machine
end

