-- ==== Sys2Proof/Machine/Loading.lean ====
section
/-!
DEFINITION. A program placed from outside the machine (log entry 1): one word at a virtual address of function 0, its
page tables, and one group that stands at it.
-/

namespace Sys2Proof.Machine

/-- A kernel of one group of 16 lanes with 120 general-capable names. -/
def Kernel.single : Kernel :=
  { width := 16, pair := false, groups := 1, nG := 120, nA := 0, nU := 0, scratch := 1024, stack := 16, divstack := 16,
    copyq := 8, acc := 8, argn := 0, mode0 := 0, entry := 0x1000, handler := 0x2000, pqtab := 0, pqn := 0, invalid := false }

/-- A launch of one team on function 0. -/
def Launch.single : Launch :=
  { id := 1, vf := 0, q := 0, seq := 0, dev := 0, prio := 0, kernel := Kernel.single, queues := [], args := 0, gx := 0,
    gy := 0, gz := 0, state := .ready, started := true, task := none, notify := none, next := 1, waitSince := none,
    order := 0, cause := none, faultGroup := 0, faultPc := 0, aborted := false, enq := false, kdesc := none }

/-- A team at its placement (R118, R225, R250). -/
def Team.start (id launch : Nat) (k : Kernel) (queue : Option Nat) (index x y z core prio age : Nat) : Team :=
  { id := id, launch := launch, kernel := k, queue := queue, index := index, x := x, y := y, z := z, core := core,
    pair := k.pair, prio := prio, state := .running, age := age, scratch := [],
    barriers := List.replicate 8 { phase := false, count := 0 }, acc := [], bucket := none, slot := none, discard := false,
    savedGroups := [], rejoin := false, waitSince := none, displacers := [], endedGroups := [], argsDue := false, idleSince := none }

/-- A group at its start (R118). -/
def Group.start (id team num core carousel : Nat) (k : Kernel) : Group :=
  { id := id, team := team, num := num, core := core, carousel := carousel, width := k.width, nG := k.nG, nA := k.nA,
    nU := k.nU, regs := List.replicate Group.regCount Reg.default, preds := List.replicate 8 0,
    mode := k.mode0.setWidth 32,
    slotA := { pc := k.entry, mask := fullMask k.width, jpc := none, parked := false, wait := .none }, slotB := emptySlot,
    lastB := true, stack := [], divMax := k.divstack, trapB := none, trapAt := 0, trapCause := 0, trapPc := 0, trapMask := 0,
    trapDest := 0xFF, trapMode := 0, trapBase := k.handler, srseed := 0, specCount := 0, clockH := 0,
    pathCount := [0, 0, 0, 0], pathFault := [0, 0, 0, 0], barPend := List.replicate 8 false, tileCfg := 0, producers := [],
    window := none, block := .none, rollbacks := 0, rollPc := 0, narrowed := false, ticket := none, anchors := [], anchorAt := none, anchorWaited := 0, stuck := false,
    homeOut := 0, xstOut := 0, hostOut := 0, presents := 0, runCycles := 0, onTurn := false, yields := false,
    parkedOn := [] }

/-- Page tables of function 0 that map the page of VA 0x1000 to the near-tier page at 0x4000 of the unified decode,
readable, writable and executable, and the word at its start (R237, R238, R234). -/
def tablesFor (w : Word) : List Cell :=
  let m : List Cell := []
  let m := Memory.setBytes m 0x0 (toLe 8 0x10001)
  let m := Memory.setBytes m 0x1000 (toLe 4 w.toNat)
  let m := Memory.setBytes m 0x10000 (toLe 8 0x11001)
  let m := Memory.setBytes m 0x11000 (toLe 8 0x12001)
  Memory.setBytes m 0x12008 (toLe 8 0x402F)

/-- The state with a word placed where its one group fetches next (log entry 1): start-up is complete, function 0 is
bound and lends, and no other group is resident. -/
def State.placeWord (s : State) (w : Word) : State :=
  { s with
    agenda := [], turns := [0], cur := 2, curB := false, nextId := 4
    mem := tablesFor w, tlb := [], moves := [], poison := [], symErrs := []
    pf := [(devstat, 0x80000000), (0x100000, 0xC0000001)]
    mgmt := { s.mgmt with powered := true, stage := 5, alarmed := false }
    launches := [Launch.single]
    teams := [Team.start 3 1 Kernel.single none 0 0 0 0 0 0 0]
    groups := [Group.start 2 3 0 0 0 Kernel.single] }

end Sys2Proof.Machine
end

