-- ==== Sys2Proof/Machine/Launching.lean ====
section
/-!
DEFINITION. Launches from their acceptance to their teams: kernel descriptors (05 R115–R117), pipeline queue tables
(R129), task slots (R120–R122), readiness (R123), resources and placement (R124–R127), the start of a team (R118, R119)
and the end of a launch (03 R76).
-/

namespace Sys2Proof.Machine

/-! ### Reads of the hub (R75, R119) -/

/-- What a read of an engine of the hub comes to. -/
inductive HubRead where
  | ok (x : Nat) (lines : List Nat)
  | fault
  | poisoned
  | park (p : Parked)
  /-- A window or a lock of another agent holds it off, on these lines. -/
  | later (lines : List Nat)
  deriving DecidableEq, Repr

/-- `n` bytes at a virtual address of a function, read by an engine of the hub; a read range that is locked holds it off where
`locks`. The lines are those of the entries that the walk reads and of the bytes. -/
def State.hubReadBy (s : State) (locks : Bool) (vf dev va n : Nat) : HubRead :=
  match s.engineRange none none vf dev false (rangeFuel n) va n with
  | .fault => .fault
  | .park p _ => .park p
  | .ok ps =>
    let ls := s.walkLines none vf va n ++ pieceLines ps
    if s.poisonedPieces ps then .poisoned
    else if s.heldOff ls false || (locks && ps.any (fun p => s.locked .mem p.1 p.2.1 false)) then .later ls
    else .ok (leNat ((s.eccRead ls).readPieces ps)) ls

def State.hubRead (s : State) (vf dev va n : Nat) : HubRead := s.hubReadBy true vf dev va n

/-- A read of the hub made for a function: its lines reach the order, and their traffic is the function's (R103, R258). -/
def State.hubTook (s : State) (vf : Nat) (ls : List Nat) : State := (s.readBy ls).postLines vf false hubPlace false ls

/-- What a write of an engine of the hub comes to: the pieces, and the lines of the entries that the walk reads. -/
inductive HubWrite where
  | ok (ps : List (Nat × Nat × Bool)) (walks : List Nat)
  | fault
  | park (p : Parked)
  | later (lines : List Nat)
  deriving DecidableEq, Repr

def State.hubWrite (s : State) (vf dev va n : Nat) : HubWrite :=
  match s.engineRange none none vf dev true (rangeFuel n) va n with
  | .fault => .fault
  | .park p _ => .park p
  | .ok ps =>
    let ws := s.walkLines none vf va n
    if s.heldOff ws false then .later ws
    else if s.heldOff (pieceLines ps) true || ps.any (fun p => s.locked .mem p.1 p.2.1 true) then .later (pieceLines ps)
    else .ok ps ws

/-- Such a write made (R25, R103, R258). -/
def State.hubStore (s : State) (vf : Nat) (ps : List (Nat × Nat × Bool)) (ws : List Nat) (bs : List Byte) : State :=
  ((((if ws = [] then s else s.readBy ws).writePieces ps bs).wrote none (pieceLines ps)).postLines vf false hubPlace true
    (pieceLines ps))

/-- A read of the display engine, which a lock does not hold off: its writes come at their single point (R282), after it. -/
def State.displayRead (s : State) (vf dev va n : Nat) : HubRead := s.hubReadBy false vf dev va n

/-! ### Kernel descriptors (R116, R117, R124) -/

/-- Groups of a team on core `i` of those it occupies (R125). -/
def Kernel.groupsOn (k : Kernel) (i : Nat) : Nat := if k.pair then (k.groups + 1 - i) / 2 else k.groups

/-- (G + 8) × W + 2A + U. -/
def Kernel.groupWords (k : Kernel) : Nat := (k.nG + 8) * k.width + 2 * k.nA + k.nU

/-- S of R124. -/
def Kernel.share (k : Kernel) : Nat := 128 * (if k.pair then (k.scratch + 1) / 2 else k.scratch)

/-- Scratchpad bytes of a team on a core it occupies (R124). -/
def Kernel.scratchNeed (k : Kernel) (i : Nat) : Nat :=
  k.share + k.groupsOn i * (32 * k.divstack + 8 * k.width * k.stack)

/-- Fields of a descriptor, without the checks of its pipeline. -/
def kernelFields (d : Nat) : Kernel :=
  { width := if bits d 0 2 = 0 then 16 else if bits d 0 2 = 1 then 32 else 64
    pair := decide (bits d 2 1 = 1), groups := bits d 3 5 + 1, nG := bits d 8 7, nA := bits d 16 7, nU := bits d 24 7,
    scratch := bits d 32 13, stack := bits d 48 6, divstack := bits d 56 6, copyq := bits d 64 6, acc := bits d 72 7,
    argn := bits d 80 5, mode0 := BitVec.ofNat 16 (bits d 96 16), entry := BitVec.ofNat 64 (4 * bits d 128 47),
    handler := BitVec.ofNat 64 (4 * bits d 192 47), pqtab := 128 * bits d 256 42, pqn := bits d 304 8, invalid := false }

/-- Reserved fields of a descriptor: place and width. -/
def kernelReserved : List (Nat × Nat) :=
  [(15, 1), (23, 1), (31, 1), (45, 3), (54, 2), (62, 2), (70, 2), (79, 1), (85, 11), (112, 16), (175, 17), (239, 17),
   (298, 6), (312, 1736)]

/-- A descriptor breaks R117, its pipeline apart. -/
def kernelInvalid (d : Nat) : Bool :=
  let k := kernelFields d
  decide (bits d 0 2 = 3) || decide (k.entry = 0) || decide (120 < k.nG + k.nA + k.nU) || decide (k.nU < k.argn) ||
    decide (16 < k.argn) || decide (4096 < k.groupWords) || decide (32 < k.copyq) || decide (64 < k.acc) ||
    kernelReserved.any (fun r => decide (bits d r.1 r.2 ≠ 0)) || decide ((if k.pair then 4096 else 2048) < k.scratch) ||
    [0, 1].any (fun i => decide (524288 < k.scratchNeed i) || decide (32 < k.groupsOn i * k.copyq))

/-- An invalid kernel: one that broke a rule or could not be read (R117). -/
def Kernel.unreadable : Kernel := { kernelFields 0 with invalid := true }

/-- What the capture of a descriptor comes to: what was captured, with the lines that were read, or the lines that it waits
for; a page in migration has it wait with none (R115, R256). -/
inductive Capture (α : Type) where
  | ok (x : α) (lines : List Nat)
  | later (lines : List Nat)

/-- A capture followed by another. -/
def Capture.bind {α β : Type} (c : Capture α) (f : α → Capture β) : Capture β :=
  match c with
  | .later ls => .later ls
  | .ok x ls =>
    match f x with
    | .ok y ms => .ok y (ls ++ ms)
    | .later ms => .later ms

/-- Bytes of a descriptor; none when they cannot be read (R117). -/
def State.capture (s : State) (vf dev va n : Nat) : Capture (Option Nat) :=
  match s.hubRead vf dev va n with
  | .ok d ls => .ok (some d) ls
  | .later ls => .later ls
  | .park (.move _) => .later []
  | _ => .ok none []

/-- A descriptor read and captured (R115). -/
def State.readKernel (s : State) (vf dev va : Nat) : Capture Kernel :=
  (s.capture vf dev va 256).bind (fun d => .ok (match d with
    | some d => { kernelFields d with invalid := kernelInvalid d }
    | none => Kernel.unreadable) [])

/-- Entry q of a pipeline queue table with its kernel, when it obeys R129. -/
def queueOf (e : Nat) (k : Kernel) : Option PQueue :=
  let pay := bits e 144 8
  if bits e 41 23 ≠ 0 ∨ bits e 106 22 ≠ 0 ∨ bits e 160 352 ≠ 0 ∨ pay = 0 ∨ 32 < pay ∨ bits e 128 16 = 0 ∨ k.invalid = true ∨
      k.groups ≠ 1 ∨ k.pair = true ∨ k.pqtab ≠ 0 ∨ k.nG < pay then none
  else some { kernel := k, rows := 128 * bits e 64 42, nrows := bits e 128 16, pay := pay, age := bits e 152 8 }

def State.readQueue (s : State) (vf dev va : Nat) : Capture (Option PQueue) :=
  (s.capture vf dev va 64).bind (fun e => match e with
    | some e => (s.readKernel vf dev (256 * bits e 0 41)).bind (fun k => .ok (queueOf e k) [])
    | none => .ok none [])

/-- The kernel of a launch with the queues of its pipeline (R115, R117, R129). -/
def State.captureKernel (s : State) (vf dev va : Nat) : Capture (Kernel × List PQueue) :=
  (s.readKernel vf dev va).bind (fun k =>
    if k.invalid ∨ k.pqtab = 0 then .ok (k, []) []
    else
      ((List.range (k.pqn + 1)).foldl (fun (acc : Capture (List (Option PQueue))) q => acc.bind (fun qs =>
          (s.readQueue vf dev (k.pqtab + 64 * q)).bind (fun x => .ok (qs ++ [x]) []))) (.ok [] [])).bind (fun qs =>
        .ok (if qs.all Option.isSome then (k, qs.filterMap id) else (Kernel.unreadable, [])) []))

/-! ### Task slots (R121, R122) -/

def State.taskSlot (s : State) (k : Nat) : TaskSlot :=
  (s.tasks.find? (fun t => t.k = k)).getD { k := k, c := 0, e := 0, held := none }

/-- A slot written; one that is IDLE with both counts 0 is not listed. -/
def State.setTask (s : State) (t : TaskSlot) : State :=
  let others := s.tasks.filter (fun x => x.k ≠ t.k)
  { s with tasks := if t.c = 0 ∧ t.e = 0 ∧ t.held = none then others else others ++ [t] }

/-! ### Readiness (R117, R123) -/

/-- A launch that has started, and whose counter is zero, enters its level; one with an invalid descriptor completes
instead (R117, R123). -/
def State.tryReady (s : State) (id : Nat) : State :=
  match s.launch? id with
  | none => s
  | some l =>
    if l.state = .waiting ∧ l.started = true ∧ l.task = none ∧ l.kdesc = none then
      let (n, s) := s.fresh
      s.setLaunch (if l.kernel.invalid then
        { l with state := .ready, order := n, cause := some (l.cause.getD 0x14), aborted := true }
      else { l with state := .ready, order := n, waitSince := some s.cycle })
    else s

/-- A decrement by n reaches a hub slot (R121). -/
def State.decrementSlot (s : State) (k n : Nat) : State :=
  let t := s.taskSlot k
  match t.held with
  | none => s.setTask { t with e := min 65535 (t.e + n) }
  | some l =>
    let c := t.c - n
    if c = 0 then ((s.setTask { k := k, c := 0, e := 0, held := none }).modLaunch l (fun x => { x with task := none })).tryReady l
    else s.setTask { t with c := c }

/-- A decrement of a function's slot, dropped outside the allotment (R122). -/
def State.decrement (s : State) (vf k n : Nat) : State :=
  if s.taskCount vf ≤ k then s else s.decrementSlot (s.taskBase vf + k) n

/-- TASK_DECREMENT (R121, R122): the oldest decrement on its way. -/
def execTaskDecrement : State → Host.Outcome State Fault Refusal :=
  event (fun s =>
    match s.decs with
    | [] => none
    | d :: rest =>
      let s1 : State := { s with decs := rest }
      let s2 := s1.decrement d.vf d.k d.n
      some (match d.op.bind s2.op? with
        | some o => s2.finishOp o
        | none => s2))

/-! ### LAUNCH records (R74) -/

/-- A LAUNCH record breaks its limits (R72–R74, R121): reserved bits, and the slots it uses. -/
def State.launchBad (s : State) (vf r : Nat) : Bool :=
  let tasken := decide (bits r 243 1 = 1)
  let task := bits r 208 16
  decide (bits r 41 23 ≠ 0) || decide (bits r 105 7 ≠ 0) || decide (bits r 158 2 ≠ 0) || decide (bits r 244 12 ≠ 0) ||
    decide (bits r 273 239 ≠ 0) ||
    (tasken && (decide (s.taskCount vf ≤ task) || (s.taskSlot (s.taskBase vf + task)).held.isSome)) ||
    (decide (bits r 272 1 = 1) && decide (s.taskCount vf ≤ bits r 256 16))

/-- The read of a launch's descriptor, one event, or its wait (R115). -/
def State.captureFor (s : State) (id va : Nat) : State :=
  match s.launch? id with
  | none => s
  | some l =>
    match s.captureKernel l.vf l.dev va with
    | .ok (k, qs) ls => (s.hubTook l.vf ls.eraseDups).modLaunch id (fun l => { l with kernel := k, queues := qs, kdesc := none })
    | .later ls => s.noteHeld ls

/-- A LAUNCH record taken (R74, R115, R121): the new launch's number and the state. -/
def State.takeLaunch (s : State) (vf q dev r cap : Nat) (seq : Word) (enq : Bool) : Nat × State :=
  let (id, s) := s.fresh
  let slot := s.taskBase vf + bits r 208 16
  let t := s.taskSlot slot
  let c := bits r 224 16 - t.e
  let tasken := decide (bits r 243 1 = 1)
  let kdesc := 256 * bits r 64 41
  let l : Launch :=
    { id := id, vf := vf, q := q, seq := seq, dev := dev, prio := min (bits r 240 3) cap, kernel := Kernel.unreadable, queues := [],
      args := 8 * bits r 112 46, gx := bits r 160 16, gy := bits r 176 16, gz := bits r 192 16, state := .waiting,
      started := false, task := if tasken ∧ c ≠ 0 then some slot else none,
      notify := if bits r 272 1 = 1 then some (bits r 256 16) else none, next := 0, waitSince := none, order := 0,
      cause := none, faultGroup := 0, faultPc := 0, aborted := false, enq := enq, kdesc := some kdesc }
  let s := if tasken then s.setTask { k := slot, c := c, e := 0, held := if c = 0 then none else some id } else s
  (id, { s with launches := s.launches ++ [l] }.captureFor id kdesc)

/-- Its record has started (R76, R123). -/
def State.startLaunch (s : State) (id : Nat) : State :=
  (s.modLaunch id (fun l => { l with started := true })).tryReady id

/-- Teams of a launch's grid (R74, R123). -/
def Launch.teams (l : Launch) : Nat := (l.gx + 1) * (l.gy + 1) * (l.gz + 1)

/-! ### Resources (R124, R125) -/

/-- Teams that hold resources on a core. -/
def State.teamsOn (s : State) (core : Nat) : List Team :=
  s.teams.filter (fun t => t.state ≠ .ended && t.state ≠ .saved && (t.core = core || (t.pair && t.core + 1 = core)))

/-- Groups resident on a core. -/
def State.groupsOn (s : State) (core : Nat) : List Group := s.groups.filter (fun g => g.core = core)

/-- Group words of a group. -/
def Group.words (g : Group) : Nat := (g.nG + 8) * g.width + 2 * g.nA + g.nU

/-- The carousels of `n` more groups of a size on a core, given the resident ones as (carousel, words): each takes the
carousel with the fewest groups, then the lowest, that has a slot and the words (R207). -/
def carouselsFor (words : Nat) : Nat → List (Nat × Nat) → Option (List Nat)
  | 0, _ => some []
  | n + 1, used =>
    let load (c : Nat) : Nat := (used.filter (fun p => p.1 = c)).length
    let room (c : Nat) : Bool :=
      decide (load c < 2) && decide ((used.filter (fun p => p.1 = c)).foldl (fun m p => m + p.2) 0 + words ≤ 4096)
    match (List.range 128).find? (fun c => room c && load c = 0) with
    | some c => (carouselsFor words n ((c, words) :: used)).map (c :: ·)
    | none =>
      match (List.range 128).find? room with
      | some c => (carouselsFor words n ((c, words) :: used)).map (c :: ·)
      | none => none

/-- The carousels of a team's groups on core `i` of those it would occupy, when the core has the resources. -/
def State.coreFits (s : State) (core i : Nat) (k : Kernel) : Option (List Nat) :=
  let ts := s.teamsOn core
  let at_ (t : Team) : Nat := if t.core = core then 0 else 1
  let sum (f : Team → Nat) : Nat := ts.foldl (fun n t => n + f t) 0
  let here := s.groupsOn core
  if 524288 < sum (fun t => t.kernel.scratchNeed (at_ t)) + k.scratchNeed i ∨
      32 < sum (fun t => t.kernel.groupsOn (at_ t) * t.kernel.copyq) + k.groupsOn i * k.copyq ∨
      (i = 0 ∧ 64 < sum (fun t => if t.core = core then t.kernel.acc else 0) + k.acc) ∨
      256 < here.length + k.groupsOn i then none
  else carouselsFor k.groupWords (k.groupsOn i) (here.map (fun g => (g.carousel, g.words)))

/-- Partition of a core (R206). -/
def corePartition (core : Nat) : Nat := core / 16

/-- A core or pair has the resources of a team: the carousels of its groups, in group order (R125). -/
def State.placeFits (s : State) (core : Nat) (k : Kernel) : Option (List Nat) :=
  if k.pair then
    if core % 2 ≠ 0 then none
    else
      match s.coreFits core 0 k, s.coreFits (core + 1) 1 k with
      | some a, some b => some ((List.range k.groups).map (fun g => (if g % 2 = 0 then a else b).getD (g / 2) 0))
      | _, _ => none
  else s.coreFits core 0 k

/-- The core of group g of a team placed at a core (R125). -/
def groupCore (core : Nat) (k : Kernel) (g : Nat) : Nat := if k.pair then core + g % 2 else core

/-! ### The start of a team (R118, R119) -/

/-- What the read of an argument block comes to. -/
def State.readArgs (s : State) (l : Launch) (n : Nat) : HubRead := s.hubRead l.vf l.dev l.args (4 * n)

/-- Argument words written into the groups of a team (R119). -/
def State.putArgs (s : State) (t : Team) (x : Nat) : State :=
  { s with groups := s.groups.map (fun g =>
      if g.team = t.id then
        (List.range t.kernel.argn).foldl (fun g i =>
          g.setReg (BitVec.ofNat 7 (g.nG + g.nA + i))
            { val := .uniform (BitVec.ofNat 32 (x / 2 ^ (32 * i))), full := true, poison := false }) g
      else g) }

/-- The argument block read for a team (R119): its groups wait while it meets a replayable fault or is held off. -/
def State.loadArgs (s : State) (tid : Nat) : State :=
  match s.team? tid with
  | none => s
  | some t =>
    match s.launch? t.launch with
    | none => s
    | some l =>
      if t.kernel.argn = 0 then s.setTeam { t with argsDue := false }
      else
        match s.readArgs l t.kernel.argn with
        | .ok x lines => ((s.setTeam { t with argsDue := false }).putArgs t x).hubTook l.vf lines
        | .later ls => (s.setTeam { t with argsDue := true }).noteHeld ls
        | .park p =>
          let s := s.setTeam { t with argsDue := true }
          match p with
          | .page n =>
            s.noteFault { vf := l.vf, page := n, va := l.args, write := false, exec := false, eng := true, hub := true,
                          core := 0, tag := none, agents := [] } (.args tid)
          | _ => s
        | .fault => (s.setTeam { t with argsDue := true }).failLaunch l.id 0x09 0 0
        | .poisoned => (s.setTeam { t with argsDue := true }).failLaunch l.id 0x18 0 0

/-- A team placed on a core or pair: its groups start (R118, R207). -/
def State.placeTeam (s : State) (l : Launch) (k : Kernel) (queue : Option Nat) (index core : Nat) (cs : List Nat) : Nat × State :=
  let (tid, s) := s.fresh
  let w := l.gx + 1
  let h := l.gy + 1
  let t := Team.start tid l.id k queue index (index % w) (index / w % h) (index / (w * h)) core l.prio tid
  let s : State := { s with teams := s.teams ++ [{ t with argsDue := true }] }
  let s := cs.zipIdx.foldl (fun s p =>
    let (gid, s) := s.fresh
    { s with groups := s.groups ++ [Group.start gid tid p.2 (groupCore core k p.2) p.1 k] }) s
  (tid, s)

/-! ### Placement (R126, R127, R133, R139, R144, R178) -/

/-- A team that waits for placement. -/
inductive Waiter where
  /-- The next team of a ready launch. -/
  | fresh (l : Launch)
  /-- A saved team that waits to be restored. -/
  | saved (t : Team)
  /-- A queue group of a pipeline, from a row of a die's queue (R131). -/
  | row (l : Launch) (die : Nat) (k : Kernel)
  deriving DecidableEq, Repr

/-- Kernel of the team. -/
def Waiter.kernel : Waiter → Kernel
  | .fresh l => l.kernel
  | .saved t => t.kernel
  | .row _ _ k => k

/-- Place in the order of R126 and R144: level, teams that were displaced first, then the order of R123; a pipeline's queue
groups come before its own teams (log entry 28). -/
def Waiter.rank : Waiter → List Nat
  | .fresh l => [7 - l.prio, 1, l.order, 1]
  | .saved t => [7 - t.prio, 0, t.age, 0]
  | .row l _ _ => [7 - l.prio, 1, l.order, 0]

/-- The launch of the team, and its number when it is a saved one. -/
def Waiter.launch : Waiter → Nat
  | .fresh l => l.id
  | .saved t => t.launch
  | .row l _ _ => l.id
def Waiter.team : Waiter → Option Nat
  | .saved t => some t.id
  | _ => none

/-- The team is a queue group (R133). -/
def Waiter.queued : Waiter → Bool
  | .fresh _ => false
  | .saved t => t.queue.isSome
  | .row _ _ _ => true

/-- Since when the team has waited (R127). -/
def Waiter.since : Waiter → Option Nat
  | .fresh l => l.waitSince
  | .saved t => t.waitSince
  | .row _ _ _ => none

/-- Waiting teams of launches and saved teams. -/
def State.waiters (s : State) : List Waiter :=
  (s.launches.filter (fun l => l.state = .ready && !l.aborted && decide (l.next < l.teams))).map .fresh ++
    (s.teams.filter (fun t => t.state = .saved && t.rejoin && !t.discard)).map .saved

/-- Where a saved team must return to (R178, R253): the core that holds its bucket store, or that of its windows. -/
def State.boundCore (s : State) (t : Team) : Option Nat :=
  match s.stores.find? (fun x => x.team = t.id) with
  | some x => some x.core
  | none => if s.wins.any (fun w => w.openerTeam = some t.id) then some t.core else none

/-- Room on a die for one group of the largest queue kernel of each open pipeline at once (R133): on one core of it every queue
kernel of the pipeline fits, each alone. -/
def State.reserveFor (die : Nat) : State → List Launch → Bool
  | _, [] => true
  | s, l :: ls =>
    let ks := l.queues.map (·.kernel)
    let big := ks.foldl (fun (b : Kernel) k => if b.groupWords ≤ k.groupWords then k else b) Kernel.unreadable
    match (List.range 64).find? (fun c => s.bound l.vf (corePartition (64 * die + c)) &&
        ks.all (fun k => (s.coreFits (64 * die + c) 0 k).isSome)) with
    | some c =>
      (match s.coreFits (64 * die + c) 0 big with
       | some cs => State.reserveFor die (s.placeTeam l big none 0 (64 * die + c) cs).2 ls
       | none => false)
    | none => false

/-- The pipeline reserves of a die are kept (R133). -/
def State.reserveKept (s : State) (die : Nat) : Bool :=
  State.reserveFor die s (s.launches.filter (fun l => l.queues ≠ [] && l.state = .ready &&
    decide (die ∈ diesOf (s.pmode l.vf) l.dev)))

/-- A reservation is for a waiting team, and it covers a core that the team would take (R127). -/
def Reservation.for_ (r : Reservation) (w : Waiter) : Bool := decide (r.launch = w.launch ∧ r.team = w.team)
def Reservation.covers (r : Reservation) (core : Nat) (pair : Bool) : Bool :=
  decide (r.core = core) || (r.pair && decide (r.core + 1 = core)) || (pair && decide (r.core = core + 1))

/-- A core or pair is eligible for a waiting team, with the carousels of its groups (R126, R127). -/
def State.eligibleFor (s : State) (w : Waiter) (core : Nat) : Option (List Nat) :=
  match s.launch? w.launch with
  | none => none
  | some l =>
    let home := match w with
      | .saved t => (match s.boundCore t with | some c => decide (c = core) | none => true)
      | .fresh _ => true
      | .row _ die _ => decide (core / 64 = die)
    let free := s.reserved.all (fun r => r.for_ w || !r.covers core w.kernel.pair)
    if home && free && decide (core / 64 ∈ diesOf (s.pmode l.vf) l.dev) && s.bound l.vf (corePartition core) then
      s.placeFits core w.kernel
    else none

/-- Resident groups of a core or pair. -/
def State.loadOf (s : State) (k : Kernel) (core : Nat) : Nat :=
  (s.groupsOn core).length + (if k.pair then (s.groupsOn (core + 1)).length else 0)

/-- The core for a waiting team: the fewest resident groups, then the lowest number (R126). -/
def State.choosePlace (s : State) (w : Waiter) : Option (Nat × List Nat) :=
  let cores := (List.range 256).filterMap (fun c =>
    match s.eligibleFor w c with
    | some cs =>
      if w.queued = true ∨ (w.kernel.pqtab = 0 ∧ s.launches.all (fun l => l.queues = []) = true) then some (c, cs)
      else
        let (_, s1) := (s.launch? w.launch).elim (0, s) (fun l => s.placeTeam l w.kernel none 0 c cs)
        if s1.reserveKept (c / 64) then some (c, cs) else none
    | none => none)
  cores.foldl (fun best x =>
    match best with
    | none => some x
    | some b => if s.loadOf w.kernel x.1 < s.loadOf w.kernel b.1 then some x else some b) none

/-- The waiting teams that come before one. -/
def State.before (s : State) (w : Waiter) : List Waiter := s.waiters.filter (fun x => lexLt x.rank w.rank)

/-- The place of a waiting team, when no team before it fits anywhere (R126). -/
def State.turnOf (s : State) (w : Waiter) : Option (Nat × List Nat) :=
  if (s.before w).any (fun x => (s.choosePlace x).isSome) then none else s.choosePlace w

/-- A placed team whose argument read was held off and meets no fault (R119). -/
def State.argsHeld (s : State) (launch : Nat) : Option Team :=
  s.teams.find? (fun t => t.launch = launch && t.argsDue && t.state = .running &&
    !s.faults.any (fun f => f.agents.contains (.args t.id)))

/-- TEAM_PLACEMENT (R115, R118, R119, R126): the next team of a launch is placed, in its turn; the read of a descriptor or of
arguments that was held off is made. -/
def execTeamPlacement (launch : Nat) : State → Host.Outcome State Fault Refusal :=
  event (fun s =>
    match s.launch? launch with
    | none => none
    | some l =>
      if l.aborted then none
      else if l.kdesc.isSome then l.kdesc.map (fun va => (s.captureFor launch va).tryReady launch)
      else if (s.argsHeld launch).isSome then (s.argsHeld launch).map (fun t => s.loadArgs t.id)
      else if !s.waiters.contains (.fresh l) then none
      else
        match s.turnOf (.fresh l) with
        | none => none
        | some (core, cs) =>
          let (tid, s1) := s.placeTeam l l.kernel none l.next core cs
          let s2 := s1.modLaunch launch (fun x => { x with next := x.next + 1, waitSince := some s1.cycle })
          let s3 : State := { s2 with reserved := s2.reserved.filter (fun r => !r.for_ (.fresh l)) }
          some (s3.loadArgs tid))

/-- RESVWAIT of SCHEDCTL (R141). -/
def State.resvWait (s : State) : Nat := bits (s.pfGet 0x112000) 16 8
def State.swapWait (s : State) : Nat := bits (s.pfGet 0x112000) 0 16

/-- A waiting team has waited RESVWAIT × 256 cycles and has no reservation (R127). -/
def State.wantsCore (s : State) (w : Waiter) : Bool :=
  w.since.any (fun u => decide (u + 256 * s.resvWait ≤ s.cycle)) && !s.reserved.any (fun r => r.for_ w) && (s.choosePlace w).isNone

/-- The cores on which a waiting team may have a reservation: on dies without one that no earlier waiting team wants (R127). -/
def State.reservable (s : State) (w : Waiter) : List Nat :=
  let onDies (w : Waiter) : List Nat := match s.launch? w.launch with
    | some l => (diesOf (s.pmode l.vf) l.dev).filter (fun d => !s.reserved.any (fun r => decide (r.die = d)) &&
        (List.range 4).any (fun y => s.bound l.vf (4 * d + y)))
    | none => []
  let taken := ((s.before w).filter s.wantsCore).flatMap onDies
  let vf := ((s.launch? w.launch).map (·.vf)).getD 0
  ((onDies w).filter (fun d => !taken.contains d)).flatMap (fun d => ((List.range 64).map (fun c => 64 * d + c)).filter (fun c =>
    s.bound vf (corePartition c) && (!w.kernel.pair || decide (c % 2 = 0))))

/-- RESERVATION_TIMEOUT (R127): a team of a launch has waited RESVWAIT × 256 cycles; the core or pair with the fewest resident
groups of lower or equal priority is reserved, one reservation on a die at a time. -/
def execReservationTimeout (launch : Nat) : State → Host.Outcome State Fault Refusal :=
  event (fun s =>
    match s.launch? launch with
    | none => none
    | some l =>
      if s.resvWait = 0 then none
      else
        (s.waiters.filter (fun w => decide (w.launch = launch))).findSome? (fun w =>
          w.since.bind (fun t =>
            let s1 := s.by_ (t + 256 * s.resvWait)
            if !s1.wantsCore w then none
            else
              let prio := match w with | .saved t => t.prio | _ => l.prio
              let weight (c : Nat) : Nat :=
                (s.groups.filter (fun g => (g.core = c || (w.kernel.pair && g.core = c + 1)) && decide (s.prioOf g ≤ prio))).length
              ((s1.reservable w).foldl (fun (b : Option Nat) c =>
                match b with
                | none => some c
                | some x => if weight c < weight x then some c else some x) none).map (fun c =>
                  { s1 with reserved := s1.reserved ++
                      [({ die := c / 64, core := c, pair := w.kernel.pair, launch := launch, team := w.team } : Reservation)] }))))

/-! ### Pipelines (R130–R133) -/

/-- Rows of a queue on a die, oldest first. -/
def State.rowsOf (s : State) (launch die queue : Nat) : List Row :=
  s.rows.filter (fun r => r.launch = launch && r.die = die && r.queue = queue)

/-- A row is complete. -/
def Row.complete (r : Row) (q : PQueue) : Bool := decide (r.filled = fullMask q.kernel.width)

/-- Bytes of a row's storage (R130). -/
def PQueue.rowBytes (q : PQueue) : Nat := (q.pay * q.kernel.width * 4 + 127) / 128 * 128

/-- The storage of a row: die's rank in the device, and the row's place (R130). -/
def State.rowVa (s : State) (l : Launch) (q : PQueue) (r : Row) : Nat :=
  let rank := ((diesOf (s.pmode l.vf) l.dev).takeWhile (· ≠ r.die)).length
  q.rows + rank * q.nrows * q.rowBytes + r.index * q.rowBytes

/-- A row's age has reached its limit (R131). -/
def State.rowDue (s : State) (q : PQueue) (r : Row) : Bool :=
  r.aged || (decide (q.age ≠ 0) && decide (r.born + 256 * q.age ≤ s.cycle))

/-- The pipeline's own teams have all finished, and no queue group of it is resident (R132). -/
def State.drained (s : State) (l : Launch) : Bool :=
  decide (l.teams ≤ l.next) && s.teams.all (fun t => t.launch ≠ l.id || t.state = .ended)

/-- The oldest row of a queue on a die. -/
def State.oldestRow (s : State) (l : Launch) (die i : Nat) : Option (PQueue × Row) :=
  match l.queues[i]?, (s.rowsOf l.id die i).head? with
  | some q, some r => some (q, r)
  | _, _ => none

/-- The queue from which the queue manager of a die launches a row (R131): the lowest whose oldest row is due, else that with
the most complete rows. -/
def State.queueToLaunch (s : State) (l : Launch) (die : Nat) : Option Nat :=
  let n := l.queues.length
  let due := (List.range n).find? (fun i => (s.oldestRow l die i).any (fun x => s.rowDue x.1 x.2))
  let full (i : Nat) : Nat := match l.queues[i]? with
    | some q => ((s.rowsOf l.id die i).filter (fun r => r.complete q)).length
    | none => 0
  let most := (List.range n).foldl (fun (b : Option Nat) i =>
    if full i = 0 then b
    else
      match b with
      | none => some i
      | some j => if full j < full i then some i else some j) none
  due.orElse (fun _ => most)

/-- A lane of a `regroup` fills a row: its new row store, or none while no row has room (R130, R133). -/
def State.fillRow (s : State) (l : Launch) (die queue lane : Nat) : Option (State × Row) :=
  match l.queues[queue]? with
  | none => none
  | some q =>
    let rs := s.rowsOf l.id die queue
    match rs.find? (fun r => !hasLane r.filled lane) with
    | some r =>
      let r' := { r with filled := r.filled ||| oneLane lane }
      some ({ s with rows := s.rows.map (fun x => if x = r then r' else x) }, r')
    | none =>
      if q.nrows ≤ rs.length then none
      else
        let index := ((List.range q.nrows).find? (fun i => !rs.any (fun r => r.index = i))).getD 0
        let r : Row := { launch := l.id, die := die, queue := queue, index := index, born := s.cycle, filled := oneLane lane,
                         aged := false }
        some ({ s with rows := s.rows ++ [r] }, r)

/-- A `regroup` whose next lane waits for a row (R133, R138). -/
def State.rowAwaited (s : State) (o : EngineOp) : Bool :=
  match o.kind, o.lanes, s.launch? o.launch with
  | .regroup, w :: _, some l => (s.fillRow l (o.core / 64) (w.getD 1 0).toNat (w.getD 0 0).toNat).isNone
  | _, _, _ => false

/-- A row has been launched: swapped out teams that waited for it rejoin (R133, R139). -/
def State.wakeRows (s : State) : State :=
  let freed := (s.ops.filter (fun o => o.kind = .regroup && o.state = .withheld && !s.rowAwaited o)).map (·.team)
  { s with teams := s.teams.map (fun t => if t.state = .saved ∧ freed.contains t.id then t.rejoins s.cycle else t) }

/-- A row launched as a one-group team on its die, in its turn of the placement order (R126, R130, R131). -/
def State.launchRow (s : State) (l : Launch) (die queue : Nat) : Option State :=
  match s.oldestRow l die queue with
  | none => none
  | some (q, r) =>
    match s.turnOf (.row l die q.kernel), s.hubRead l.vf l.dev (s.rowVa l q r) (4 * q.pay * q.kernel.width) with
    | some (core, cs), .ok x lines =>
      let (tid, s1) := s.placeTeam l q.kernel (some queue) 0 core cs
      let w := q.kernel.width
      let load (g : Group) : Group :=
        let g := (List.range q.pay).foldl (fun g i =>
          g.setReg (BitVec.ofNat 7 i)
            { val := .ofLanes w (fun l => BitVec.ofNat 32 (x / 2 ^ (32 * (i * w + l)))), full := true, poison := false }) g
        { g with slotA := { g.slotA with mask := r.filled } }
      let s2 : State := { s1 with groups := s1.groups.map (fun g => if g.team = tid then load g else g),
                                  rows := s1.rows.erase r }
      some ((s2.wakeRows.hubTook l.vf lines).loadArgs tid)
    | some _, .later ls => some (s.noteHeld ls)
    | _, _ => none

/-- QUEUE_ROW_LAUNCH (R130, R131, R133): the oldest row of the chosen queue becomes a one-group team on its die. -/
def execQueueRowLaunch (launch die queue : Nat) : State → Host.Outcome State Fault Refusal :=
  event (fun s =>
    match s.launch? launch with
    | none => none
    | some l => if l.aborted || s.queueToLaunch l die ≠ some queue then none else s.launchRow l die queue)

/-- ROW_AGE_LIMIT (R131): the oldest row of a queue reaches AGE × 256 cycles. -/
def execRowAgeLimit (launch die queue : Nat) : State → Host.Outcome State Fault Refusal :=
  event (fun s =>
    match s.launch? launch with
    | none => none
    | some l =>
      match l.queues[queue]?, (s.rowsOf launch die queue).head? with
      | some q, some r =>
        if q.age = 0 ∨ r.aged = true then none
        else
          let s1 := s.by_ (r.born + 256 * q.age)
          some { s1 with rows := s1.rows.map (fun x => if x = r then { x with aged := true } else x) }
      | _, _ => none)

/-- PIPELINE_DRAIN (R132): with the pipeline's own teams finished and no queue group resident or waiting, an incomplete row is
launched regardless of its age: of the lowest queue, the oldest, on the lowest die that has one and room for it. -/
def execPipelineDrain (launch : Nat) : State → Host.Outcome State Fault Refusal :=
  event (fun s =>
    match s.launch? launch with
    | none => none
    | some l =>
      let dies := diesOf (s.pmode l.vf) l.dev
      if l.aborted || !s.drained l || dies.any (fun d => (s.queueToLaunch l d).isSome) then none
      else
        dies.findSome? (fun d =>
          ((List.range l.queues.length).find? (fun i => (s.oldestRow l d i).isSome)).bind (s.launchRow l d)))

/-! ### The end of a launch (R76, R132) -/

/-- Every team of a launch has finished, and everything it began has performed (R76, R132). -/
def State.launchDone (s : State) (l : Launch) : Bool :=
  l.state = .ready && (l.aborted || decide (l.teams ≤ l.next)) &&
    s.teams.all (fun t => t.launch ≠ l.id || t.state = .ended) && s.ops.all (fun o => o.launch ≠ l.id) &&
    (l.aborted || s.rows.all (fun r => r.launch ≠ l.id))

end Sys2Proof.Machine
end

