-- ==== Sys2Proof/Machine/EngineEvents.lean ====
section
/-!
DEFINITION. Engine operations at work: range locks and the start (10 R279–R281), what copies and multiplications do
(18 R447–R453, R465, R466), binning (06 R155–R159), dicing (R160, R170–R173), resolve (07 R189–R193, 06 R176) and queue
launches (19 R486, R487), up to their single points (10 R282).
-/

namespace Sys2Proof.Machine

/-! ### What an operation works with -/

/-- A range of an operation: in the team's scratchpad or by virtual address. -/
structure OpRange where
  scratch : Bool
  a : Nat
  n : Nat
  write : Bool
  deriving DecidableEq, Repr

/-- The whole lines of a range (R451). -/
def OpRange.lines (r : OpRange) : OpRange := { r with a := r.a / 128 * 128, n := r.a % 128 + r.n + (128 - (r.a + r.n) % 128) % 128 }

/-- Blocks of a multiplication. -/
def MmaArgs.blocks (x : MmaArgs) : Nat := (x.k + fmtBlock x.afmt - 1) / fmtBlock x.afmt

/-- The ranges that a copy or a multiplication locks (R451, R465). -/
def EngineOp.ranges (o : EngineOp) : List OpRange :=
  let rng (scratch : Bool) (a n : Nat) (write : Bool) : OpRange := { scratch := scratch, a := a, n := n, write := write }
  match o.kind with
  | .copy | .copyt =>
    let x := copyArgs (decide (o.kind = .copyt)) o.operands
    [rng x.ssp x.src (copySpan x x.spitch) false,
     rng x.dsp x.dst (copySpan x x.dpitch) true].filter (fun r => r.n ≠ 0)
  | .mma | .mloop =>
    let x := mmaArgs o.operands
    let e := (fmtElem x.afmt).getD 1
    ([rng x.asp x.aaddr (operandSpan x.alay x.lda e x.m x.k) false,
      rng x.bsp x.baddr (operandSpan x.blay x.ldb e x.n x.k) false] ++
     (if fmtScaled x.afmt then [rng false x.sa ((x.m - 1) * x.spa + x.blocks) false] else []) ++
     (if fmtScaled x.bfmt then [rng false x.sb ((x.n - 1) * x.spb + x.blocks) false] else [])).map
      OpRange.lines
  | _ => []

/-! ### Range locks (R279–R281) -/

/-- The home table of a piece of memory: its die, or the hub for host memory (R235, R279). -/
def State.pieceHome (s : State) (vf dev die va canon : Nat) : Nat :=
  match s.findLeaf none (some die) vf dev va with
  | .leaf e _ _ => homeDie canon (bits e 8 4)
  | _ => homeDie canon 16

/-- Pages of a range of bytes: the address and the length within each. -/
def rangePages (va n : Nat) : List (Nat × Nat) :=
  (List.range ((va % 4096 + n + 4095) / 4096)).map (fun i =>
    let a := if i = 0 then va else (va / 4096 + i) * 4096
    (a, min (va + n) (a / 4096 * 4096 + 4096) - a))

/-- The locks of a range on the lines of it that are mapped, and the replayable faults of the others (R245, R279). -/
def State.locksFor (s : State) (o : EngineOp) (i : Nat) (r : OpRange) : List RangeLock × List (Parked × Nat × Bool) :=
  if r.scratch then
    ([{ op := o.id, space := .scratch o.team, lo := r.a, hi := r.a + r.n, write := r.write, range := i, home := 5 }], [])
  else
    let vf := s.opVf o
    let dev := s.opDev o
    (rangePages r.a r.n).foldl (fun acc p =>
      match s.opRange o.core vf dev r.write p.1 p.2 with
      | .fault => acc
      | .park k va => (acc.1, acc.2 ++ [(k, va, r.write)])
      | .ok ps =>
        (acc.1 ++ ps.map (fun c => ({ op := o.id, space := .mem, lo := c.1, hi := c.1 + c.2.1, write := r.write, range := i,
                                      home := s.pieceHome vf dev (o.core / 64) p.1 c.1 } : RangeLock)), acc.2)) ([], [])

/-- The locks of some ranges, by number, and their replayable faults. -/
def State.rangeLocks (s : State) (o : EngineOp) (rs : List (OpRange × Nat)) : List RangeLock × List (Parked × Nat × Bool) :=
  rs.foldl (fun acc r =>
    let (ls, ps) := s.locksFor o r.2 r.1
    (acc.1 ++ ls, acc.2 ++ ps)) ([], [])

/-- The locks of every range of an operation. -/
def State.allLocks (s : State) (o : EngineOp) : List RangeLock × List (Parked × Nat × Bool) := s.rangeLocks o o.ranges.zipIdx

/-- Two ranges may not be held at once by two operations (R281). -/
def RangeLock.clash (a b : RangeLock) : Bool :=
  decide (a.op ≠ b.op ∧ a.space = b.space ∧ a.lo < b.hi ∧ b.lo < a.hi) && (a.write || b.write)

/-- Entries that ranges take in a table: one each (R279). -/
def tableEntries (ls : List RangeLock) (home : Nat) : Nat :=
  ((ls.filter (fun l => l.home = home)).map (fun l => (l.op, l.range))).eraseDups.length

/-- The lines of locked ranges. -/
def lockKeys (ls : List RangeLock) : List LineKey :=
  (ls.flatMap (fun l => (List.range ((l.lo % 128 + (l.hi - l.lo) + 127) / 128)).map (fun i =>
    ({ space := l.space, line := lineOf l.lo + i } : LineKey)))).eraseDups

/-- Registration is possible: no clash, room in every table, no window holding a line off (R273, R277, R279, R281). -/
def State.mayLock (s : State) (ls : List RangeLock) : Bool :=
  !ls.any (fun l => s.locks.any l.clash) &&
    (List.range 5).all (fun h => decide (tableEntries (s.locks ++ ls) h ≤ 256)) &&
    !(lockKeys ls).any (fun k => s.delayed none k true)

/-- Registration: cached copies of the lines go, and open windows that hold them roll back (R279). -/
def State.register (s : State) (ls : List RangeLock) : State :=
  let ks := lockKeys ls
  let s := s.externalLines none ks true
  let mem := (ks.filter (fun k => k.space = .mem)).map (·.line)
  { s with locks := s.locks ++ ls, caches := s.caches.filter (fun c => !mem.contains c.line) }

/-- The engines (R228): those of a core, the slicer of a cluster, the distributor and the queue manager of a die, and the task
table. -/
inductive EngineName where
  | copy (core : Nat)
  | matrix (core : Nat)
  | resolver (core : Nat)
  | slicer (cluster : Nat)
  | distributor (die : Nat)
  | rows (die : Nat)
  | tasks
  deriving DecidableEq, Repr

/-- The engine of an operation; the matrix engine of a pair is that of core 2k (R226, R228). -/
def State.engineOf (s : State) (o : EngineOp) : EngineName :=
  match o.kind with
  | .copy | .copyt => .copy o.core
  | .mma | .mloop => .matrix (((s.team? o.team).map (·.core)).getD o.core)
  | .resolve => .resolver o.core
  | .dice => .slicer (o.core / 4)
  | .bin => .distributor (o.core / 64)
  | .regroup => .rows (o.core / 64)
  | .enq | .taskdec => .tasks

/-- A multiplication waits at its engine: the window of another group shadows its tile (R461). -/
def State.shadowed (s : State) (o : EngineOp) : Bool :=
  s.groups.any (fun x => decide (x.team = o.team ∧ x.num ≠ o.group) && x.window.any (fun w => w.shadowTiles.any (fun p => o.namesTile p.1)))

/-- An accumulator operation that arrived before a multiplication on its tile has not been applied (R444). -/
def State.behindTile (s : State) (o : EngineOp) : Bool :=
  s.tileOps.any (fun t => decide (t.team = o.team) && t.tiles.any o.namesTile && !t.after.contains o.id)

/-- The turn of an accumulator operation (R444, R461): those on its tiles that arrived before it have been applied, and no
window of another group shadows them; the operations of a group apply in order. -/
def State.tileTurn (s : State) (t : TileOp) : Bool :=
  !s.ops.any (fun o => t.after.contains o.id) &&
    !(s.tileOps.takeWhile (fun x => x.id ≠ t.id)).any (fun x =>
      decide (x.group = t.group) || (decide (x.team = t.team) && x.tiles.any t.tiles.contains)) &&
    !s.groups.any (fun x => decide (x.team = t.team ∧ x.id ≠ t.group) && t.tiles.any (fun k => (x.shadow k).isSome))

/-- An accumulator operation applied whole (R444, R455–R458). -/
def State.applyTile (s : State) (t : TileOp) : State :=
  let s : State := { s with tileOps := s.tileOps.filter (fun x => x.id ≠ t.id) }
  match s.team? t.team with
  | none => s
  | some m =>
    match t.work with
    | .write ws => s.setTeam (m.setAcc t.tile ws)
    | .convert src target mode => s.setTeam (m.setAcc t.tile (tileConvert mode target (m.accWord src)))
    | .read p lanes =>
      lanes.foldl (fun s x => s.laneResult t.group (some p) x.1
        (x.2.foldr (fun i n => (m.accWord t.tile i).toNat + 2 ^ 32 * n) 0) false) s

/-- An operation that stands in the order of its engine: one that has stopped or parked with its team has left it (R229), a
`regroup` that waits for a row leaves it to those of other groups (R133), a `bin` that has read its patch lets the appends of
others interleave with its own (R155), and a `taskdec` reaches the task table as its decrement does (R441). -/
def State.inOrder (s : State) (o : EngineOp) : Bool :=
  let away := (s.team? o.team).any (fun t => t.state = .saving || t.state = .saved || t.state = .ended)
  match o.kind, o.state with
  | _, .stopped | _, .withheld => false
  | .regroup, _ => o.progress ≠ 1
  | .taskdec, _ => false
  | .bin, .queued => o.lanes = []
  | .bin, _ => false
  | _, .parked => !away
  | _, _ => true

/-- Earlier operations of the same engine that have not reached their single points (R229); those of one group reach the task
table and the queue manager in the order of the program. -/
def State.waitsFor (s : State) (o : EngineOp) : Bool :=
  (s.ops.takeWhile (fun x => x.id ≠ o.id)).any (fun x =>
    (decide (s.engineOf x = s.engineOf o) && s.inOrder x && (!s.shadowed x || decide (x.team = o.team ∧ x.group = o.group))) ||
      (decide (o.kind.path = .queue ∧ x.kind.path = .queue ∧ x.team = o.team ∧ x.group = o.group) && x.state ≠ .stopped &&
        x.state ≠ .withheld))

/-- `mloop` with K above 64 needs power leave (R112). -/
def EngineOp.needsLeave (o : EngineOp) : Bool := o.kind = .mloop && decide (64 < (mmaArgs o.operands).k)

/-- Where an operation that goes on under its locks stands: a `bin` at its next append, another where it takes the locks that are
still missing, and leave again (R112, R245, R308). -/
def EngineOp.goesOn (o : EngineOp) : OpState := if o.kind = .bin then .running else .queued

/-! ### Copies (R465, R466) -/

/-- Bytes from `va` that an access reaches before a fault or, when reading, a poisoned line, with what stops it. -/
def State.reach (s : State) (o : EngineOp) (write : Bool) : Nat → Nat → Nat → List Nat → List Nat × Option Cause
  | 0, _, _, acc => (acc, none)
  | fuel + 1, va, n, acc =>
    if n = 0 then (acc, none)
    else
      let here := min n (128 - va % 128)
      match s.opRange o.core (s.opVf o) (s.opDev o) write va here with
      | .ok ((c, _, _) :: _) =>
        if !write && s.badLine (lineOf c) then (acc, some .eccUncorrectable)
        else s.reach o write fuel (va + here) (n - here) (acc ++ (List.range here).map (c + ·))
      | .ok [] => (acc, none)
      | _ => (acc, some .pageFault)

/-- The byte cells of one side of a row: their space and addresses, up to what stops them. -/
def State.rowCells (s : State) (o : EngineOp) (scratch write : Bool) (a n : Nat) : Space × List Nat × Option Cause :=
  if scratch then (.scratch o.team, (List.range n).map (a + ·), none)
  else
    let (cs, e) := s.reach o write (n / 128 + 2) a n []
    (.mem, cs, e)

/-- What an operation comes to. -/
inductive Performed where
  | done (s : State)
  /-- It stops with a cause, having done what came before. -/
  | stops (s : State) (c : Cause)
  | parks (p : Parked) (va : Nat) (write : Bool)
  /-- It goes on with lines of host memory (R280). -/
  | more (s : State)

/-- A byte of a space written. -/
def State.putByte (s : State) (sp : Space) (a : Nat) (b : Byte) : State := s.setCells sp (fun m => Memory.set m a b)

/-- The bytes of a copy in destination order: the source of each as it stood at the start, up to a cause (R465). -/
def State.copyBytes (s : State) (o : EngineOp) (x : CopyArgs) : List (Space × Nat × Byte) × Option Cause :=
  (List.range x.rows).foldl (fun acc r =>
    match acc.2 with
    | some _ => acc
    | none =>
      let (ss, src, e1) := s.rowCells o x.ssp false (x.src + r * x.spitch) x.rowBytes
      let (ds, dst, e2) := s.rowCells o x.dsp true (x.dst + r * x.dpitch) x.rowBytes
      let n := min src.length dst.length
      (acc.1 ++ (List.zip (dst.take n) (src.take n)).map (fun p => (ds, p.1, Memory.get (s.spaceCells ss) p.2)),
       if src.length < x.rowBytes ∧ src.length ≤ dst.length then e1 else if dst.length < x.rowBytes then e2 else none)) ([], none)

/-- Every line of a space that a list of bytes covers whole. -/
def wholeLines (bs : List (Space × Nat × Byte)) : List Nat :=
  let mem := (bs.filter (fun b => b.1 = .mem)).map (fun b => b.2.1)
  ((mem.map lineOf).eraseDups).filter (fun l => decide ((mem.filter (fun a => lineOf a = l)).eraseDups.length = 128))

/-- Bytes written by an agent that is not a group, all at one point of the order (R282); a line written whole loses its
poison (R25). -/
def State.writeBytes (s : State) (bs : List (Space × Nat × Byte)) : State :=
  let ks := (bs.map (fun b => ({ space := b.1, line := lineOf b.2.1 } : LineKey))).eraseDups
  let s := s.externalLines none ks true
  let whole := wholeLines bs
  let s := bs.foldl (fun s b => s.putByte b.1 b.2.1 b.2.2) s
  let s := s.cleanLines whole
  s.wrote none ((ks.filter (fun k => k.space = .mem)).map (·.line))

/-! ### Host memory, line by line (R280) -/

/-- An address of host memory. -/
def isHost (a : Nat) : Bool := decide (regionOf a = some .host)

/-- The next line of host memory that an operation reads and has not read. -/
def State.hostNext (s : State) (o : EngineOp) : Option Nat :=
  (o.ranges.filter (fun r => !r.scratch && !r.write)).findSome? (fun r =>
    (rangePages r.a r.n).findSome? (fun p =>
      match s.opRange o.core (s.opVf o) (s.opDev o) false p.1 p.2 with
      | .ok ps => (pieceLines ps).find? (fun l => isHost (128 * l) && !o.hostSeen.any (fun h => h.1 = l))
      | _ => none))

/-- A line of host memory read by an operation, as one event. -/
def State.hostRead (s : State) (o : EngineOp) (l : Nat) : State :=
  let s := s.readBy [l]
  s.setOp { o with hostSeen := o.hostSeen ++ [(l, Memory.getBytes s.mem (128 * l) 128)] }

/-- Memory as an operation reads it: lines of host memory as they stood when it read them. -/
def State.hostView (s : State) (o : EngineOp) : State :=
  { s with mem := o.hostSeen.foldl (fun m h => Memory.setBytes m (128 * h.1) h.2) s.mem }

/-- Bytes written to host memory, line by line. -/
def hostLines (bs : List (Nat × Byte)) : List (List (Nat × Byte)) :=
  ((bs.map (fun b => lineOf b.1)).eraseDups).map (fun l => bs.filter (fun b => lineOf b.1 = l))

/-- The writes of an operation enter the order whole (R282), those to host memory line by line after it (R280). -/
def State.enter (s : State) (o : EngineOp) (bs : List (Space × Nat × Byte)) (e : Option Cause) : Performed :=
  let host (b : Space × Nat × Byte) : Bool := b.1 = .mem && isHost b.2.1
  let s := s.writeBytes (bs.filter (fun b => !host b))
  match hostLines ((bs.filter host).map (fun b => b.2)), e with
  | [], some c => .stops s c
  | [], none => .done s
  | ls, e => .more (s.setOp { o with hostDue := ls, ending := e.map Cause.code })

/-- The next line of host memory written, or the operation's end. -/
def State.deliver (s : State) (o : EngineOp) (ls : List (List (Nat × Byte))) : Performed :=
  let s := s.writeBytes ((ls.headD []).map (fun b => (Space.mem, b.1, b.2)))
  match ls.drop 1, o.ending with
  | [], some c => .stops s (Cause.ofPending c)
  | [], none => .done s
  | rest, _ => .more (s.setOp { o with hostDue := rest })

/-- The notification of a copy sent when it completes (R465). -/
def State.notifyCopy (s : State) (o : EngineOp) : State :=
  let x := copyArgs (decide (o.kind = .copyt)) o.operands
  if x.notify then { s with decs := s.decs ++ [({ vf := s.opVf o, k := x.ntask, n := 1, op := none } : TaskDec)] } else s

/-- What an operation comes to, followed by what its completion does. -/
def Performed.andThen (p : Performed) (f : State → State) : Performed :=
  match p with
  | .done s => .done (f s)
  | .stops s c => .stops (f s) c
  | p => p

/-- A copy performed, and its notification sent (R465, R466). -/
def State.performCopy (s : State) (o : EngineOp) : Performed :=
  let x := copyArgs (decide (o.kind = .copyt)) o.operands
  let side (write sp : Bool) (a n : Nat) : RangeRes :=
    if sp || n = 0 then .ok [] else s.opRange o.core (s.opVf o) (s.opDev o) write a n
  match side false x.ssp x.src (copySpan x x.spitch), side true x.dsp x.dst (copySpan x x.dpitch) with
  | .park p va, _ => .parks p va false
  | _, .park p va => .parks p va true
  | _, _ =>
    let (bs, e) := (s.hostView o).copyBytes o x
    (s.enter o bs e).andThen (State.notifyCopy · o)

/-! ### Multiplications (R447–R453) -/

/-- The value of an operand code (R449, R316, R317). -/
def elemVal (fmt x : Nat) : FVal :=
  match fmt with
  | 0 | 5 => FFmt.e4m3.val x
  | 1 | 6 => FFmt.e5m2.val x
  | 2 => FFmt.crumb8.val x
  | 3 | 7 =>
    let i := (BitVec.ofNat 8 x).toInt
    .num (decide (i < 0)) i.natAbs (if fmt = 7 then -6 else 0)
  | 4 => .num false x 0
  | 8 => FFmt.fp16.val x
  | _ => FFmt.bf16.val x

/-- An element read: its bytes as a number, or what stops it. -/
def State.readElem (s : State) (o : EngineOp) (scratch : Bool) (a n : Nat) : Except (Cause ⊕ (Parked × Nat)) Nat :=
  if scratch then .ok (s.peek [] (.scratch o.team) a n)
  else
    match s.opRange o.core (s.opVf o) (s.opDev o) false a n with
    | .fault => .error (.inl .pageFault)
    | .park p va => .error (.inr (p, va))
    | .ok ps => if s.poisonedPieces ps then .error (.inl .eccUncorrectable) else .ok (leNat (s.readPieces ps))

/-- A list of reads, or the first that stops. -/
def allReads {ε α : Type} : List (Except ε α) → Except ε (List α)
  | [] => .ok []
  | .ok x :: rest => (allReads rest).map (x :: ·)
  | .error e :: _ => .error e

/-- The codes of an operand for a block: one list of K positions for each row (or column) (R447, R451). -/
def State.blockCodes (s : State) (o : EngineOp) (scratch : Bool) (a pitch e rows lo n : Nat) (layout : Bool) :
    Except (Cause ⊕ (Parked × Nat)) (List (List Nat)) :=
  allReads ((List.range rows).map (fun i => allReads ((List.range n).map (fun k =>
    s.readElem o scratch (a + elemOff layout pitch e i (lo + k)) e))))

/-- The scale bytes of an operand for block kb; 127 stands for no scale (R449). -/
def State.blockScales (s : State) (o : EngineOp) (fmt a pitch rows kb : Nat) : Except (Cause ⊕ (Parked × Nat)) (List Nat) :=
  if fmtScaled fmt then allReads ((List.range rows).map (fun i => s.readElem o false (a + i * pitch + kb) 1))
  else .ok (List.replicate rows 127)

/-- Block kb applied to the corner of a tile (R334, R451). -/
def State.mmaBlock (s : State) (o : EngineOp) (x : MmaArgs) (t : Team) (kb : Nat) : Except (Cause ⊕ (Parked × Nat)) Team :=
  let ks := fmtBlock x.afmt
  let e := (fmtElem x.afmt).getD 1
  let lo := kb * ks
  let n := min ks (x.k - lo)
  match s.blockCodes o x.asp x.aaddr x.lda e x.m lo n x.alay, s.blockCodes o x.bsp x.baddr x.ldb e x.n lo n x.blay,
      s.blockScales o x.afmt x.sa x.spa x.m kb, s.blockScales o x.bfmt x.sb x.spb x.n kb with
  | .ok as, .ok bs, .ok sas, .ok sbs =>
    let words := (List.range x.m).flatMap (fun i => (List.range x.n).map (fun j =>
      let sa := sas.getD i 127
      let sb := sbs.getD j 127
      let scale : Option Int := if sa = 0xFF ∨ sb = 0xFF then none else some ((sa : Int) - 127 + ((sb : Int) - 127))
      (32 * i + j, BitVec.ofNat 32 (matBlock (t.accWord x.tile (32 * i + j)).toNat ((as.getD i []).map (elemVal x.afmt))
        ((bs.getD j []).map (elemVal x.bfmt)) scale))))
    .ok (t.setAcc x.tile words)
  | .error z, _, _, _ => .error z
  | _, .error z, _, _ => .error z
  | _, _, .error z, _ => .error z
  | _, _, _, .error z => .error z

/-- The blocks from one on, each applied to what the ones before it left (R451, R453). -/
def State.mmaBlocks (s : State) (o : EngineOp) (x : MmaArgs) : Nat → Nat → Team → Team × Option (Cause ⊕ (Parked × Nat))
  | 0, _, t => (t, none)
  | n + 1, kb, t =>
    match s.mmaBlock o x t kb with
    | .ok t' => s.mmaBlocks o x n (kb + 1) t'
    | .error e => (t, some e)

/-- A multiplication performed. -/
def State.performMma (s : State) (o : EngineOp) : Performed :=
  match s.team? o.team with
  | none => .done s
  | some t =>
    let x := mmaArgs o.operands
    match (s.hostView o).mmaBlocks o x (x.blocks - o.progress) o.progress t with
    | (t', none) => .done (s.setTeam t')
    | (t', some (.inl c)) => .stops (s.setTeam t') c
    | (_, some (.inr (p, va))) => .parks p va false

/-- Up to `n` blocks from one on, as far as they can be read, and the block that comes next (R301, R451). -/
def State.mmaSteps (s : State) (o : EngineOp) (x : MmaArgs) : Nat → Nat → Team → Team × Nat
  | 0, kb, t => (t, kb)
  | n + 1, kb, t =>
    match s.mmaBlock o x t kb with
    | .ok t' => s.mmaSteps o x n (kb + 1) t'
    | .error _ => (t, kb)

/-- A running multiplication stops at a K-step boundary before its last block, its leave released; which boundary is a
free value (R112, R301, R451; log entry 23). -/
def State.stopMma (s : State) (o : EngineOp) : State :=
  match s.team? o.team with
  | none => s
  | some t =>
    let x := mmaArgs o.operands
    let (t', k) := (s.hostView o).mmaSteps o x
      (if s.hostNext o = none then Config.choice s.draw % max 1 (x.blocks - o.progress) else 0) o.progress t
    ((({ s with draw := s.draw + 1 }).setTeam t').setOp
      { o with state := .stopped, progress := k, leave := false, hostSeen := [] }).dropLeave (.op o.id)

/-- Bytes of a running copy that are done when it stops: up to a 4 KiB boundary of its destination address, in destination
order; which boundary is a free value (R301, R467; log entry 23). -/
def State.copyStop (s : State) (o : EngineOp) : Nat :=
  let x := copyArgs (decide (o.kind = .copyt)) o.operands
  let va (i : Nat) : Nat := x.dst + i / x.rowBytes * x.dpitch + i % x.rowBytes
  let stops := (List.range (s.copyBytes o x).1.length).filter (fun i =>
    decide (o.progress ≤ i) && (decide (i = o.progress) || decide (va i / 4096 ≠ va (i - 1) / 4096)))
  if s.hostNext o = none then stops.getD (Config.choice s.draw % stops.length) o.progress else o.progress

/-- The first bytes of a copy in destination order, written: what stays of one that is discarded (R81). -/
def State.copyPart (s : State) (o : EngineOp) (n : Nat) : State :=
  s.writeBytes (((s.hostView o).copyBytes o (copyArgs (decide (o.kind = .copyt)) o.operands)).1.take n)

/-- The lines that a copy or a multiplication reads. -/
def State.readLines (s : State) (o : EngineOp) : List Nat :=
  (o.ranges.filter (fun r => !r.scratch && !r.write)).flatMap (fun r => (rangePages r.a r.n).flatMap (fun p =>
    match s.opRange o.core (s.opVf o) (s.opDev o) false p.1 p.2 with
    | .ok ps => pieceLines ps
    | _ => []))

/-- A copy or a multiplication performed; lines of host memory are read before its single point and written after it, each as one
event (R280). -/
def State.perform (s : State) (o : EngineOp) : Performed :=
  match s.hostNext o, o.hostDue, o.kind with
  | some l, [], _ => .more (s.hostRead o l)
  | none, [], .copy | none, [], .copyt => (s.eccRead (s.readLines o)).performCopy o
  | none, [], _ => (s.eccRead (s.readLines o)).performMma o
  | _, ls, _ => (s.deliver o ls).andThen (State.notifyCopy · o)

/-- An operation that has performed, stopped or parked (R227, R245). -/
def State.settleOp (s : State) (o : EngineOp) (p : Performed) : State :=
  match p with
  | .done s' => (s'.finishOp o).dropLeave (.op o.id)
  | .stops s' c => (s'.failOp o c).dropLeave (.op o.id)
  | .parks p va write => s.parkOp o (s.opVf o) false p va write
  | .more s' => s'

/-- Translations of the ranges of an operation used, with the walker's reads of their entries and the traffic of their lines
(R103, R239, R255, R258). -/
def State.opUsed (s : State) (o : EngineOp) (rs : List OpRange) : State :=
  let die := o.core / 64
  let vf := s.opVf o
  let dev := s.opDev o
  (rs.filter (fun r => !r.scratch)).foldl (fun s r =>
    let ws := s.walkLines (some die) vf r.a r.n
    let s1 := (if ws = [] then s else s.readBy ws).rangeUsed die vf dev r.a r.n
    match s1.opRange o.core vf dev r.write r.a r.n with
    | .ok ps => s1.postLines vf false (corePlace o.core) r.write (pieceLines ps)
    | _ => s1) s

/-- The ranges of an operation registered as far as they are mapped: it runs, or parks on its first replayable fault and keeps
what it has locked; none while the locks, or an entry that the walker is to read, cannot be had (R245, R279, R281). -/
def State.beginOp (s : State) (o : EngineOp) (rs : List OpRange) (r : List RangeLock × List (Parked × Nat × Bool)) :
    Option State :=
  let ls := r.1.filter (fun l => !s.locks.contains l)
  let ws := (rs.filter (fun r => !r.scratch)).flatMap (fun r => s.walkLines (some (o.core / 64)) (s.opVf o) r.a r.n)
  if s.heldOff ws false then some (s.noteHeld ws)
  else if s.mayLock ls then
    let s1 := (s.opUsed o rs).register ls
    match r.2 with
    | [] => some (s1.setOp { o with state := .running })
    | (p, va, write) :: _ => some (s1.parkOp o (s.opVf o) false p va write)
  else if ls.any (fun l => s.locks.any l.clash) then none
  else some (s.noteHeld ((lockKeys ls).filterMap (fun k => if k.space = .mem then some k.line else none)))

/-- ENGINE_OP_START (R112, R245, R279, R281): a released copy or multiplication registers its ranges and starts; an `mloop`
whose turn it is asks for leave first; one that resumes under its locks takes those that are missing (R308). -/
def execEngineOpStart (id : Nat) : State → Host.Outcome State Fault Refusal :=
  event (fun s =>
    match s.op? id with
    | none => none
    | some o =>
      let kind := decide (o.kind.path = .copy ∨ o.kind.path = .matrix)
      let full := decide (o.kind.path = .copy) && decide (32 ≤ (s.ops.filter (fun x => x.core = o.core && x.kind.path = .copy && x.state = .running)).length)
      if !kind || o.state ≠ .queued || full || s.shadowed o || s.behindTile o then none
      else if o.needsLeave && !o.leave then
        if s.waitsFor o || s.leaves.any (fun l => l.who = .op id) then none else some (s.askLeave (o.core / 64) 8 (.op id))
      else s.beginOp o o.ranges (s.allLocks o))

/-! ### Queue launches (R486, R487) -/

/-- What an operation that made accesses comes to: held off, it notes since when (R273). -/
def State.settleRes {α : Type} (s : State) (o : EngineOp) (r : OpRes α) (ok : State → α → State) : State :=
  match r with
  | .ok s' x => ok s' x
  | .stops s' c => (s'.failOp o c).dropLeave (.op o.id)
  | .parks p va write => s.parkOp o (s.opVf o) false p va write
  | .later ls => s.noteHeld ls

/-- The record that an `enq` reads: the launch is taken, or the record is broken (R474, R487); an ABORT of the queue discards
what it would launch (R81). -/
def State.performEnq (s : State) (o : EngineOp) : OpRes Unit :=
  match s.launch? o.launch with
  | none => .ok s ()
  | some l =>
    let va := dq o.operands 0
    if l.aborted && l.cause.isNone then .ok s ()
    else if va % 64 ≠ 0 then .stops s .badHandle
    else
      (s.opTouch o .read va 64).bind (fun s1 ps =>
        let r := leNat (s1.readPieces ps)
        if bits r 32 8 ≠ 1 ∨ s.launchBad l.vf r = true then .stops s1 .badHandle
        else
          let (id, s2) := s1.takeLaunch l.vf l.q l.dev r l.prio l.seq true
          .ok (s2.startLaunch id) ())

/-- The stores of a lane into its row. -/
def State.rowStores (s : State) (o : EngineOp) : List (Nat × Word) → OpRes Unit
  | [] => .ok s ()
  | (a, x) :: rest =>
    (s.opTouch o .write a 4).bind (fun s1 ps =>
      ((s1.writePieces ps (toLe 4 x.toNat)).wrote none (pieceLines ps)).rowStores o rest)

/-- The lanes of a `regroup` in ascending order: each row store is one event; the first lane that cannot go on, and why, where it
is not for want of a row (R130, R133, R486). -/
def State.fillRows (s : State) (o : EngineOp) (l : Launch) : Nat → List (List Word) → State × List (List Word) × Option (OpRes Unit)
  | 0, ws => (s, ws, none)
  | _, [] => (s, [], none)
  | fuel + 1, w :: ws =>
    let lane := (w.getD 0 0).toNat
    let q := (w.getD 1 0).toNat
    match l.queues[q]?, s.fillRow l (o.core / 64) q lane with
    | some pq, some (s1, r) =>
      let base := s.rowVa l pq r
      (match s1.rowStores o ((w.drop 2).zipIdx.map (fun p => (base + 4 * (p.2 * pq.kernel.width + lane), p.1))) with
       | .ok t _ => t.fillRows o l fuel ws
       | .stops _ c => (s, w :: ws, some (.stops s c))
       | x => (s, w :: ws, some x))
    | _, _ => (s, w :: ws, none)

/-- The issuing group of a `regroup` issues nothing while a lane waits for a row (R133, R486). -/
def State.holdRows (s : State) (o : EngineOp) (on : Bool) : State :=
  match s.opGroup o with
  | some g => s.modGroup g.id (fun g =>
      if on = true ∧ g.block = .none then { g with block := .rows }
      else if on = false ∧ g.block = .rows then { g with block := .none } else g)
  | none => s

/-- A `regroup` as far as it goes. -/
def State.performRegroup (s : State) (o : EngineOp) : Option State :=
  match s.launch? o.launch with
  | none => some (s.finishOp o)
  | some l =>
    let (s1, ws, e) := s.fillRows o l 65 o.lanes
    let o1 := { o with lanes := ws, progress := 0 }
    match e with
    | some r => some (((s1.holdRows o false).setOp o1).settleRes o1 r (fun s _ => s))
    | none =>
      if ws = [] then some ((s1.holdRows o false).finishOp o)
      else if ws = o.lanes ∧ o.progress = 1 ∧ (s.opGroup o).all (fun g => g.block ≠ .none) then none
      else some ((s1.holdRows o true).setOp { o1 with progress := 1 })

/-- SINGLE_POINT (R227, R282): the effect of a running copy or multiplication enters the order whole and its ranges are
released; an `enq` enters the task table and a `regroup` makes its row stores; an accumulator operation that waited is applied
(R444). Operations of one engine reach it in their order (R229). -/
def execSinglePoint (id : Nat) : State → Host.Outcome State Fault Refusal :=
  event (fun s =>
    match s.op? id with
    | none => ((s.tileOps.find? (fun t => t.id = id)).filter s.tileTurn).map s.applyTile
    | some o =>
      if s.waitsFor o || o.state = .parked || o.state = .stopped || o.state = .withheld then none
      else
        match o.kind with
        | .copy | .copyt | .mma | .mloop => if o.state = .running then some (s.settleOp o (s.perform o)) else none
        | .enq =>
          some (s.settleRes o (s.performEnq o) (fun s _ => s.finishOp o))
        | .regroup => s.performRegroup o
        | _ => none)

/-! ### Patches (R153) -/

/-- A patch record read as one event by an engine (R153, R473). -/
def State.readPatch (s : State) (o : EngineOp) (va : Nat) : OpRes (Option Patch) :=
  (s.opTouch o .read va 32).bind (fun s1 hs =>
    let hdr := leNat (s1.readPieces hs)
    (s1.opTouch o .read (va + 32) (if bits hdr 0 2 = 3 then 0 else patchBody hdr)).bind (fun s2 bs =>
      .ok s2 (patchOf hdr (leNat (s2.readPieces bs)))))

/-! ### Binning (R151, R153–R157) -/

/-- A chunk of a bin list has no room: there is none, or it holds 15 references (R156). -/
def State.chunkFull (s : State) (head : Nat) (cs : List (Nat × Nat × Bool)) : Bool :=
  decide (head = 0) || decide (bits (s.readNat ((cs.map (·.1)).headD 0) 8) 32 4 = 15)

/-- One append of a `bin` (R156): `i` is the Morton index, `va` the patch. -/
def State.append (s : State) (o : EngineOp) (desc i va : Nat) : OpRes (Option (Nat × Nat)) :=
  let pool := fdBinHdr desc
  let ref := va / 16 % 2 ^ 45
  let chunkVa (c : Nat) : Nat := pool + 128 * (c + 1)
  (s.opTouch o .update (fdBinDir desc + 8 * i) 8).bind (fun s1 ds =>
    let d := (ds.map (·.1)).headD 0
    let head := s1.readNat d 4
    let total := (s1.readNat (d + 4) 4 + 1) % 2 ^ 32
    let write (s : State) (ls : List Nat) (ws : List (Nat × Nat)) : State :=
      (ws.foldl (fun (s : State) w => { s with mem := Memory.setBytes s.mem w.1 (toLe 8 w.2) }) s).wrote none (ls ++ pieceLines ds)
    (if head = 0 then .ok s1 [] else s1.opTouch o .update (chunkVa (head - 1)) 128).bind (fun s2 cs =>
      if !s2.chunkFull head cs then
        let c := (cs.map (·.1)).headD 0
        let w0 := s2.readNat c 8
        .ok (write s2 (pieceLines cs) [(c + 8 * (1 + bits w0 32 4), ref), (c, w0 + 2 ^ 32), (d, head + 2 ^ 32 * total)]) none
      else
        (s2.allocate o pool).bind (fun s3 x =>
          match x with
          | .full h limit => .ok s3 (some (h, limit))
          | .took c =>
            (s3.opTouch o .write (chunkVa c) 128).bind (fun s4 ns =>
              let a := (ns.map (·.1)).headD 0
              .ok (write s4 (pieceLines ns) [(a, head + 2 ^ 32), (a + 8, ref), (d, c + 1 + 2 ^ 32 * total)]) none))))

/-- The frame of a `bin`. -/
def State.binFrame (s : State) (o : EngineOp) : Option Frame := s.frame? (s.opVf o) (s.opDev o) (dw o.operands 2)

/-- A `bin` may still append: its frame is OPEN, and no seal precedes it (R151, R152). -/
def Frame.takesBin (f : Frame) (id : Nat) : Bool :=
  f.st = .opened && (match f.sealing with | none => true | some ids => ids.contains id)

/-- BIN_PERFORM (R151, R155–R157, R159): the first event of a `bin` reads its patch; each further one is an append, and appends
of different operations interleave. -/
def execBinPerform (id : Nat) : State → Host.Outcome State Fault Refusal :=
  event (fun s =>
    match s.op? id with
    | none => none
    | some o =>
      if o.kind ≠ .bin || (o.lanes = [] && s.waitsFor o) || (o.state ≠ .queued && o.state ≠ .running) then none
      else
        match s.binFrame o with
        | none => some (s.failOp o .badHandle)
        | some f =>
          let va := dq o.operands 0
          match o.lanes with
          | [] =>
            if f.st = .opened && !f.takesBin id then none
            else if !f.takesBin id then some (s.settleRes o (s.dropIn o (fdBinHdr f.desc)) (fun s _ => s.finishOp o))
            else
              some (s.settleRes o
                ((s.readPatch o va).bind (fun s1 p =>
                  match p with
                  | none => (s1.dropIn o (fdBinHdr f.desc)).bind (fun s2 _ => .ok s2 [])
                  | some p => .ok s1 ((screenBound f.desc p.dbound (p.opn ++ p.cls)).indices f.desc)))
                (fun s1 is =>
                  if is = [] then s1.finishOp o
                  else s1.setOp { o with state := .running, lanes := [is.map (BitVec.ofNat 32)] }))
          | is :: _ =>
            match is[o.progress]? with
            | none => some (s.finishOp o)
            | some i =>
              some (s.settleRes o (s.append o f.desc i.toNat va) (fun s1 x =>
                match x with
                | some (h, limit) => s1.parkPool o h limit
                | none =>
                  if o.progress + 1 = is.length then s1.finishOp o
                  else s1.setOp { o with state := .running, progress := o.progress + 1, parkedOn := none })))

/-- POOL_LIMIT_WAKE (R140, R159): the operations parked on a pool whose LIMIT has changed retry in the order in which they
parked; a bucket store whose turn it is retries now (R188); an operation without a monitor reads LIMIT 1,800 cycles after it last
did. -/
def execPoolLimitWake (addr : Nat) : State → Host.Outcome State Fault Refusal :=
  event (fun s =>
    let limit := s.readNat (addr + 4) 4
    let on (o : EngineOp) (unarmed : Bool) : Bool := o.state = .parked && (match o.parkedOn with
      | some (.pool h l c) => decide (h = addr ∧ (l ≠ limit ∨ unarmed = true)) && decide (c.isSome = unarmed)
      | _ => false)
    let wake (who : EngineOp → Bool) (s : State) : State :=
      { s with ops := s.ops.map (fun o => if who o then { o with state := if o.kind = .bin then .running else .queued } else o) }
    let store := s.stores.find? (fun x => (x.parkedOn.any (fun q => q.1 = addr && decide (limit ≠ q.2))) && s.poolTurn addr x.team)
    if s.ops.any (on · false) then some (wake (on · false) s)
    else
      match store.bind (fun x => (s.storeFrame x).map (fun f => (x, f))), s.ops.find? (on · true) with
      | some (x, f), _ =>
        (match s.takeSlab x.asOp x f.desc 512 with
         | .ok s1 (.inl slab) => some (s1.setStore { x with slab := some slab, parkedOn := none })
         | .ok s1 (.inr full) => some (s1.setStore { x with parkedOn := some full })
         | .later ls => some (s.noteHeld ls)
         | _ => none)
      | none, some o =>
        (match o.parkedOn with
         | some (.pool h l (some c)) =>
           let t := s.by_ (c + 1800)
           if t.heldOff [lineOf h] false then some (t.noteHeld [lineOf h])
           else
             let t := t.readBy [lineOf h]
             some (if l ≠ limit then wake (fun x => x.id = o.id) t
                   else t.setOp { o with parkedOn := some (.pool h l (some t.cycle)) })
         | _ => none)
      | _, _ => none)

/-! ### Dicing (R160, R170–R173, R473) -/

/-- The result record of a `dice`: its single point (R473). -/
def State.diceResult (s : State) (o : EngineOp) (handle next : Nat) : State :=
  let a := dw o.operands 3
  let s := s.writeBytes ((toLe 4 handle ++ toLe 4 next).zipIdx.map (fun p => (Space.scratch o.team, a + p.2, p.1)))
  (s.finishOp o).dropLeave (.op o.id)

/-- A grid emitted into the store (R166, R170, R471). -/
def State.emitStore (s : State) (o : EngineOp) (x : Store) (place nu nv : Nat) (content : List Byte) (next : Nat) : State :=
  let g : Grid := { place := place, gen := x.gen place, nu := nu, nv := nv, spill := none }
  let x' := { x with grids := x.grids ++ [g], cells := Memory.setBytes x.cells (65536 * place) content }
  (s.setStore x').diceResult o g.handle next

/-- A grid spilled (R171), or its `dice` parked on the pool. -/
def State.emitSpill (s : State) (o : EngineOp) (x : Store) (desc place nu nv : Nat) (content : List Byte) (next : Nat) :
    OpRes Unit :=
  (s.takeSlab o x desc (gridLines nu nv)).bind (fun s1 a =>
    match a with
    | .inr (h, limit) => .ok (s1.parkPool o h limit) ()
    | .inl (slab, off) =>
      let va := fdSpillBase desc + 65536 * slab + off
      (s1.opTouch o .write va content.length).bind (fun s2 ps =>
        let g : Grid := { place := place, gen := x.gen place, nu := nu, nv := nv, spill := some va }
        let x' := { x with grids := x.grids ++ [g], slab := some (slab, off + 128 * gridLines nu nv) }
        .ok ((((s2.writePieces ps content).wrote none (pieceLines ps)).setStore x').diceResult o g.handle next) ()))

/-- A `dice` served (R160, R162, R170, R473): its patch is read as one event. -/
def State.dice (s : State) (o : EngineOp) (x : Store) (desc : Nat) : OpRes Unit :=
  let none_ := 0xFFFFFFFF
  (s.readPatch o (dq o.operands 0)).bind (fun s patch =>
    let drops (next : Nat) : OpRes Unit :=
      (s.dropIn o (fdSpillHdr desc)).bind (fun s _ => .ok (s.diceResult o none_ next) ())
    match patch with
    | none => drops 0
    | some p =>
      let z : Dicer := { d := desc, patch := p }
      match z.run x.bx x.by_ 34 (dw o.operands 2) with
      | .none next => .ok (s.diceResult o none_ next) ()
      | .drop next => drops next
      | .emit k nu nv next =>
        match x.freePlace with
        | none => .ok (s.diceResult o none_ next) ()
        | some place =>
          if gridLines nu nv ≤ x.freeLines desc then
            .ok (s.emitStore o x place nu nv (gridContents p (z.piece k) k nu nv false) next) ()
          else s.emitSpill o x desc place nu nv (gridContents p (z.piece k) k nu nv true) next)

/-- The `dice` operations of the four cores of a cluster, in arrival order (R173). -/
def State.dicesAt (s : State) (die cluster : Nat) : List EngineOp :=
  s.ops.filter (fun o => o.kind = .dice && decide (o.core / 64 = die ∧ o.core % 64 / 4 = cluster) && s.inOrder o)

/-- DICE_SERVICE (R112, R173): the oldest `dice` of a cluster asks for leave, and then is served. -/
def execDiceService (die cluster : Nat) : State → Host.Outcome State Fault Refusal :=
  event (fun s =>
    match s.dicesAt die cluster with
    | [] => none
    | o :: _ =>
      if o.state = .parked then none
      else if !o.leave then
        if s.leaves.any (fun l => l.who = .op o.id) then none else some (s.askLeave die 2 (.op o.id))
      else
        match s.stores.find? (fun x => x.team = o.team) with
        | none => some ((s.finishOp o).dropLeave (.op o.id))
        | some x =>
          match s.storeFrame x with
          | none => some ((s.finishOp o).dropLeave (.op o.id))
          | some f =>
            some (s.settleRes o (s.dice o x f.desc) (fun s _ => s)))

/-! ### Seals, resolves and buckets (R152, R176, R177, R189–R193) -/

/-- FRAME_SEAL_EFFECT (R134, R152). -/
def execFrameSealEffect (vf dev h : Nat) : State → Host.Outcome State Fault Refusal :=
  event (fun s =>
    match s.frame? vf dev h with
    | some f =>
      (match f.sealing with
       | some ids => if ids.any (fun i => (s.op? i).isSome) then none else some (s.sealEffect f)
       | none => none)
    | none => none)

/-- Output rows of a bucket: the first pixel, the pixels of a row and the rows (R193). -/
def Store.outRect (x : Store) (d : Nat) : Nat × Nat × Nat × Nat :=
  let px := x.bx * fdBs d
  let py := x.by_ * fdBs d
  (px, py, min (fdBs d) (fdW d - px), min (fdBs d) (fdH d - py))

/-- Format, address and row pitch of a `resolve` (R480). -/
def EngineOp.outAt (o : EngineOp) (px py : Nat) : Nat :=
  dq o.operands 0 + py * dw o.operands 2 + px * (if bits (dw o.operands 3) 0 1 = 0 then 8 else 4)

/-- Bytes of a row of output. -/
def EngineOp.rowLen (o : EngineOp) (w : Nat) : Nat := w * (if bits (dw o.operands 3) 0 1 = 0 then 8 else 4)

/-- The ranges of a `resolve`: the lines of its output rows (R193, R480). -/
def EngineOp.outRanges (o : EngineOp) (x : Store) (d : Nat) : List OpRange :=
  let (px, py, w, h) := x.outRect d
  (List.range h).map (fun r =>
    ({ scratch := false, a := o.outAt px (py + r), n := o.rowLen w, write := true } : OpRange).lines)

/-- The locks of a `resolve`: one range. -/
def State.resolveLocks (s : State) (o : EngineOp) (x : Store) (d : Nat) : List RangeLock × List (Parked × Nat × Bool) :=
  s.rangeLocks o ((o.outRanges x d).map (fun r => (r, 0)))

/-- The filter record of a `resolve` (R190, R474). -/
def State.readFilter (s : State) (o : EngineOp) : OpRes (Nat × List Nat) :=
  (s.opTouch o .read (dq o.operands 4) 520).bind (fun s1 ps =>
    match filterOf (s1.readPieces ps) with
    | none => .stops s1 .badHandle
    | some x => .ok s1 x)

/-- The bucket given back when its `resolve` stops (R176). -/
def State.giveBack (s : State) (o : EngineOp) : State :=
  { s with stores := s.stores.map (fun x => if x.resolving = some o.id then { x with resolving := none } else x) }

/-- An operation on a bucket that has performed, stopped or parked. -/
def State.settleResolve (s : State) (o : EngineOp) (p : Performed) : State :=
  match p with
  | .stops s' c => (s'.giveBack o).failOp o c
  | p => s.settleOp o p

/-- RESOLVE_START (R189, R190, R480): one event; the filter record is captured, the output lines are locked, and from
here the team owns no bucket. -/
def execResolveStart (id : Nat) : State → Host.Outcome State Fault Refusal :=
  event (fun s =>
    match s.op? id with
    | none => none
    | some o =>
      if o.kind ≠ .resolve || o.state ≠ .queued || s.waitsFor o then none
      else
        match s.stores.find? (fun x => x.team = o.team && (x.resolving.isNone || x.resolving = some id)) with
        | none => some (s.failOp o .bucketOwner)
        | some x =>
          match s.storeFrame x with
          | none => some (s.failOp o .bucketOwner)
          | some f =>
            let begun := s.setStore { x with resolving := some id }
            if o.lanes ≠ [] then begun.beginOp o (o.outRanges x f.desc) (begun.resolveLocks o x f.desc)
            else
              match begun.readFilter o with
              | .stops s1 c => some (begun.settleResolve o (.stops s1 c))
              | .parks p va write => some (begun.settleResolve o (.parks p va write))
              | .later ls => some (s.noteHeld ls)
              | .ok s1 (radius, ws) =>
                let o1 := { o with lanes := [BitVec.ofNat 32 radius :: ws.map (BitVec.ofNat 32)] }
                let s2 := s1.setOp o1
                some ((s2.beginOp o1 (o1.outRanges x f.desc) (s2.resolveLocks o1 x f.desc)).getD s2))

/-- The output of a `resolve` written row by row (R191–R193). -/
def State.resolveRows (s : State) (o : EngineOp) (x : Store) (d radius : Nat) (ws : List Nat) : Performed :=
  let (px, py, w, h) := x.outRect d
  let fmt := bits (dw o.operands 3) 0 1
  let region := x.region d
  let rows : List (Nat × List Byte) := (List.range h).map (fun r =>
    (o.outAt px (py + r), (List.range w).flatMap (fun i => pixelBytes fmt (x.pixel region radius ws (px + i) (py + r)))))
  match rows.findSome? (fun row =>
      match s.opRange o.core (s.opVf o) (s.opDev o) true row.1 row.2.length with
      | .park p va => some (p, va)
      | _ => none) with
  | some (p, va) => .parks p va true
  | none =>
    let acc := rows.foldl (fun (acc : List (Space × Nat × Byte) × Option Cause) row =>
      match acc.2 with
      | some _ => acc
      | none =>
        let (sp, cs, e) := s.rowCells o false true row.1 row.2.length
        (acc.1 ++ (cs.zip row.2).map (fun p => (sp, p.1, p.2)), e)) ([], none)
    s.enter o acc.1 acc.2

/-- RESOLVE_COMPLETE (R176, R191–R193): the pixels enter the order and the bucket becomes DONE. -/
def execResolveComplete (id : Nat) : State → Host.Outcome State Fault Refusal :=
  event (fun s =>
    match s.op? id with
    | none => none
    | some o =>
      if o.kind ≠ .resolve || o.state ≠ .running then none
      else
        match s.stores.find? (fun x => x.resolving = some id) with
        | none => none
        | some x =>
          match s.storeFrame x with
          | none => some (s.failOp o .badHandle)
          | some f =>
            let ws : List Word := o.lanes.headD []
            let p : Performed := match o.hostDue with
              | [] => s.resolveRows o x f.desc (ws.headD 0#32).toNat ((ws.drop 1).map BitVec.toNat)
              | ls => s.deliver o ls
            match p with
            | .done s1 =>
              (match x.parkedOn with
               | some (h, _) =>
                 if s1.poolHeld h then some (s.noteHeld [lineOf h])
                 else some (((s1.leavePool x.team h).leaveBucket x true).finishOp o)
               | none => some ((s1.leaveBucket x true).finishOp o))
            | p => some (s.settleResolve o p))

/-- BUCKET_RETURN (R177): the team has stopped or is discarded, and no operation of it acts on the bucket. -/
def execBucketReturn (team : Nat) : State → Host.Outcome State Fault Refusal :=
  event (fun s =>
    match s.stores.find? (fun x => x.team = team && x.resolving.isNone) with
    | none => none
    | some x =>
      let gone := match s.team? team with
        | some t => t.state = .ended
        | none => true
      if gone && s.ops.all (fun o => decide (o.team ≠ team) || (o.kind ≠ .dice && o.kind ≠ .resolve)) then
        match x.parkedOn with
        | some (h, _) => some (if s.poolHeld h then s.noteHeld [lineOf h] else (s.leavePool x.team h).leaveBucket x false)
        | none => some (s.leaveBucket x false)
      else none)

/-! ### Distributors (R136) -/

/-- REMAINING_COUNT_UPDATE (R136): a distributor learns a count, and may ask for a steal. -/
def execRemainingCountUpdate (die src : Nat) : State → Host.Outcome State Fault Refusal :=
  event (fun s =>
    match s.frames.find? (fun f => f.counts.any (fun c => c.dst = die && c.src = src)) with
    | none => none
    | some f =>
      match f.counts.find? (fun c => c.dst = die && c.src = src) with
      | none => none
      | some c =>
        let q := f.deque die
        let q1 := { q with known := q.known.map (fun (p : Nat × Nat) => if p.1 = src then (src, c.count) else p),
                           excluded := q.excluded.filter (· ≠ src) }
        some (s.putFrame ({ f with counts := f.counts.erase c }.askFor q1)))

/-- The steal that a distributor serves next: it serves claims and steals in arrival order, and with no bucket the claims wait
(R136). -/
def Deque.thief (q : Deque) : Option Nat :=
  match q.asks with
  | .steal d :: _ => some d
  | _ =>
    if q.buckets = [] then q.asks.findSome? (fun a => match a with | .steal d => some d | .claim _ _ => none) else none

/-- STEAL_SERVE (R136): the victim gives half of its buckets, at least one, from the tail, and none when it has none. -/
def execStealServe (die : Nat) : State → Host.Outcome State Fault Refusal :=
  event (fun s =>
    match s.frames.findSome? (fun f => (f.deques.find? (fun q => q.die = die && q.thief.isSome)).map (fun q => (f, q))) with
    | none => none
    | some (f, v) =>
      v.thief.map (fun d =>
        let n := if v.buckets = [] then 0 else max 1 (v.buckets.length / 2)
        let q := f.deque d
        let f1 := f.setDeque { q with stolen := some (v.buckets.drop (v.buckets.length - n)) }
        let v1 := { v with buckets := v.buckets.take (v.buckets.length - n), asks := v.asks.erase (.steal d) }
        s.putFrame (if n = 0 then f1.setDeque v1 else f1.putDeque v1)))

/-- STEAL_COMPLETE (R136): the thief appends what it was given and serves its waiting claims; an empty answer excludes
the victim until its count changes. -/
def execStealComplete (die : Nat) : State → Host.Outcome State Fault Refusal :=
  event (fun s =>
    match s.frames.findSome? (fun f => (f.deques.find? (fun q => q.die = die && q.stolen.isSome)).map (fun q => (f, q))) with
    | none => none
    | some (f, q) =>
      let got := q.stolen.getD []
      let v := q.steal.getD die
      let q1 := { q with buckets := q.buckets ++ got, steal := none, stolen := none,
                         excluded := if got = [] ∧ ¬ v ∈ q.excluded then q.excluded ++ [v] else q.excluded }
      some (s.putFrame (if got = [] then f.askFor q1 else f.putDeque q1)))

end Sys2Proof.Machine
end

