-- ==== Sys2Proof/Machine/Queues.lean ====
section
/-!
DEFINITION. Queues from enable to disable (03 R66–R71, R79–R81), submission records (R72–R76), completion records
(R77, R78) and waits on memory (R75, 17 R438).
-/

namespace Sys2Proof.Machine

/-! ### Registers and contexts of a queue -/

def State.queue? (s : State) (vf q : Nat) : Option QueueCtx := s.queues.find? (fun x => x.vf = vf && x.q = q)

def State.setQueue (s : State) (x : QueueCtx) : State :=
  { s with queues := s.queues.map (fun y => if y.vf = x.vf ∧ y.q = x.q then x else y) }

/-- Device of a queue of a function (R145). -/
def State.queueDev (s : State) (vf q : Nat) : Nat := devOfQueue (s.pmode vf) q

def State.qctl (s : State) (vf q : Nat) : Nat := s.qGet vf q 0x18
/-- Slots of the rings (R67). -/
def State.sqSlots (s : State) (vf q : Nat) : Nat := 2 ^ bits (s.qctl vf q) 24 4
def State.cqSlots (s : State) (vf q : Nat) : Nat := 2 ^ bits (s.qctl vf q) 20 4
def State.monitorMode (s : State) (vf q : Nat) : Bool := decide (bits (s.qctl vf q) 30 1 = 1)
def State.accepted (s : State) (vf q : Nat) : Nat := s.qGet vf q 0x20
def State.completed (s : State) (vf q : Nat) : Nat := s.qGet vf q 0x24
def State.acked (s : State) (vf q : Nat) : Nat := s.qGet vf q 0x28
def State.head (s : State) (vf q : Nat) : Nat := s.qGet vf q 0x2C
def State.seqInit (s : State) (vf q : Nat) : Nat := s.qGet vf q 0x30
def State.queueCause (s : State) (vf q : Nat) : Nat := bits (s.qGet vf q 0x1C) 24 5

/-- A field of QSTAT written (R68). -/
def State.setQstat (s : State) (vf q lo w v : Nat) : State := s.qSet vf q 0x1C (putBits (s.qGet vf q 0x1C) lo w v)

/-- The queue enters a state (R80): 1 ACTIVE, 2 DRAINING, 3 ABORTING, 4 FAULTED. -/
def State.enterState (s : State) (vf q st : Nat) : State := s.setQstat vf q 29 3 st

/-- The queue enters FAULTED with a cause (R68, R80). -/
def State.faultQueue (s : State) (vf q cause : Nat) : State := (s.enterState vf q 4).setQstat vf q 24 5 cause

/-- The queue enters DISABLED, and EN clears (R80). -/
def State.disableQueue (s : State) (vf q : Nat) : State :=
  let s : State := { s with queues := s.queues.filter (fun x => !(x.vf = vf && x.q = q)) }
  (s.enterState vf q 0).qSet vf q 0x18 (putBits (s.qctl vf q) 31 1 0)

/-- Number of a record after SEQINIT (R69). -/
def State.seqIndex (s : State) (vf q seq : Nat) : Nat := (seq + 2 ^ 32 - s.seqInit vf q) % 2 ^ 32

/-- a is after b, or equals it (R68). -/
def seqNotBefore (a b : Nat) : Bool := decide ((a + 2 ^ 32 - b) % 2 ^ 32 < 2 ^ 31)

/-! ### Tails (R69–R71) -/

/-- The tail line read (R70): its index becomes TAIL; one out of the ring is ignored. A read whose page is in migration waits for
the release (R256). -/
def State.readTail (s : State) (x : QueueCtx) : Option State :=
  match s.hubRead x.vf (s.queueDev x.vf x.q) (s.qGet64 x.vf x.q 0x10 / 128 * 128) 4 with
  | .ok v ls => some ((s.hubTook x.vf ls).setQueue { x with tail := if v < s.sqSlots x.vf x.q then v else x.tail })
  | .later ls => some (s.noteHeld ls)
  | .park (.move _) => none
  | _ => some (if s.queueState x.vf x.q = 1 then s.faultQueue x.vf x.q 6 else s)

/-- DOORBELL_WRITE (R70, R71). -/
def execDoorbellWrite (vf q v : Nat) : State → Host.Outcome State Fault Refusal :=
  hostWrite (fun s =>
    match s.queue? vf q with
    | some x =>
      let st := s.queueState vf q
      given ((st = 1 || st = 4) && !s.monitorMode vf q && decide (v < s.sqSlots vf q)) (s.setQueue { x with tail := v })
    | none => none)

/-- TAIL_LINE_INVALIDATE (R70): the front end reads the tail line again. -/
def execTailLineInvalidate (vf q : Nat) : State → Host.Outcome State Fault Refusal :=
  event (fun s =>
    match s.queue? vf q with
    | some x =>
      let st := s.queueState vf q
      if (st = 1 || st = 4) && s.monitorMode vf q then s.readTail x else none
    | none => none)

/-- An enable is refused (R69, R146). -/
def State.enableRefused (s : State) (vf q : Nat) : Bool :=
  let c := s.qctl vf q
  [bits c 24 4, bits c 20 4].any (fun n => decide (n < 4 ∨ 12 < n)) || (s.monitorMode vf q && !s.cxl) ||
    decide (bits (s.vfbind vf) 31 1 = 0) ||
    !(diesOf (s.pmode vf) (s.queueDev vf q)).any (fun d => (List.range 4).any (fun y => s.bound vf (4 * d + y)))

/-- EN goes from 0 to 1 (R69). -/
def State.enableQueue (s : State) (vf q : Nat) : Option State :=
  if s.queueState vf q ≠ 0 || !s.running || decide (512 ≤ vf ∨ 64 ≤ q) then none
  else if s.enableRefused vf q then some ((s.setQstat vf q 24 5 7).qSet vf q 0x18 (putBits (s.qctl vf q) 31 1 0))
  else
    let last := (s.seqInit vf q + 2 ^ 32 - 1) % 2 ^ 32
    let s := ((((s.qSet vf q 0x20 last).qSet vf q 0x24 last).qSet vf q 0x28 last).qSet vf q 0x2C 0).qSet vf q 0x1C 0
    let s := (s.qSet vf q 0x18 (putBits (s.qctl vf q) 31 1 1)).enterState vf q 1
    let x : QueueCtx := { vf := vf, q := q, tail := 0, records := [], flush := 0 }
    let s : State := { s with queues := s.queues ++ [x] }
    if s.monitorMode vf q then some ((s.readTail x).getD { s with agenda := s.agenda ++ [.tailLineInvalidate vf q] }) else some s

/-- QUEUE_ENABLE (R69). -/
def execQueueEnable (vf q : Nat) : State → Host.Outcome State Fault Refusal := hostWrite (fun s => s.enableQueue vf q)

/-! ### Records that wait and start (R73, R75, R76) -/

/-- A record of a queue changed. -/
def State.modRecord (s : State) (vf q seq : Nat) (f : SubRecord → SubRecord) : State :=
  { s with queues := s.queues.map (fun x =>
      if x.vf = vf ∧ x.q = q then { x with records := x.records.map (fun r => if r.seq = seq then f r else r) } else x) }

/-- A record completes with STATUS and CAUSE (R77). -/
def State.finishRecord (s : State) (vf q seq status cause : Nat) : State :=
  let at_ := s.cycle
  s.modRecord vf q seq (fun r => { r with result := some (status, cause), doneAt := at_ })

/-- A record parks on a replayable fault or on a page in migration (R75, R243, R256). -/
def State.parkRecord (s : State) (vf q : Nat) (r : SubRecord) (write : Bool) (p : Parked) : State :=
  let s := s.modRecord vf q r.seq (fun r => { r with parkedOn := some p, started := false, checkAt := none })
  match p with
  | .page n =>
    s.noteFault { vf := vf, page := n, va := r.addr, write := write, exec := false, eng := true, hub := true, core := 0,
                  tag := none, agents := [] } (.record vf q r.seq)
  | _ => s

/-- The store of a SIGNAL (R75); none while it is held off. -/
def State.storeSignal (s : State) (vf q : Nat) (r : SubRecord) : Option State :=
  match s.hubWrite vf (s.queueDev vf q) r.addr 8 with
  | .fault => some (s.finishRecord vf q r.seq 2 0x09)
  | .park p => some (s.parkRecord vf q r true p)
  | .later ls => some (s.noteHeld ls)
  | .ok ps ws => some ((s.hubStore vf ps ws (toLe 8 r.value)).finishRecord vf q r.seq 0 0)

/-- COND of a WAITMEM (R75). -/
def waitHolds (cond x v : Nat) : Bool :=
  match cond with
  | 0 => decide (v ≤ x)
  | 1 => decide (x = v)
  | _ => decide (x ≠ v)

/-- The word of a WAITMEM read (R75); none while it is held off. -/
def State.readWait (s : State) (vf q : Nat) (r : SubRecord) : Option State :=
  match s.hubRead vf (s.queueDev vf q) r.addr 8 with
  | .ok x ls =>
    let line := (ls.getLast?).getD 0
    let check := if s.monitorFree none line then none else some s.cycle
    let s := (s.hubTook vf ls).modRecord vf q r.seq (fun r => { r with started := true, checkAt := check })
    some (if waitHolds r.cond x r.value then s.finishRecord vf q r.seq 0 0 else s)
  | .fault => some (s.finishRecord vf q r.seq 2 0x09)
  | .poisoned => some (s.finishRecord vf q r.seq 2 0x18)
  | .park p => some (s.parkRecord vf q r false p)
  | .later ls => some (s.noteHeld ls)

/-- The records before one let it start (R73, R75, R76). -/
def QueueCtx.lets (x : QueueCtx) (r : SubRecord) : Bool :=
  let earlier := x.records.takeWhile (fun y => y.seq ≠ r.seq)
  (!(r.order || r.op = .signal) || earlier.all (fun y => y.result.isSome)) &&
    earlier.all (fun y => y.op ≠ .waitmem || y.result.isSome)

/-- A record that may start does (R75, R76); none when it may not, or is held off. -/
def State.startRecord (s : State) (x : QueueCtx) (r : SubRecord) : Option State :=
  if r.result.isSome || r.parkedOn.isSome || !x.lets r then none
  else
    match r.op with
    | .signal => s.storeSignal x.vf x.q r
    | .waitmem => s.readWait x.vf x.q r
    | .launch =>
      if r.started then none
      else some ((s.modRecord x.vf x.q r.seq (fun r => { r with started := true })).startLaunch (r.launch.getD 0))
    | .counter => some ((s.decrement x.vf r.addr r.value).finishRecord x.vf x.q r.seq 0 0)
    | .nop => some (s.finishRecord x.vf x.q r.seq 0 0)

/-- RECORD_START (R75, R76): a record that waited starts; a started WAITMEM without a monitor reads its word again 1,800 cycles after
its last read (R140). -/
def execRecordStart (vf q seq : Nat) : State → Host.Outcome State Fault Refusal :=
  event (fun s =>
    match s.queue? vf q with
    | some x =>
      if s.queueState vf q = 5 ∨ s.running = false then none
      else
        (x.records.find? (fun r => r.seq = seq)).bind (fun r =>
          match r.op = .waitmem && r.started, r.checkAt with
          | true, some c => (s.by_ (c + 1800)).startRecord x r
          | true, none => none
          | false, _ => s.startRecord x r)
    | none => none)

/-! ### Acceptance (R72–R76) -/

/-- A field of a record outside its limits (R72–R75). -/
def State.recordBad (s : State) (vf r : Nat) : Bool :=
  match bits r 32 8 with
  | 1 => s.launchBad vf r
  | 2 => decide (bits r 41 23 ≠ 0 ∨ bits r 110 18 ≠ 0 ∨ bits r 192 320 ≠ 0)
  | 3 => decide (bits r 41 23 ≠ 0 ∨ bits r 110 18 ≠ 0 ∨ bits r 192 2 = 3 ∨ bits r 194 318 ≠ 0)
  | 4 => decide (bits r 41 23 ≠ 0 ∨ bits r 96 416 ≠ 0)
  | _ => decide (bits r 41 23 ≠ 0 ∨ bits r 64 448 ≠ 0)

/-- The record that a 64-byte submission record becomes: ADDR is given as VA[48:3], so that no ADDR is misaligned (R75; log entry
33); `launch` is the number of its launch. -/
def recordOf (r : Nat) (launch : Option Nat) : SubRecord :=
  let op : RecOp := match bits r 32 8 with
    | 1 => .launch | 2 => .signal | 3 => .waitmem | 4 => .counter | _ => .nop
  { seq := bits r 0 32, op := op, order := decide (bits r 40 1 = 1), started := false, launch := launch,
    addr := if op = .counter then bits r 64 16 else 8 * bits r 64 46,
    value := if op = .counter then bits r 80 16 else bits r 128 64, cond := bits r 192 2,
    notify := if op = .launch ∧ bits r 272 1 = 1 then some (bits r 256 16) else none, result := none, doneAt := 0, parkedOn := none,
    checkAt := none }

/-- A record accepted: ACCEPTED and HEAD advance, and it starts unless it has to wait (R72, R76). -/
def State.accept (s : State) (vf q r : Nat) : State :=
  let s := (s.qSet vf q 0x20 (bits r 0 32)).qSet vf q 0x2C ((s.head vf q + 1) % s.sqSlots vf q)
  let (launch, s) : Option Nat × State :=
    if bits r 32 8 = 1 then
      let (id, s) := s.takeLaunch vf q (s.queueDev vf q) r (bits (s.qctl vf q) 17 3) (BitVec.ofNat 32 (bits r 0 32)) false
      (some id, s)
    else (none, s)
  let rec_ := recordOf r launch
  match s.queue? vf q with
  | none => s
  | some x =>
    let x' : QueueCtx := { x with records := x.records ++ [rec_] }
    let s := s.setQueue x'
    (s.startRecord x' rec_).getD s

/-- OP of a record is assigned (R73). -/
def opKnown (op : Nat) : Bool := decide (1 ≤ op ∧ op ≤ 5)

/-- The record at HEAD read whole (R71, R72): it faults the queue, waits for a completion slot, or is accepted when its
OP is one that the event is about. After RESUME the held completions are written first (R80), and a read whose page is in
migration waits for the release (R256). -/
def State.readHead (s : State) (vf q : Nat) (about : Nat → Bool) : Option State :=
  match s.queue? vf q with
  | none => none
  | some x =>
    if !s.running || s.queueState vf q ≠ 1 || s.head vf q = x.tail || decide (0 < x.flush) then none
    else
      match s.hubRead vf (s.queueDev vf q) (s.qGet64 vf q 0 / 4096 * 4096 + 64 * s.head vf q) 64 with
      | .later ls => some (s.noteHeld ls)
      | .park (.move _) => none
      | .ok r ls =>
        let s1 := s.hubTook vf ls
        let seq := bits r 0 32
        if seq ≠ (s.accepted vf q + 1) % 2 ^ 32 then some (s1.faultQueue vf q 3)
        else if !about (bits r 32 8) then none
        else if !opKnown (bits r 32 8) then some (s1.faultQueue vf q 4)
        else if s.recordBad vf r then some (s1.faultQueue vf q 5)
        else if s.cqSlots vf q ≤ (seq + 2 ^ 32 - s.acked vf q) % 2 ^ 32 then none
        else some (s1.accept vf q r)
      | _ => some (s.faultQueue vf q 1)

/-- LAUNCH (R72, R74). -/
def execLaunch (vf q : Nat) : State → Host.Outcome State Fault Refusal := event (fun s => s.readHead vf q (· = 1))
/-- SIGNAL (R72, R75). -/
def execSignal (vf q : Nat) : State → Host.Outcome State Fault Refusal := event (fun s => s.readHead vf q (· = 2))
/-- WAITMEM (R72, R75). -/
def execWaitmem (vf q : Nat) : State → Host.Outcome State Fault Refusal := event (fun s => s.readHead vf q (· = 3))
/-- COUNTER (R72, R75). -/
def execCounter (vf q : Nat) : State → Host.Outcome State Fault Refusal := event (fun s => s.readHead vf q (· = 4))
/-- NOP record (R72, R75). -/
def execNopRecord (vf q : Nat) : State → Host.Outcome State Fault Refusal := event (fun s => s.readHead vf q (· = 5))
/-- BAD_OP_RECORD (R72). -/
def execBadOpRecord (vf q : Nat) : State → Host.Outcome State Fault Refusal :=
  event (fun s => s.readHead vf q (fun op => !opKnown op))

/-! ### Completion (R76–R79) -/

/-- What is left of a launch that is over. -/
def State.dropLaunch (s : State) (id : Nat) : State :=
  { s with launches := s.launches.filter (fun x => x.id ≠ id), teams := s.teams.filter (fun t => t.launch ≠ id),
           rows := s.rows.filter (fun r => r.launch ≠ id), reserved := s.reserved.filter (fun r => r.launch ≠ id) }

/-- LAUNCH_COMPLETE (R76, R81, R122, R487): the record of the launch completes; a launch of `enq` has none, and its
notification goes at once. -/
def execLaunchComplete (launch : Nat) : State → Host.Outcome State Fault Refusal :=
  event (fun s =>
    match s.launch? launch with
    | none => none
    | some l =>
      if !s.launchDone l then none
      else
        let s1 := s.dropLaunch launch
        let aborted := l.aborted && (l.cause.isNone || decide (s.queueState l.vf l.q = 3))
        if l.enq then
          some (match aborted, l.notify with
            | false, some k => { s1 with decs := s1.decs ++ [({ vf := l.vf, k := k, n := 1, op := none } : TaskDec)] }
            | _, _ => s1)
        else if aborted then some (s1.finishRecord l.vf l.q l.seq.toNat 1 0)
        else
          match l.cause with
          | some c => some (s1.finishRecord l.vf l.q l.seq.toNat 2 c)
          | none => some (s1.finishRecord l.vf l.q l.seq.toNat 0 0))

/-- A completion record (R77); the fabric time base counts 5 ns in 9 cycles (R4). -/
def State.completionBytes (s : State) (vf q : Nat) (r : SubRecord) (status cause : Nat) : List Byte :=
  let phase := 1 - s.seqIndex vf q r.seq / s.cqSlots vf q % 2
  toLe 64 (packBits [(32, r.seq), (8, status), (8, cause), (1, phase), (15, 0), (16, s.head vf q), (48, 0), (64, r.doneAt * 5 / 9)])

/-- A draining queue whose last record has gone is DISABLED (R80). -/
def State.drainQueue (s : State) (vf q : Nat) : State :=
  match s.queue? vf q with
  | some x => if s.queueState vf q = 2 ∧ x.records = [] then s.disableQueue vf q else s
  | none => s

/-- COMPLETED advances past the oldest record (R78). -/
def State.passRecord (s : State) (x : QueueCtx) (r : SubRecord) : State :=
  ((s.setQueue { x with records := x.records.erase r, flush := x.flush - 1 }).qSet x.vf x.q 0x24 r.seq).drainQueue x.vf x.q

/-- COMPLETION_WRITE (R77, R78, R80, R122): the completion of the oldest record, written or dropped. -/
def execCompletionWrite (vf q : Nat) : State → Host.Outcome State Fault Refusal :=
  event (fun s =>
    match s.queue? vf q with
    | none => none
    | some x =>
      match x.records with
      | [] => none
      | r :: _ =>
        match r.result with
        | none => none
        | some (status, cause) =>
          let st := s.queueState vf q
          if !s.running || st = 0 || st = 5 || (st = 4 && s.queueCause vf q = 2) then none
          else
            let va := s.qGet64 vf q 8 / 4096 * 4096 + 64 * (s.seqIndex vf q r.seq % s.cqSlots vf q)
            match s.hubWrite vf (s.queueDev vf q) va 64 with
            | .later ls => some (s.noteHeld ls)
            | .ok ps ws =>
              let s1 := s.hubStore vf ps ws (s.completionBytes vf q r status cause)
              let s2 : State := match r.notify, status with
                | some k, 0 | some k, 2 => { s1 with decs := s1.decs ++ [({ vf := vf, k := k, n := 1, op := none } : TaskDec)] }
                | _, _ => s1
              some ((s2.signal vf q).passRecord x r)
            | .park (.move _) => none
            | _ =>
              if st = 2 ∨ st = 3 then
                let n := bits (s.qGet vf q 0x1C) 0 16
                some ((s.setQstat vf q 0 16 (min 65535 (n + 1))).passRecord x r)
              else some (s.faultQueue vf q 2))

/-- ACKED_WRITE (R79). -/
def execAckedWrite (vf q v : Nat) : State → Host.Outcome State Fault Refusal :=
  hostWrite (fun s =>
    if 512 ≤ vf ∨ 64 ≤ q ∨ 2 ^ 32 ≤ v then none
    else if seqNotBefore v (s.acked vf q) && seqNotBefore (s.completed vf q) v then
      some ((s.qSet vf q 0x28 v).setQstat vf q 23 1 0)
    else some (s.setQstat vf q 23 1 1))

/-! ### Commands and resets (R80, R81) -/

/-- DESTROY (R80): no further record is accepted. -/
def State.destroyQueue (s : State) (vf q : Nat) : Option State :=
  let st := s.queueState vf q
  if (st = 1 || st = 4) && (s.queue? vf q).isSome then some ((s.enterState vf q 2).drainQueue vf q) else none

def execDestroy (vf q : Nat) : State → Host.Outcome State Fault Refusal := hostWrite (fun s => s.destroyQueue vf q)

/-- RESUME (R80): the completions that are held are written before another record is read. -/
def State.resumeQueue (s : State) (vf q : Nat) : Option State :=
  match s.queue? vf q with
  | none => none
  | some x =>
    let held := (x.records.takeWhile (fun r => r.result.isSome)).length
    given (s.queueState vf q = 4) ((((s.setQueue { x with flush := held }).enterState vf q 1).setQstat vf q 24 5 0))

def execResume (vf q : Nat) : State → Host.Outcome State Fault Refusal := hostWrite (fun s => s.resumeQueue vf q)

/-- A launch discarded (R81): its slot is IDLE (R121) and its teams are discarded. -/
def State.abortLaunch (s : State) (id : Nat) : State :=
  let s : State := { s with tasks := s.tasks.filter (fun t => t.held ≠ some id) }
  (s.modLaunch id (fun l => { l with aborted := true, task := none, waitSince := none,
                                     state := if l.state = .waiting then .ready else l.state })).discardTeams id

/-- The work of a queue discarded (R81). -/
def State.discardQueue (s : State) (vf q : Nat) : State :=
  let ids := (s.launches.filter (fun l => l.vf = vf && l.q = q)).map (·.id)
  ids.foldl State.abortLaunch s

/-- Records that are no launches and have not completed are ABORTED at once (R81). -/
def State.abortRecords (s : State) (vf q : Nat) : State :=
  let at_ := s.cycle
  { s with queues := s.queues.map (fun x =>
      if x.vf = vf ∧ x.q = q then
        { x with records := x.records.map (fun r =>
            if r.result.isNone && r.op ≠ .launch then { r with result := some (1, 0), doneAt := at_ } else r) }
      else x) }

/-- ABORT (R80, R81). -/
def State.abortQueue (s : State) (vf q : Nat) : Option State :=
  let st := s.queueState vf q
  if (st = 1 || st = 2 || st = 4) && (s.queue? vf q).isSome then
    some (((s.enterState vf q 3).discardQueue vf q).abortRecords vf q)
  else none

def execAbort (vf q : Nat) : State → Host.Outcome State Fault Refusal := hostWrite (fun s => s.abortQueue vf q)

/-- ABORT_DONE (R80, R81): every discard is done and every ABORTED completion written. -/
def execAbortDone (vf q : Nat) : State → Host.Outcome State Fault Refusal :=
  event (fun s =>
    match s.queue? vf q with
    | some x =>
      given (s.queueState vf q = 3 && decide (x.records = []) && s.launches.all (fun l => !(l.vf = vf && l.q = q)))
        (s.disableQueue vf q)
    | none => none)

/-- A function-level reset of a function (R69, R80): every queue is DISABLED in one step, its work is discarded and no
completion is written: what is left of its launches is of no queue any more. -/
def State.resetFunction (s : State) (vf : Nat) : State :=
  let ids := (s.launches.filter (fun l => l.vf = vf)).map (·.id)
  let s := ids.foldl State.abortLaunch s
  let s := ids.foldl (fun s id => s.modLaunch id (fun l => { l with enq := true, notify := none, q := 64 })) s
  let s : State := { s with queues := s.queues.filter (fun x => x.vf ≠ vf) }
  (List.range 64).foldl (fun s q =>
    let s := (s.setQstat vf q 29 3 0).setQstat vf q 24 5 0
    s.qSet vf q 0x18 (putBits (s.qctl vf q) 31 1 0)) s

/-- VF_FUNCTION_LEVEL_RESET (R80): while Cytos is ALARMED the queues stay STOPPED. -/
def execVfFunctionLevelReset (vf : Nat) : State → Host.Outcome State Fault Refusal :=
  event (fun s =>
    if 512 ≤ vf then none
    else
      let s1 := s.resetFunction vf
      some (if s.mgmt.alarmed then s1 else { s1 with stopped := s1.stopped.filter (· ≠ vf) }))

/-! ### Condition monitors (R75, R438) -/

/-- MONITOR_WAKE (R75, R438): waiters on the line read it again, as one event; those whose condition holds go on. -/
def execMonitorWake (line : Nat) : State → Host.Outcome State Fault Refusal :=
  event (fun s =>
    let armed (w : Wait) : Bool := match w with
      | .monitor l true _ _ _ => decide (l = line)
      | _ => false
    let s0 := if s.heldOff [line] false then s else s.readBy [line]
    let s1 := s0.wakeWhere (fun w => armed w && s0.waitOver w)
    let due := s.queues.flatMap (fun x => (x.records.filter (fun r => s.watchedLine x.vf x.q r = some line)).map (fun r => (x, r)))
    some (due.foldl (fun (s : State) p => (s.startRecord p.1 p.2).getD s) s1))

end Sys2Proof.Machine
end

