-- ==== Sys2Proof/Machine/Preempt.lean ====
section
/-!
DEFINITION. Pre-emption, swap-out, discard, the save of a team and its restore (11 R300–R308, R523, 05 R139, R142–R144,
03 R81).
-/

namespace Sys2Proof.Machine

/-! ### Save slots (R303, R304) -/

def saveBlock (vf : Nat) : Nat := 0x130000 + 0x10 * vf
def State.saveBase (s : State) (vf : Nat) : Nat := s.pfGet64 (saveBlock vf) / 2 ^ 21 * 2 ^ 21
def State.saveCount (s : State) (vf : Nat) : Nat := bits (s.pfGet (saveBlock vf + 8)) 0 16
/-- Address of slot i. -/
def State.slotAddr (s : State) (vf i : Nat) : Nat := s.saveBase vf + 2 ^ 21 * i
/-- Partition of a slot: that of its first block under the per-die decode (R234). -/
def slotPartition (pa : Nat) : Nat := let (d, y, _) := nearPlace .perDie 0 pa; 4 * d + y

/-- A slot lies in the near tier, in a partition bound to the function (R303). -/
def State.slotSound (s : State) (vf pa : Nat) : Bool :=
  decide (regionOf pa = some .near) && paExists .perDie 0 pa && paExists .perDie 0 (pa + 2 ^ 21 - 1) && s.bound vf (slotPartition pa)

/-- Function of a team. -/
def State.vfOf (s : State) (t : Team) : Nat := ((s.launch? t.launch).map (·.vf)).getD 0

/-- The slot is held for a team (R304). -/
def State.slotTaken (s : State) (vf i : Nat) : Bool :=
  s.teams.any (fun t => t.slot = some i && (t.state = .stopping || t.state = .saving || t.state = .saved) && decide (s.vfOf t = vf))

/-- The slot that a save of a team on a partition takes (R304). -/
def State.slotFor (s : State) (vf p : Nat) : Option Nat :=
  let free := (List.range (s.saveCount vf)).filter (fun i => s.slotSound vf (s.slotAddr vf i) && !s.slotTaken vf i)
  match free.find? (fun i => slotPartition (s.slotAddr vf i) = p) with
  | some i => some i
  | none => free.head?

/-- SAVEUSED raised or lowered. -/
def State.countSaved (s : State) (vf : Nat) (up : Bool) : State :=
  let n := bits (s.pfGet (saveBlock vf + 0xC)) 0 16
  s.pfSet (saveBlock vf + 0xC) (if up then min 65535 (n + 1) else n - 1)

/-! ### The choice of victims (R142, R144) -/

/-- Teams that occupy a core or pair that a waiting team would take. -/
def State.occupants (s : State) (k : Kernel) (core : Nat) : List Team :=
  s.teams.filter (fun t => (t.state = .running) && (decide (t.core / 2 = core / 2) && (k.pair || t.pair || decide (t.core = core))))

/-- Resident groups of a function in a partition. -/
def State.groupsIn (s : State) (vf p : Nat) : Nat :=
  (s.groups.filter (fun g => decide (corePartition g.core = p) && decide ((s.ctx g).vf = vf))).length

/-- The state with a team taken off its core, its slot held. -/
def State.without (s : State) (t : Team) (slot : Nat) : State :=
  { s with teams := s.teams.map (fun x => if x.id = t.id then { x with state := .saved, slot := some slot } else x),
           groups := s.groups.filter (fun g => g.team ≠ t.id) }

/-- The slot of a team that may be a victim for a launch (R142, R144, R304). -/
def State.victimSlot (s : State) (l : Launch) (t : Team) : Option Nat :=
  let vf := s.vfOf t
  let p := corePartition t.core
  match s.slotFor vf p with
  | none => none
  | some i =>
    let left : Int := (s.without t i).groupsIn vf p
    if t.prio < l.prio ∧ t.argsDue = false ∧ t.displacers.contains l.id = false ∧ (vf = l.vf ∨ 16 * s.rho 1 vf ≤ left) then some i else none

/-- Lowest priority first, among equals the most recently placed (R142). -/
def bestVictim (ts : List (Team × Nat)) : Option (Team × Nat) :=
  ts.foldl (fun b x =>
    match b with
    | none => some x
    | some y => if x.1.prio < y.1.prio ∨ (x.1.prio = y.1.prio ∧ y.1.age < x.1.age) then some x else some y) none

/-- A waiting team fits on a core or pair. -/
def State.fitsAt (s : State) (w : Waiter) (core : Nat) : Bool := (s.eligibleFor w core).isSome

/-- The victims, with their slots, that make a waiting team fit on a core or pair. -/
def State.victimsAt (s : State) (w : Waiter) (l : Launch) (core : Nat) : Nat → List (Nat × Nat) → Option (List (Nat × Nat))
  | 0, _ => none
  | fuel + 1, acc =>
    if s.fitsAt w core then some acc
    else
      match bestVictim ((s.occupants w.kernel core).filterMap (fun t => (s.victimSlot l t).map (fun i => (t, i)))) with
      | none => none
      | some (t, i) => (s.without t i).victimsAt w l core fuel (acc ++ [(t.id, i)])

/-- The core or pair that needs the fewest victims, and its victims (R142). -/
def State.chooseVictims (s : State) (w : Waiter) (l : Launch) : Option (List (Nat × Nat)) :=
  (List.range 256).foldl (fun (best : Option (List (Nat × Nat))) c =>
    match best, s.victimsAt w l c (s.teams.length + 1) [] with
    | none, v => v
    | some b, some v => if v.length < b.length then some v else some b
    | some b, none => some b) none

/-- A team begins to stop for a save (R300, R304). -/
def State.stopTeam (s : State) (tid slot : Nat) (rejoin : Bool) (by_ : Option Nat) : State :=
  let (n, s) := s.fresh
  s.modTeam tid (fun t =>
    { t with state := .stopping, slot := some slot, rejoin := rejoin, waitSince := none, displacers := t.displacers ++ by_.toList, decided := n })

/-- A save of the team's partition that was decided earlier is not yet done (R304). -/
def State.saveBefore (s : State) (t : Team) : Bool :=
  s.teams.any (fun u => (u.state = .stopping || u.state = .saving) && !u.discard && u.slot.isSome &&
    decide (corePartition u.core = corePartition t.core ∧ u.decided < t.decided))

/-- PREEMPT_DECISION (R142, R304). -/
def execPreemptDecision (launch : Nat) : State → Host.Outcome State Fault Refusal :=
  event (fun s =>
    match s.launch? launch, s.waiters.find? (fun w => w.launch = launch) with
    | some l, some w =>
      if (s.choosePlace w).isSome || s.teams.any (fun t => (t.state = .stopping || t.state = .saving) && t.displacers.getLast? = some launch) then none
      else
        match s.chooseVictims w l with
        | some (v :: vs) => some ((v :: vs).foldl (fun s x => s.stopTeam x.1 x.2 true (some launch)) s)
        | _ => none
    | _, _ => none)

/-- SWAP_OUT (R139): a team blocked for SWAPWAIT × 1,024 cycles, while a team of the function waits for placement. -/
def execSwapOut (team : Nat) : State → Host.Outcome State Fault Refusal :=
  event (fun s =>
    match s.team? team with
    | none => none
    | some t =>
      let vf := s.vfOf t
      let waits := s.waiters.any (fun w => ((s.launch? w.launch).map (·.vf)) = some vf && (s.choosePlace w).isNone)
      match t.idleSince, s.slotFor vf (corePartition t.core) with
      | some c, some i =>
        if t.state = .running ∧ s.swapWait ≠ 0 ∧ waits = true then
          some ((s.by_ (c + 1024 * s.swapWait)).stopTeam team i false none)
        else none
      | _, _ => none)

/-! ### The stop (R300, R301) -/

/-- Nothing that a group has sent is under way, and neither trap mode nor a slot on its way to PAGE_FAULT keeps it from
stopping (R300, R442). -/
def State.mayStop (s : State) (t : Team) (g : Group) : Bool :=
  let far (x : Slot) : Bool := decide (x.mask ≠ 0) && farPc x.pc
  let blocked := match g.block with
    | .message => true
    | .fence _ => !t.discard
    | _ => false
  -- what has arrived at an engine is applied, but for an `mrd` that the rollback cancels (R300 step 2, R444)
  let arrived (o : TileOp) : Bool := decide (o.group = g.id) && (match o.work with
    | .read p _ => !g.producers.any (fun x => x.id = p && x.inWindow)
    | _ => true)
  (t.discard || !s.tileOps.any arrived) && !g.inTrap && !far g.slotA && !far g.slotB && !blocked && s.msgs.all (fun m => m.group ≠ g.id) && s.homeAtoms.all (fun h => h.group ≠ g.id)

/-- The group has stopped: it is not going to issue, and only traces are outstanding. -/
def Group.hasStopped (g : Group) : Bool :=
  (decide (g.block = .stopped) || decide (g.block = .fault)) && g.window.isNone && g.producers.all (fun p => p.kind = .trace)

/-- A claim that waits is made again at the restore; a sleep is abandoned (R365). -/
def Slot.stopped (x : Slot) : Slot :=
  match x.wait with
  | .claim _ => { x with pc := x.pc - 4, wait := .none }
  | .sleep _ | .retry => { x with wait := .none }
  | _ => x

/-- A group at its stop (R300): the window rolls back, other producers than traces complete, and escalation ends. -/
def Group.stop (g : Group) : Group :=
  let g1 := (g.producers.filter (fun p => p.kind ≠ .trace)).foldl Group.complete g
  { g1 with rollbacks := 0, narrowed := false, ticket := none, anchors := [], anchorAt := none, anchorWaited := 0, stuck := false,
            slotA := g1.slotA.stopped, slotB := g1.slotB.stopped,
            block := (match g1.block with | .fault => .fault | _ => .stopped) }

/-- Claims of a group leave the deques. -/
def State.dropClaims (s : State) (gid : Nat) : State :=
  { s with frames := s.frames.map (fun f => { f with deques := f.deques.map (fun q =>
      { q with asks := q.asks.filter (fun a => match a with | .claim g _ => decide (g ≠ gid) | .steal _ => true) }) }) }

/-- A group stops (R300 steps 1 and 2). -/
def State.stopGroup (s : State) (g : Group) : State :=
  let s := s.rollback g.id false
  (s.modGroup g.id Group.stop).dropClaims g.id

/-- A `resolve` has started: its bucket is no longer its team's (R189). -/
def State.resolving (s : State) (o : EngineOp) : Bool := s.stores.any (fun x => x.resolving = some o.id)

/-- An operation that completes before the save or the discard (R177, R297, R301, R367): what an ended group released runs to
its single point, a `dice` in service and a `resolve` that has started complete, and one of these that is parked on a fault
completes when its team is discarded. A `regroup` that waits for a row goes with its team (R139; log entry 34). -/
def State.mustComplete (s : State) (t : Team) (o : EngineOp) : Bool :=
  let onPool := (o.parkedOn.bind Parked.header).isSome
  let parked := decide (o.state = .parked)
  o.hostDue ≠ [] || match o.kind with
  | .mma => decide (o.state = .running)
  | .enq | .taskdec => !parked
  | .regroup => !parked && !t.discard && decide (o.progress ≠ 1)
  | .resolve => s.resolving o && (!parked || t.discard)
  | .dice => o.leave && !onPool && (!parked || t.discard)
  | _ => false

/-- An operation is left alone when its team is discarded: after a halt, what was released (R297, R367), and what is to complete
(R177). -/
def State.survives (s : State) (t : Team) (o : EngineOp) : Bool :=
  let halt := ((s.launch? t.launch).bind (·.cause)).isSome
  (halt && (!(s.opGroup o).isSome || decide (o.kind = .dice))) || (decide (o.kind = .resolve) && s.resolving o)

/-- The pools on which operations of a team are parked, and whose headers cannot be written now. -/
def State.poolsHeld (s : State) (tid : Nat) : List Nat :=
  (s.ops.filter (fun o => o.team = tid)).filterMap (fun o => (o.parkedOn.bind Parked.header).filter s.poolHeld)

/-- An operation withdrawn from the pool on which it is parked (R158, R171). -/
def State.withdrawn (s : State) (o : EngineOp) : State :=
  match o.parkedOn.bind Parked.header with
  | some h => s.leavePool o.id h
  | none => s

/-- An operation at the stop of its team (R301, R302): leave is released (R112). -/
def State.stopOp (s : State) (o : EngineOp) : State :=
  let away (st : OpState) : EngineOp := { o with state := st, leave := false }
  match o.kind, o.state with
  | .dice, _ =>
    if (o.parkedOn.bind Parked.header).isSome then
      ((s.withdrawn o).setOp { away .withheld with parkedOn := none }).dropLeave (.op o.id)
    else if o.state = .parked then (s.setOp (away .parked)).dropLeave (.op o.id)
    else (s.setOp (away .withheld)).dropLeave (.op o.id)
  | .bin, .parked =>
    if (o.parkedOn.bind Parked.header).isSome then s.setOp { o with state := .stopped } else s
  | .regroup, _ => s.setOp { away .withheld with progress := 0 }
  | _, .queued =>
    (s.setOp (away (if s.locks.any (fun l => l.op = o.id) then .stopped else .withheld))).dropLeave (.op o.id)
  | .mloop, .running => s.stopMma o
  | .copy, .running | .copyt, .running =>
    ({ s with draw := s.draw + 1 } : State).setOp { o with state := .stopped, progress := s.copyStop o }
  | _, .running => s.setOp { o with state := .stopped }
  | _, .parked => (s.setOp (away .parked)).dropLeave (.op o.id)
  | _, _ => s

/-- Operations of a team. -/
def State.teamOps (s : State) (tid : Nat) : List EngineOp := s.ops.filter (fun o => o.team = tid)

/-- An operation discarded with its team: its locks are released and what a copy has written so far stays (R81, R301). -/
def State.discardOp (s : State) (o : EngineOp) : State :=
  let s := (s.withdrawn o).dropLeave (.op o.id)
  let s : State := match o.kind, o.state with
    | .copy, .running | .copyt, .running => ({ s with draw := s.draw + 1 } : State).copyPart o (s.copyStop o)
    | .copy, .stopped | .copyt, .stopped => s.copyPart o o.progress
    | _, _ => s
  { s with ops := s.ops.filter (fun x => x.id ≠ o.id), locks := s.locks.filter (fun l => l.op ≠ o.id),
           stores := s.stores.map (fun x => if x.resolving = some o.id then { x with resolving := none } else x) }

/-- A team discarded (R81): nothing is saved. -/
def State.discardTeam (s : State) (t : Team) : State :=
  let ops := (s.teamOps t.id).filter (fun o => !s.survives t o)
  let gids := (s.teamGroups t.id).map (·.id)
  let s := gids.foldl State.dropClaims s
  let s := ops.foldl State.discardOp s
  let s := if t.state = .saved then s.countSaved (s.vfOf t) false else s
  let s : State := { s with groups := s.groups.filter (fun g => g.team ≠ t.id), tileOps := s.tileOps.filter (fun o => o.team ≠ t.id) }
  let s := (s.modTeam t.id (fun t =>
    { t with state := .ended, slot := none, savedGroups := [], rejoin := false, waitSince := none })).closeWindows t.id
  s.wakeWhere (fun w => w = .window t.id)

/-- PREEMPT (R300, R301): one group of a stopping team stops, or, when all have, its operations do. -/
def execPreempt (team : Nat) : State → Host.Outcome State Fault Refusal :=
  event (fun s =>
    match s.team? team with
    | none => none
    | some t =>
      let held := s.poolsHeld team
      if (t.state = .saved || t.state = .saving) && t.discard then
        some (if held = [] then s.discardTeam t else s.noteHeld (held.map lineOf))
      else if t.state ≠ .stopping then none
      else
        let gs := s.teamGroups team
        match gs.find? (fun g => !g.hasStopped && s.mayStop t g) with
        | some g => some (s.stopGroup g)
        | none =>
          if !gs.all Group.hasStopped || (s.teamOps team).any (s.mustComplete t) then none
          else if held ≠ [] then some (s.noteHeld (held.map lineOf))
          else if t.discard then some (s.discardTeam t)
          else some (((s.teamOps team).foldl State.stopOp s).modTeam team (fun t => { t with state := .saving })))

/-! ### The save (R304–R307) -/

/-- A group of a team by its number; one that has ended is written with empty masks. -/
def savedGroup (t : Team) (gs : List Group) (n : Nat) : Group :=
  match gs.find? (fun g => g.num = n) with
  | some g => g
  | none => let g := Group.start 0 t.id n t.core 0 t.kernel; { g with slotA := { g.slotA with mask := 0 } }

/-- Bytes that nothing has defined (R204; log entry 3). -/
def State.freeBytes (s : State) (place n : Nat) : List Byte :=
  (List.range n).map (fun i => BitVec.ofNat 8 (Config.freeWord (s.draw + place + i)).toNat)

/-- The ray of a lane that the lane's part of the ray-stack area belongs to: that of the oldest trace (R200; log entry 53). -/
def Group.rayAt (g : Group) (lane : Nat) : Option (Nat × LaneRay) :=
  g.producers.findSome? (fun p => (p.rays.find? (fun x => x.lane = lane)).map (fun x => (p.id, x)))

/-- The ray-stack area of a group at its save (R204). -/
def State.rayArea (s : State) (g : Group) (stack : Nat) : List Byte :=
  (List.range g.width).flatMap (fun l =>
    match (if stack < 6 then none else g.rayAt l) with
    | some (_, x) => (x.image stack).flatMap (toLe 8)
    | none => s.freeBytes (8 * stack * (g.width * g.num + l)) (8 * stack))

/-- The rays of a group read back from its part of the area (R204, R308): a ray that is parked stays so until RESUME. -/
def Group.withRays (g : Group) (stack : Nat) (area : List Byte) : Group :=
  let entries (l : Nat) : List Nat := (List.range stack).map (fun i => leNat ((area.drop (8 * (stack * l + i))).take 8))
  { g with producers := g.producers.map (fun p =>
      { p with rays := p.rays.map (fun x =>
          if (g.rayAt x.lane).any (fun r => r.1 = p.id) then { x.ofImage stack (entries x.lane) with parkedOn := x.parkedOn } else x) }) }

/-- Bytes padded to a number. -/
def padTo (n : Nat) (bs : List Byte) : List Byte := bs ++ List.replicate (n - bs.length) 0

/-- A team record (R305). -/
def State.teamRecord (s : State) (t : Team) (gs : List Group) : List Byte :=
  let k := t.kernel
  let lay := k.layout
  let groups := (List.range k.groups).map (savedGroup t gs)
  let ops := s.teamOps t.id
  t.header ops.length (lay.engines + 128 * ops.length) ++ groups.flatMap Group.record ++
    Memory.getBytes t.scratch 0 (128 * k.scratch) ++ padTo (lay.rays - lay.stackAt) (groups.flatMap Group.stackImage) ++
    padTo (lay.acc - lay.rays) (groups.flatMap (fun g => s.rayArea g k.stack)) ++ t.accImage ++ ops.flatMap EngineOp.record

/-- TEAM_SAVE_DONE (R300, R304, R305), in the order of the decisions in a partition: the record stands in its slot and the resources of the team are free; a swapped out
team waits again when its condition has fired, or when its own operations are to go on first (R139). -/
def execTeamSaveDone (team : Nat) : State → Host.Outcome State Fault Refusal :=
  event (fun s =>
    match s.team? team with
    | none => none
    | some t =>
      if t.state ≠ .saving || t.discard || s.saveBefore t then none
      else
        let gs := s.teamGroups team
        let vf := s.vfOf t
        let bytes := s.teamRecord t gs
        let a := s.slotAddr vf (t.slot.getD 0)
        let lines := (List.range (bytes.length / 128)).map (lineOf a + ·)
        if s.heldOff lines true then some (s.noteHeld lines)
        else
          let awaits (g : Group) : Bool := (s.teamOps team).any (fun o => decide (o.group = g.num) && s.rowAwaited o)
          let fired := !gs.all (fun g => awaits g || { g with block := .none : Group }.idle) ||
            (s.teamOps team).any (fun o => !s.rowAwaited o)
          let s1 : State :=
            { s.cleanLines lines with
              mem := Memory.setBytes s.mem a bytes
              draw := s.draw + bytes.length
              groups := s.groups.filter (fun g => g.team ≠ team) }
          some ((((s1.wrote none lines).postLines vf false (corePlace t.core) true lines).modTeam team (fun t =>
            { t with state := .saved, savedGroups := gs, rejoin := t.rejoin || fired,
                     waitSince := if t.rejoin || fired then some s.cycle else none })).countSaved vf true))

/-! ### The restore (R308, R523) -/

/-- Fields of the team header and of a group record that a restore reads are in range (R523). -/
def headerFits (h : Nat) (k : Kernel) : Bool :=
  decide (bits h 0 7 = 0 ∧ bits h 13 19 = 0 ∧ bits h 80 56 = 0 ∧ bits h 256 768 = 0) &&
    (List.range 8).all (fun b => decide (bits h (136 + 7 * b) 6 ≤ k.groups))

/-- The parts of a record of a group: its record and its divergence stack. -/
def groupParts (k : Kernel) (bs : List Byte) (n : Nat) : List Byte × List Byte :=
  let lay := k.layout
  ((bs.drop (lay.groups + n * lay.groupBytes)).take lay.groupBytes,
   (bs.drop (lay.stackAt + n * (32 * k.divstack))).take (32 * k.divstack))

/-- A group's parts of the record let it be restored (R523). -/
def partsFit (t : Team) (bs : List Byte) (g : Group) : Bool :=
  let (r, st) := groupParts t.kernel bs g.num
  let depth := bits (leNat (r.take 64)) 372 6
  g.recordFits r && (List.range depth).all (fun i => stackEntryFits g.width ((st.drop (32 * i)).take 32))

/-- Waits of a restored slot: a barrier only while its bit is pending, a seal while it has not taken effect (R308). -/
def State.restoredSlot (s : State) (pend : List Bool) (old x : Slot) : Slot :=
  match x.wait, old.wait with
  | .barrier b, _ => if pend.getD b false then x else { x with wait := .none }
  | _, .seal vf dev h => if ((s.frame? vf dev h).bind (·.sealing)).isSome then { x with wait := .seal vf dev h } else x
  | _, _ => x

/-- A group restored onto a core and a carousel (R308). -/
def State.restoredGroup (s : State) (t : Team) (bs : List Byte) (poisoned : Bool) (core carousel : Nat) (g : Group) : Group :=
  let (r, st) := groupParts t.kernel bs g.num
  let k := t.kernel
  let x := (g.ofRecord r (stackFrom st (bits (leNat (r.take 64)) 372 6))).withRays k.stack
    ((bs.drop (k.layout.rays + 8 * k.stack * k.width * g.num)).take (8 * k.stack * k.width))
  { x with
    core := groupCore core t.kernel g.num, carousel := carousel, runCycles := 0, onTurn := false, yields := false
    slotA := s.restoredSlot x.barPend g.slotA x.slotA
    slotB := s.restoredSlot x.barPend g.slotB x.slotB
    regs := if poisoned then x.regs.map (fun r => { r with poison := true }) else x.regs
    block := if g.parkedOn = [] then .none else .fault }

/-- The team with what its record holds beside its groups (R523). -/
def Team.restored (t : Team) (bs : List Byte) (core age : Nat) : Team :=
  let lay := t.kernel.layout
  let h := leNat (bs.take 128)
  { t with
    core := core, age := age, state := .running, slot := none, savedGroups := [], rejoin := false, waitSince := none, idleSince := none
    barriers := (List.range 8).map (fun b =>
      { phase := decide (bits h (142 + 7 * b) 1 = 1), count := bits h (136 + 7 * b) 6 })
    scratch := Memory.setBytes [] 0 ((bs.drop lay.scratch).take (128 * t.kernel.scratch))
    acc := (wordsOf (1024 * t.kernel.acc) (leNat ((bs.drop lay.acc).take (4096 * t.kernel.acc)))).zipIdx.foldl
      (fun m p => assign 0 m p.2 p.1) [] }

/-- An operation handed back to its engine (R308). -/
def EngineOp.restored (o : EngineOp) (core : Nat) : EngineOp :=
  { o with core := core,
           state := (match o.state with | .withheld => .queued | .stopped => o.goesOn | x => x) }

/-- A restore that fails: the team is discarded and its launch with it (R523). -/
def State.failRestore (s : State) (t : Team) : State :=
  let s := (s.teamOps t.id).foldl State.discardOp s
  (s.discardTeam t).failLaunch t.launch Cause.badHandle.code.toNat 0 0

/-- TEAM_RESTORE (R144, R178, R253, R308, R523): in its turn a saved team is read back, its operations go back to their
engines and its groups resume. -/
def execTeamRestore (team : Nat) : State → Host.Outcome State Fault Refusal :=
  event (fun s =>
    match s.team? team with
    | none => none
    | some t =>
      if t.state ≠ .saved || !s.waiters.contains (.saved t) then none
      else
        match s.turnOf (.saved t) with
        | none => none
        | some (core, cs) =>
          let vf := s.vfOf t
          let k := t.kernel
          let a := s.slotAddr vf (t.slot.getD 0)
          let lines := (List.range (k.layout.engines / 128)).map (lineOf a + ·)
          let bytes := Memory.getBytes (s.eccRead lines).mem a k.layout.engines
          if s.heldOff lines false then some (s.noteHeld lines)
          else
            let s0 := (s.readBy lines).postLines vf false (corePlace core) false lines
            if !(headerFits (leNat (bytes.take 128)) k && t.savedGroups.all (partsFit t bytes)) then
              (if s.poolsHeld team = [] then some (s0.failRestore t) else some (s0.noteHeld ((s.poolsHeld team).map lineOf)))
            else
              let (age, s1) := s0.fresh
              let poisoned := lines.any s.badLine
              let gs := t.savedGroups.map (fun g => s1.restoredGroup t bytes poisoned core (cs.getD g.num 0) g)
              let mine := (s1.teamOps team).map (fun o => o.restored (groupCore core k o.group))
              let s2 : State := { s1 with groups := s1.groups ++ gs, ops := s1.ops.filter (fun o => o.team ≠ team) ++ mine }
              some (((s2.setTeam (t.restored bytes core age)).countSaved vf false).wakeWhere (fun w => w = .window team)))

end Sys2Proof.Machine
end

