-- ==== Sys2Proof/Machine/Moves.lean ====
section
/-!
DEFINITION. Invalidation of translations, replayable faults and page moves (09 R240, R243, R244, R254–R257).
-/

namespace Sys2Proof.Machine

/-- Translation block of a function (R237). -/
def transBlock (vf : Nat) : Nat := 0x120000 + 0x40 * vf

/-! ### Invalidation (R240) -/

/-- INVCTL is written with BUSY 1. -/
def State.startInvalidate (s : State) (vf : Nat) : Option State :=
  let o := transBlock vf + 0x28
  if 512 ≤ vf ∨ bits (s.pfGet o) 31 1 = 1 then none else some (s.pfSet o (putBits (s.pfGet o) 31 1 1))

/-- INVALIDATE (R240): PAGES and ALL stand in INVCTL. -/
def execInvalidate (vf : Nat) : State → Host.Outcome State Fault Refusal := hostWrite (fun s => s.startInvalidate vf)

/-- A cached translation of a function overlaps a range. -/
def TlbEntry.overlaps (t : TlbEntry) (vf lo hi : Nat) : Bool := decide (t.vf = vf ∧ t.page < hi ∧ lo < t.page + 2 ^ t.size)

/-- Open windows of the groups of a function roll back, so that no access that used a dropped translation is still to be
performed (R240). -/
def State.rollBackFunction (s : State) (vf : Nat) : State :=
  (s.groups.filter (fun g => g.window.isSome && decide ((s.ctx g).vf = vf))).foldl (fun s g => s.rollback g.id false) s

/-- Counts of cached entries given to their leaves, each with one saturating update (R255). -/
def State.giveHeat (s : State) (es : List TlbEntry) : State :=
  let es := es.filter (fun t => t.count ≠ 0)
  if es = [] then s else (es.foldl State.addHeat s).wrote none ((es.map (fun t => lineOf t.leafAddr)).eraseDups)

/-- Such an update cannot be made now (R273, R280). -/
def State.heatHeld (s : State) (es : List TlbEntry) : Bool :=
  let es := es.filter (fun t => t.count ≠ 0)
  s.heldOff (es.map (fun t => lineOf t.leafAddr)) true || es.any (fun t => s.locked .mem (t.leafAddr / 8 * 8) 8 true)

/-- Accesses that were sent under a translation of a function and have not performed: home-performed atomics and operations that
run under locks (R240). -/
def State.accessesOut (s : State) (vf : Nat) : Bool :=
  s.homeAtoms.any (fun h => (s.group? h.group).any (fun g => decide ((s.ctx g).vf = vf))) ||
    s.ops.any (fun o => o.state = .running && decide (s.opVf o = vf) && s.locks.any (fun l => l.op = o.id && l.space = .mem))

/-- INVALIDATE_DONE (R240, R255): the counts of dropped entries go to their leaves. -/
def execInvalidateDone (vf : Nat) : State → Host.Outcome State Fault Refusal :=
  event (fun s =>
    let o := transBlock vf + 0x28
    let c := s.pfGet o
    if bits c 31 1 = 0 || s.accessesOut vf then none
    else
      let va := bits (s.pfGet64 (transBlock vf + 0x20)) 12 37 * 4096
      let gone (t : TlbEntry) : Bool :=
        if bits c 30 1 = 1 then decide (t.vf = vf) else t.overlaps vf va (va + 4096 * bits c 0 20)
      let es := s.tlb.filter gone
      if s.heatHeld es then some (s.noteHeld (es.map (fun t => lineOf t.leafAddr)))
      else
        let s1 := s.giveHeat es
        let s2 : State := { s1 with tlb := s1.tlb.filter (fun t => !gone t) }
        some ((s2.rollBackFunction vf).pfSet o (putBits c 31 1 0)))

/-! ### The fault ring (R243) -/

/-- Slots of the fault ring of a function (R237). -/
def State.faultSlots (s : State) (vf : Nat) : Nat := 2 ^ bits (s.pfGet (transBlock vf + 0x10)) 24 4

/-- The ring has no slot for another record. -/
def State.ringFull (s : State) (vf : Nat) : Bool :=
  decide ((s.pfGet (transBlock vf + 0x14) + 1) % s.faultSlots vf = s.pfGet (transBlock vf + 0x18) % s.faultSlots vf)

/-- A fault record (R243). -/
def FaultRec.bytes (f : FaultRec) (tag : Nat) (phase : Bool) : List Byte :=
  toLe 32 (packBits [(49, f.va), (1, boolBit f.write), (1, boolBit f.exec), (1, boolBit f.eng), (12, 0), (16, tag), (16, 0),
    (8, if f.hub then 0 else f.core), (1, boolBit f.hub), (23, 0), (1, boolBit phase)])

/-- FAULT_POST (R243): the oldest fault of the function that waits for a slot. -/
def execFaultPost (vf : Nat) : State → Host.Outcome State Fault Refusal :=
  event (fun s =>
    match s.faults.find? (fun f => decide (f.vf = vf) && f.tag.isNone) with
    | none => none
    | some f =>
      if s.ringFull vf then none
      else
        let tail := s.pfGet (transBlock vf + 0x14)
        let pa := canonPa .perDie 0 (s.pfGet64 (transBlock vf + 8) / 4096 * 4096 + 32 * tail)
        if s.heldOff [lineOf pa] true || s.locked .mem pa 32 true then some (s.noteHeld [lineOf pa])
        else
          let next := (tail + 1) % s.faultSlots vf
          let s1 : State :=
            { s with
              mem := if paExists .perDie 0 pa then Memory.setBytes s.mem pa (f.bytes tail (!s.oddPass.contains vf)) else s.mem
              faults := s.faults.map (fun x => if x = f then { x with tag := some tail } else x)
              oddPass := if next ≠ 0 then s.oddPass
                         else if s.oddPass.contains vf then s.oddPass.filter (· ≠ vf) else s.oddPass ++ [vf] }
          some ((((s1.wrote none [lineOf pa]).postLines vf false hubPlace true [lineOf pa]).pfSet (transBlock vf + 0x14) next).signal vf 64))

/-- FRHEAD_WRITE (R237, R243). -/
def execFrheadWrite (vf v : Nat) : State → Host.Outcome State Fault Refusal :=
  hostWrite (fun s => if 512 ≤ vf ∨ 2 ^ 32 ≤ v then none else some (s.pfSet (transBlock vf + 0x18) v))

/-! ### Agents that retry (R244, R256) -/

/-- A group leaves a park when it meets no other fault. -/
def Group.unpark (g : Group) (p : Parked) : Group :=
  let ps := g.parkedOn.filter (· ≠ p)
  { g with
    parkedOn := ps
    block := if g.block = .fault ∧ ps = [] then .none else g.block
    producers := g.producers.map (fun x =>
      { x with rays := x.rays.map (fun y => if y.parkedOn = some p then { y with parkedOn := none } else y) }) }

/-- An operation retries: where it stood under its locks, or from its start; one of a saved team at its restore. -/
def State.retryOp (s : State) (o : EngineOp) : State :=
  let started := s.locks.any (fun l => l.op = o.id) || (decide (o.kind = .bin) && o.lanes ≠ [])
  let away := match s.team? o.team with
    | some t => t.state = .saved || t.state = .saving
    | none => false
  let st : OpState := match started, away with
    | true, true => .stopped | true, false => o.goesOn | false, true => .withheld | false, false => .queued
  let s := s.setOp { o with state := st, parkedOn := none }
  if away then s.modTeam o.team (fun t => t.rejoins s.cycle) else s

/-- Groups of a function, resident or saved, with a park taken away. -/
def State.unparkGroups (s : State) (p : Parked) (is : Group → Bool) : State :=
  let up (g : Group) : Group := if is g then g.unpark p else g
  { s with groups := s.groups.map up, teams := s.teams.map (fun t => { t with savedGroups := t.savedGroups.map up }) }

/-- An agent of a fault retries (R244). -/
def State.retryAgent (s : State) (p : Parked) (a : FaultAgent) : State :=
  match a with
  | .group id => s.unparkGroups p (fun g => g.id = id)
  | .ray prod => s.unparkGroups p (fun g => g.producers.any (fun x => x.id = prod))
  | .engine op => (match s.op? op with | some o => if o.parkedOn = some p then s.retryOp o else s | none => s)
  | .record vf q seq => s.modRecord vf q seq (fun r => if r.parkedOn = some p then { r with parkedOn := none } else r)
  | .args team => if (s.team? team).any (fun t => t.argsDue && t.state = .running) then s.loadArgs team else s

/-- TRANSLATION_RESUME (R244). -/
def execTranslationResume (vf tag : Nat) : State → Host.Outcome State Fault Refusal :=
  hostWrite (fun s =>
    match s.faults.find? (fun f => f.vf = vf && f.tag = some tag) with
    | none => none
    | some f =>
      let s1 : State := { s with faults := s.faults.erase f }
      some (f.agents.foldl (fun s a => s.retryAgent (.page f.page) a) s1))

/-- What a page in migration held up goes on (R256). -/
def State.retryMove (s : State) (leaf : Nat) : State :=
  let p : Parked := .move leaf
  let s := s.unparkGroups p (fun _ => true)
  let s := (s.ops.filter (fun o => o.parkedOn = some p)).foldl State.retryOp s
  let s : State := { s with queues := s.queues.map (fun x =>
    { x with records := x.records.map (fun r => if r.parkedOn = some p then { r with parkedOn := none } else r) }) }
  (s.teams.filter (fun t => t.argsDue && t.state = .running)).foldl (fun s t =>
    if s.faults.any (fun f => f.agents.contains (.args t.id)) then s else s.loadArgs t.id) s

/-! ### Frames and tables (R234, R238) -/

/-- Device and address, under a presentation mode, of a canonical address. -/
def paOf (m : PMode) (c : Nat) : Nat × Nat :=
  if regionOf c = some .near then
    let d := bits c 35 2
    let y := bits c 33 2
    let b := bits c 12 21
    match m with
    | .perDie => (d, c)
    | .paired => (d / 2, c % 4096 + d % 2 * 2 ^ 12 + b * 2 ^ 13 + y * 2 ^ 34)
    | .unified => (0, c % 4096 + d * 2 ^ 12 + b * 2 ^ 14 + y * 2 ^ 35)
  else (0, c)

/-- Devices over which an address of a mode has a meaning of its own: both pairs under the paired decode. -/
def frameDevices (m : PMode) (pa : Nat) : List Nat :=
  if m = .paired ∧ regionOf pa = some .near then [0, 1] else [0]

/-- A canonical byte address lies in a frame: its device and offset there. -/
def inFrame (m : PMode) (base size c : Nat) : Option (Nat × Nat) :=
  let (dev, pa) := paOf m c
  if base ≤ pa ∧ pa < base + 2 ^ size then some (if m = .paired then dev else 0, pa - base) else none

/-- The pieces of a frame in canonical memory. -/
def framePieces (m : PMode) (base size : Nat) : List (Nat × Nat) :=
  if regionOf base = some .near then
    (frameDevices m base).flatMap (fun dev => (List.range (2 ^ (size - 12))).map (fun i => (canonPa m dev (base + 4096 * i), 4096)))
  else [(base, 2 ^ size)]

/-- Addresses of the tables of a function below its top table, by the level they serve (2, 1, 0), found from the entries
that memory holds. -/
def State.tablesBelow (s : State) (tables : List (Nat × Nat)) : List Nat :=
  tables.flatMap (fun t =>
    let entries := ((s.mem.filter (fun c => decide (t.1 ≤ c.1 ∧ c.1 < t.1 + t.2))).map (fun c => c.1 / 8 * 8)).eraseDups
    (entries.map (fun a => s.readNat a 8)).filterMap (fun e =>
      if bits e 0 1 = 1 ∧ bits e 5 1 = 0 then some (canonPa .perDie 0 (frameOf e)) else none))

/-- log2 of the page of a leaf at an address, by the level of the table that holds it (R238). -/
def State.leafSize (s : State) (vf addr : Nat) : Option Nat :=
  let root := canonPa .perDie 0 (bits (s.root vf) 12 40 * 2 ^ 12)
  let l2 := s.tablesBelow [(root, 8192)]
  let l1 := s.tablesBelow (l2.map (fun a => (a, 4096)))
  let l0 := s.tablesBelow (l1.map (fun a => (a, 4096)))
  let page := addr / 4096 * 4096
  let e := s.readNat addr 8
  if l0.contains page then some (if bits e 6 1 = 1 then 16 else 12)
  else if l1.contains page then (if bits e 6 1 = 1 then none else some 21)
  else if l2.contains page then (if bits e 6 1 = 1 then none else some 30)
  else none

/-- The leaf at an address may be moved: its page size (R238, R257). -/
def State.movable (s : State) (vf addr : Nat) : Option Nat :=
  let e := s.readNat addr 8
  match s.leafSize vf addr with
  | none => none
  | some size =>
    if bits e 0 1 = 0 ∨ bits e 5 1 = 0 ∨ leafMalformed (s.pmode vf) 0 s.cxl e size = true ∨ (size = 16 ∧ addr % 128 ≠ 0) ∨
        regionOf (frameOf e) = some .peer then none
    else some size

/-- A new frame is sound for a page (R233, R236, R238, R257). -/
def State.frameSound (s : State) (vf pa hp size : Nat) : Bool :=
  let m := s.pmode vf
  let e := pa + hp * 2 ^ 8
  decide (pa % 2 ^ size = 0) && decide (regionOf pa = some .near ∨ regionOf pa = some .far) &&
    (frameDevices m pa).all (fun d => paExists m d pa && paExists m d (pa + 2 ^ size - 1) && s.pageBound vf d e size)

/-! ### Moves (R256) -/

/-- The number under which a move holds its locks: those of operations are lower (log entry 16). -/
def Move.lockId (m : Move) : Nat := 2 ^ 64 + m.leaf

/-- The decode of near-tier frames: per die for the engine under owner 513, which the physical function directs, and that of the
function for a promotion by its counters (R103, R234; log entry 36). -/
def State.moveMode (s : State) (m : Move) : PMode := if m.slot.isSome then .perDie else s.pmode m.vf

/-- The owner that a move is charged to (R103). -/
def Move.owner (m : Move) : Nat := if m.slot.isSome then 513 else m.vf

/-- The locks of a move. -/
def State.moveLocks (s : State) (m : Move) : List RangeLock :=
  let mode := s.moveMode m
  let oldHp := bits (s.readNat m.leaf 8) 8 4
  let frame (i base hp : Nat) : List RangeLock := (framePieces mode base m.size).map (fun p =>
    { op := m.lockId, space := .mem, lo := p.1, hi := p.1 + p.2, write := true, range := i, home := homeDie p.1 hp })
  frame 0 m.oldPa oldHp ++ frame 1 m.newPa m.hp

/-- Lanes of home-performed atomics on their way to a line of some ranges (R256, R433). -/
def State.atomsInto (s : State) (ls : List RangeLock) : Bool :=
  s.homeAtoms.any (fun h => h.lanes.any (fun x => ls.any (fun l => decide (l.lo ≤ x.2.1 ∧ x.2.1 < l.hi))))

/-- The traffic of a move: each line of the old frame read, and each of the new one written (R103, R256). -/
def State.postMove (s : State) (m : Move) : State :=
  let lines (i : Nat) : List Nat := (lockKeys ((s.moveLocks m).filter (fun (l : RangeLock) => l.range = i))).map (·.line)
  (s.postLines m.owner false hubPlace false (lines 0)).postLines m.owner false hubPlace true (lines 1)

/-- A move begins under its locks; none while it cannot have them, or an access to a frame is still on its way (R256, R279,
R281). -/
def State.beginMove (s : State) (m : Move) : Option State :=
  let ls := s.moveLocks m
  if s.mayLock ls && !s.atomsInto ls then
    let s1 := s.register ls
    some ({ s1 with moves := s1.moves ++ [m] }.postMove m)
  else none

/-- The leaf of a page with a new frame and home, and HEAT 0. -/
def movedLeaf (e pa hp : Nat) : Nat := putBits (putBits (putBits e 12 40 (pa / 4096)) 8 4 hp) 56 8 0

/-- The old frame's page stands in the new frame, poison included. -/
def State.copyFrame (s : State) (m : Move) : State :=
  let mode := s.moveMode m
  let s := s.eccRead ((s.symErrs.map (·.1)).filter (fun l => (inFrame mode m.oldPa m.size (128 * l)).isSome))
  let kept := s.mem.filter (fun c => (inFrame mode m.newPa m.size c.1).isNone)
  let target (c : Nat) : Option Nat := ((inFrame mode m.oldPa m.size c).filter (fun p => paExists mode p.1 (m.newPa + p.2))).map
    (fun p => canonPa mode p.1 (m.newPa + p.2))
  let mem := s.mem.foldl (fun acc c => match target c.1 with | some a => Memory.set acc a c.2 | none => acc) kept
  let old := s.poison.filterMap (fun l => (target (128 * l)).map lineOf)
  { s with symErrs := s.symErrs.filter (fun p => (inFrame mode m.newPa m.size (128 * p.1)).isNone),
           mem := mem, poison := s.poison.filter (fun l => (inFrame mode m.newPa m.size (128 * l)).isNone) ++ old }

/-- A wait on a moved line watches the line where the page now lies (R256, R438). -/
def Wait.moved (w : Wait) (place : Nat → Option Nat) : Wait :=
  match w with
  | .monitor _ armed addr want c => (match place addr with
    | .some a => .monitor (lineOf a) armed a want c
    | .none => w)
  | _ => w

/-- The monitors of every group, resident or saved, on a page that has moved. -/
def State.moveWaits (s : State) (place : Nat → Option Nat) : State :=
  let up (g : Group) : Group :=
    { g with slotA := { g.slotA with wait := g.slotA.wait.moved place }, slotB := { g.slotB with wait := g.slotB.wait.moved place } }
  { s with groups := s.groups.map up, teams := s.teams.map (fun t => { t with savedGroups := t.savedGroups.map up }) }

/-- The release of a move: the page is copied, its leaves name the new frame, translations and cached copies go, and what
it held up goes on (R256). -/
def State.finishMove (s : State) (m : Move) : State :=
  let mode := s.moveMode m
  let s := s.copyFrame m
  let mem := (List.range m.count).foldl (fun mem i =>
    Memory.setBytes mem (m.leaf + 8 * i) (toLe 8 (movedLeaf (leNat (Memory.getBytes mem (m.leaf + 8 * i) 8)) m.newPa m.hp))) s.mem
  let gone (l : Nat) : Bool := (inFrame mode m.oldPa m.size (128 * l)).isSome || (inFrame mode m.newPa m.size (128 * l)).isSome
  let s : State :=
    { s with mem := mem, tlb := s.tlb.filter (fun t => !m.holds t.leafAddr), caches := s.caches.filter (fun c => !gone c.line),
             slices := s.slices.map (fun x => { x with lines := x.lines.filter (fun l => !gone l.line) }),
             homes := s.homes.filter (fun h => !gone (32 * h.1)),
             locks := s.locks.filter (fun l => l.op ≠ m.lockId), moves := s.moves.filter (fun x => x.leaf ≠ m.leaf) }
  let s := s.moveWaits (fun a => (inFrame mode m.oldPa m.size a).map (fun p => canonPa mode p.1 (m.newPa + p.2)))
  let s := s.wrote none ((List.range m.count).map (fun i => lineOf (m.leaf + 8 * i)))
  let s := match m.element with
    | some a => ({ s with mem := Memory.setBytes s.mem a (toLe 8 (m.oldPa / 4096)) }).wrote none [lineOf a]
    | none => s
  s.retryMove m.leaf

/-- What a move writes beside its frames cannot be written now: its leaves and its element (R256, R273, R280). -/
def State.moveHeld (s : State) (m : Move) : List Nat :=
  ((List.range m.count).map (fun i => m.leaf + 8 * i) ++ m.element.toList).filterMap (fun a =>
    if s.heldOff [lineOf a] true || s.locks.any (fun l => decide (l.op ≠ m.lockId ∧ l.space = .mem ∧ l.lo < a + 8 ∧ a < l.hi)) then
      some (lineOf a) else none)

/-! ### Promotion by counters (R255) -/

/-- A promotion of a leaf: the move, a refusal, or none while it waits; the pool's header and the leaf are free to be read and
written. -/
def State.promote (s : State) (vf addr size : Nat) : Option State :=
  let h := Config.framePool vf
  let alloc := s.readNat h 4
  let lines := ([lineOf h, lineOf addr, lineOf (h + 128 + 8 * alloc)]).eraseDups
  if s.moves.any (fun m => m.holds addr) then none
  else if s.heldOff lines true || s.locked .mem h 16 true || s.locked .mem addr 8 true then some (s.noteHeld lines)
  else
    let e := s.readNat addr 8
    let frame := s.readNat (h + 128 + 8 * alloc) 8 % 2 ^ 40 * 4096
    let rest : State := { s with hot := s.hot.drop 1 }
    if regionOf (frameOf e) ≠ some .far ∨ bits e 54 2 ≠ 1 ∨ bits e 56 8 < s.thresh then some (rest.readBy [lineOf addr])
    else
      let rest := rest.readBy lines
      if s.readNat (h + 4) 4 ≤ alloc then
        let mem := Memory.setBytes rest.mem (h + 12) (toLe 4 (satAdd (rest.readNat (h + 12) 4)))
        some (({ rest with mem := Memory.setBytes mem (addr + 7) (toLe 1 (s.thresh - 1)) }).wrote none [lineOf h, lineOf addr])
      else if regionOf frame ≠ some .near ∨ s.frameSound vf frame 0 size = false then some rest
      else
        let leaf := if size = 16 then addr / 128 * 128 else addr
        let m : Move := { vf := vf, leaf := leaf, count := if size = 16 then 16 else 1, size := size, oldPa := frameOf e, newPa := frame,
                          hp := bits e 8 4, slot := none, element := some (h + 128 + 8 * alloc) }
        (rest.beginMove m).map (fun s =>
          (({ s with mem := Memory.setBytes s.mem h (toLe 4 (alloc + 1)) }).wrote none [lineOf h]))

/-- The counts of a die that go to their leaves: those of entries that have left its cache, and those that have reached 255
(R255). -/
def State.heats (s : State) (die : Nat) : List TlbEntry :=
  s.tlb.filter (fun t => decide (t.place = 512 + die ∨ (t.place = 256 + die ∧ 255 ≤ t.count)))

/-- HEAT_FLUSH (R255): a count of a die's translation cache goes to its leaf; a leaf whose HEAT has reached THRESH is promoted, or
is not for want of a frame. -/
def execHeatFlush (die idx : Nat) : State → Host.Outcome State Fault Refusal :=
  event (fun s =>
    match s.hot with
    | (vf, addr, size) :: _ => s.promote vf addr size
    | [] =>
      match (s.heats die)[idx]? with
      | none => none
      | some t =>
        if s.heatHeld [t] then some (s.noteHeld [lineOf t.leafAddr])
        else
          let s1 := s.giveHeat [t]
          some { s1 with tlb := s1.tlb.filterMap (fun x =>
            if x = t then (if t.place < 512 then some { x with count := 0 } else none) else some x) })

/-! ### Moves directed by the physical function (R257) -/

def mrBlock : Nat := 0x114000
/-- Slots of the migration ring. -/
def State.mrSlots (s : State) : Nat := 2 ^ bits (s.pfGet (mrBlock + 8)) 24 4
/-- A record of the ring. -/
def State.mrRecord (s : State) (slot : Nat) : Nat := canonPa .perDie 0 (s.pfGet64 mrBlock / 4096 * 4096 + 32 * slot)

/-- MRTAIL_WRITE (R257): an index out of the ring is ignored. -/
def execMrtailWrite (v : Nat) : State → Host.Outcome State Fault Refusal :=
  hostWrite (fun s => given (decide (v < s.mrSlots)) (s.pfSet (mrBlock + 0xC) v))

/-- STATUS of a record written, and vector 0 of PF 0 signalled. -/
def State.mrStatus (s : State) (slot st : Nat) : State :=
  let a := s.mrRecord slot + 15
  let s1 : State := { s with mem := Memory.set s.mem a (BitVec.ofNat 8 st) }
  ((s1.wrote none [lineOf a]).postLines 513 false hubPlace true [lineOf a]).signal 512 0

/-- The line of a record cannot be written, or read, now. -/
def State.mrHeld (s : State) (slot : Nat) (write : Bool) : Bool :=
  s.heldOff [lineOf (s.mrRecord slot)] write || s.locked .mem (s.mrRecord slot) 32 write

/-- MIGRATION_RECORD (R257): the record at MRHEAD is read, MRHEAD advances, and its move begins or is refused. -/
def execMigrationRecord : State → Host.Outcome State Fault Refusal :=
  event (fun s =>
    let slot := s.pfGet (mrBlock + 0x10)
    let a := s.mrRecord slot
    if bits (s.pfGet (mrBlock + 8)) 31 1 = 0 || decide (slot = s.pfGet (mrBlock + 0xC)) || s.moves.any (fun m => m.slot.isSome) then
      none
    else if s.mrHeld slot true then some (s.noteHeld [lineOf a])
    else
      let r := s.readNat a 32
      let s := ((s.readBy [lineOf a]).postLines 513 false hubPlace false [lineOf a]).pfSet (mrBlock + 0x10) ((slot + 1) % s.mrSlots)
      let leaf := canonPa .perDie 0 (8 * bits r 0 49)
      let vf := bits r 64 9
      let pa := bits r 80 40 * 4096
      if s.moves.any (fun m => m.holds leaf) then none
      else
        match (if paExists .perDie 0 (8 * bits r 0 49) then s.movable vf leaf else none) with
        | none => some (s.mrStatus slot 2)
        | some size =>
          if !s.frameSound vf pa (bits r 76 4) size then some (s.mrStatus slot 3)
          else
            s.beginMove { vf := vf, leaf := leaf, count := if size = 16 then 16 else 1, size := size,
                          oldPa := frameOf (s.readNat leaf 8), newPa := pa, hp := bits r 76 4, slot := some slot, element := none })

/-- MOVE_RELEASE (R256, R257): the oldest move under its locks ends. -/
def execMoveRelease : State → Host.Outcome State Fault Refusal :=
  event (fun s =>
    match s.moves with
    | [] => none
    | m :: _ =>
      let held := s.moveHeld m ++ (match m.slot with | some i => if s.mrHeld i true then [lineOf (s.mrRecord i)] else [] | none => [])
      if held ≠ [] then some (s.noteHeld held)
      else
        let s1 := s.finishMove m
        some (match m.slot with
          | some i => s1.mrStatus i 1
          | none => s1))

end Sys2Proof.Machine
end

