-- ==== Sys2Proof/Machine/Links.lean ====
section
/-!
DEFINITION. Die links and the compressed-line protocol (01 R6–R22), memory errors (R24–R26) and the device fabric
(R27–R30, 20 R490, R491).
-/

namespace Sys2Proof.Machine

/-! ### The package stops (01 R12, 03 R80, R83) -/

/-- A fatal error: no context runs, every queue is STOPPED, and vector 0 of PF 0 is signalled (R12, R80, R83, R84). -/
def State.stopPackage (s : State) (fcause : Nat) : State :=
  if s.fatal then s
  else ({ s with stopped := List.range 512 }.pfSet devstat (putBits (putBits (s.pfGet devstat) 30 1 1) 26 4 fcause)).signal 512 0

/-! ### Sending, receiving and resynchronisation (R16–R21) -/

/-- LINE_PACKET_SEND (R7–R9, R13–R17, R20): a message leaves by a direction, forwarded, released or new, in the order of its
stream; a new one to the opposite die is held at its source while earlier ones are on another path. With 512 lines held,
new lines wait. -/
def execLinePacketSend (p : LineSend) (line : BitVec 1024) : State → Host.Outcome State Fault Refusal :=
  event (fun s =>
    let ⟨dir, src, dst, cls, perr⟩ := p
    match s.linkDir? dir with
    | none => none
    | some d =>
      let m : DieMsg := { src := src, dst := dst, cls := cls, line := line }
      let open_ := s.linkUp (dir / 2) && !s.fatal && decide (d.held.length < 512) && d.resync.isNone
      match d.relay.find? m.sameStream with
      | some w =>
        given (open_ && decide (w = m)) (s.sendLine { d with relay := d.relay.erase m } m perr)
      | none =>
        if src ≠ senderOf dir ∨ dst = src then none
        else if opposite src dst then
          match s.oppPath? src with
          | none => none
          | some p =>
            if dir ≠ nextDir src dst (s.oppVia src) ∨ s.fatal = true then none
            else s.takePath p m (fun s => given open_ (s.sendLine d m perr))
        else if dir ≠ dirTo src dst then none
        else given open_ (s.sendLine d m perr))

/-- A message that a direction delivers: at its destination, or at the die that forwards it (R7); a message accepted by the
opposite die leaves the path in use (R9). -/
def State.deliverLine (s : State) (d : LinkDir) (m : DieMsg) : State :=
  if receiverOf d.dir = m.dst then
    let s := s.setDir { d with delivered := d.delivered ++ [m] }
    if opposite m.src m.dst then s.modPath m.src (fun p => { p with outstanding := p.outstanding - 1 }) else s
  else
    let on := dirTo (receiverOf d.dir) m.dst
    (s.setDir d).relayOn on [m]

/-- A receiver declares a desynchronisation (R19, R21); RESYNC_CNT counts it at the receiving end. -/
def State.desync (s : State) (d : LinkDir) (seq : Nat) (perr : Bool) : State :=
  let s := if perr then s.notePerr (backOf d.dir) else s
  (s.setDir { d with resync := some (seq, d.rx.epoch), discarding := true }).countUp (dlstatOf (backOf d.dir)) 8 8

/-- LINE_PACKET_RECEIVE (R14, R15, R17–R19): the oldest packet of a direction is accepted, discarded, or found out of
step. -/
def execLinePacketReceive (x : LineReceipt) : State → Host.Outcome State Fault Refusal :=
  event (fun s =>
    let ⟨dir, perr⟩ := x
    match s.linkDir? dir with
    | none => none
    | some d =>
      match d.wire with
      | [] => none
      | p :: rest =>
        if !s.linkUp (dir / 2) || s.fatal then none
        else
          let h := p.header.toNat
          let seq := bits h 20 12
          let d := { d with wire := rest }
          let fresh := decide (bits h 18 2 = (d.rx.epoch + 1) % 4)
          if !fresh && (d.discarding || decide (bits h 18 2 ≠ d.rx.epoch)) then some (s.setDir d)
          else
            let rx := if fresh then d.rx.nextEpoch else d.rx
            let d := { d with rx := rx, discarding := false }
            match (if perr then none else rx.decodeLine p) with
            | none => some (s.desync d seq perr)
            | some (ws, ls) =>
              let x := BitVec.ofNat 1024 (natOfWords ws)
              if crc8 (lineBytes x) ≠ bits h 0 8 then some (s.desync d seq false)
              else
                let rx := if bits h 15 3 = 4 then rx.insert ls else rx
                some (s.deliverLine { d with rx := { rx with seq := (seq + 1) % 4096 } }
                  { src := p.src, dst := p.dst, cls := p.cls, line := x }))

/-- RESYNC (R19, R21): the sender begins a new epoch and sends every line from s onwards again; it crosses only a link that
carries traffic (R11). -/
def execResync (dir : Nat) : State → Host.Outcome State Fault Refusal :=
  event (fun s =>
    match s.linkDir? dir with
    | none => none
    | some d =>
      match d.resync with
      | none => none
      | some (seq, e) =>
        if !s.linkUp (dir / 2) || s.fatal then none
        else if e ≠ d.tx.epoch then some (s.setDir { d with resync := none })
        else
          let ctl := s.pfGet (dlctlOf dir)
          let again := d.held.dropWhile (fun x => x.seq ≠ seq)
          let d1 := again.foldl (fun d x => d.send ctl x.seq x.msg (Config.choice s.draw)) ({ d with tx := d.tx.nextEpoch, resync := none } : LinkDir)
          some ({ s with draw := s.draw + 1 }.setDir d1))

/-- CUMULATIVE_ACKNOWLEDGEMENT (R20): of lines that the receiver has accepted; it crosses a link that carries traffic. -/
def execCumulativeAcknowledgement (dir seq : Nat) : State → Host.Outcome State Fault Refusal :=
  event (fun s =>
    match s.linkDir? dir with
    | none => none
    | some d =>
      if s.linkUp (dir / 2) = true ∧ s.fatal = false ∧ (d.rx.seq + 4096 - 1 - seq) % 4096 < 2048 ∧
          (d.held.any (fun x => decide (x.seq = seq))) = true then
        some (s.setDir { d with held := (d.held.dropWhile (fun x => x.seq ≠ seq)).drop 1 })
      else none)

/-! ### The link layer and DLCTL (R7, R9, R11, R12, R22) -/

/-- DIE_LINK_FLIT_CRC_FAIL (R11): the flit is replayed. -/
def execDieLinkFlitCrcFail (link : Nat) : State → Host.Outcome State Fault Refusal :=
  event (fun s => (s.layer? link).map (fun l => s.setLayer { l with replays := l.replays + 1 }))

/-- Training of a link may still succeed: within 18,000 cycles of the first attempt (R12). -/
def State.inTrainTime (s : State) (l : LinkLayer) : Bool := l.training.all (fun t => decide (s.cycle ≤ t + 18000))

/-- LINK_RETRAIN (R11, R12, R22, R91): an attempt, of at most four in a row; traffic is held meanwhile. Each attempt counts in
RETRAIN_CNT and in the lifetime record (log entry 37). -/
def execLinkRetrain (link : Nat) : State → Host.Outcome State Fault Refusal :=
  event (fun s =>
    match s.layer? link with
    | none => none
    | some l =>
      if s.fatal || !(s.linkUp link || l.training.isSome) || decide (4 ≤ l.attempts) || !s.inTrainTime l then none
      else
        let s1 := s.setLayer { l with training := some (l.training.getD s.cycle), attempts := l.attempts + 1 }
        let s2 := (s1.bothStat link 0 1 0).countUp (dlstatOf (2 * link)) 16 16
        some ((s2.countUp (dlstatOf (2 * link + 1)) 16 16).modLife (fun x => { x with retrains := bump x.retrains link 65535 })))

/-- LINK_RETRAIN_DONE (R11, R12): held traffic goes on. -/
def execLinkRetrainDone (link : Nat) : State → Host.Outcome State Fault Refusal :=
  event (fun s =>
    match s.layer? link with
    | none => none
    | some l =>
      if l.training.isNone || s.fatal || !s.inTrainTime l then none
      else some ((s.setLayer { l with training := none, attempts := 0 }).bothStat link 0 1 1))

/-- LINK_OUT_OF_SERVICE (R12): after four attempts in a row, or 18,000 cycles after the first. -/
def execLinkOutOfService (link : Nat) : State → Host.Outcome State Fault Refusal :=
  event (fun s =>
    match s.layer? link with
    | none => none
    | some l =>
      match l.training with
      | none => none
      | some t =>
        if s.fatal then none
        else
          let s1 := if 4 ≤ l.attempts then s else s.by_ (t + 18000)
          some (((s1.bothStat link 0 1 0).bothStat link 1 1 1).stopPackage 1))

/-- DLCTL of the sending end of a direction written (R16, R22): the path to the opposite die that it selects is that of the
messages issued from then on (R9). -/
def State.writeDlctl (s : State) (dir v : Nat) : State :=
  s.pfSet (dlctlOf dir) (bits v 0 (if dir < 8 ∧ dir % 2 = 0 then 6 else 5))

/-- DLCTL_WRITE (R9, R16, R22): `link` names the end, 0 to 15, by the direction in which it sends. -/
def execDlctlWrite (link v : Nat) : State → Host.Outcome State Fault Refusal :=
  hostWrite (fun s => given (decide (link < 16 ∧ v < 2 ^ 32)) (s.writeDlctl link v))

/-- Held messages of a path leave their source for its first link (R9). -/
def State.releaseHeld (s : State) (die : Nat) (via : Bool) (ms : List DieMsg) : State :=
  s.relayOn (nextDir die ((die + 2) % 4) via) ms

/-- OPP_PATH_SWITCH (R9): every message on the old path has been accepted, and the held ones that chose the next path go by
it, up to the first that chose another. -/
def execOppPathSwitch (die : Nat) : State → Host.Outcome State Fault Refusal :=
  event (fun s =>
    match s.oppPath? die with
    | none => none
    | some p =>
      if 0 < p.outstanding then none
      else
        match p.held with
        | [] => given (decide (p.viaHub ≠ s.oppVia die)) (s.modPath die (fun p => { p with viaHub := s.oppVia die }))
        | (via, _) :: _ =>
          let now := (p.held.takeWhile (fun x => x.1 = via)).map (·.2)
          some ((s.modPath die (fun p =>
            { p with viaHub := via, outstanding := now.length, held := p.held.drop now.length })).releaseHeld die via now))

/-! ### Memory errors (R24–R26, R91) -/

/-- PATROL_SCRUB (R24, R25): the scrubber reads a line in which `errs` more symbols are in error. -/
def execPatrolScrub (line errs : Nat) : State → Host.Outcome State Fault Refusal :=
  event (fun s => given ((channelOf line).isSome) ((s.addErrs line errs).eccRead [line]))

/-! ### The fabric (R27–R30, R490, R491) -/

/-- FABRIC_FLIT_CRC_FAIL (R27): the flit is replayed. -/
def execFabricFlitCrcFail (port : Nat) : State → Host.Outcome State Fault Refusal :=
  event (fun s => given (decide (port < 8)) { s with fabReplays := bump s.fabReplays port (2 ^ 64) })

/-- A message without payload put at the hub whose SEQ is given (R30). -/
def State.postAck (s : State) (dst seq : Nat) : State :=
  let (id, s) := s.fresh
  let m : FabMsg := { id := id, dst := dst, owner := 514, header := fabHeader 0 0 0 seq s.device dst 0 2 0, payload := [], source := none }
  { s with fabWaiting := s.fabWaiting ++ [m] }

/-- PWIN of a window (R491). -/
def pwin (w : Nat) : Nat := 0x140000 + 0x10 * w

/-- An `xst` arrives for a window: its address, when the window takes it (R491). -/
def State.arrivalAt (s : State) (w taddr len : Nat) : Option Nat :=
  let hi := s.pfGet64 (pwin w + 8)
  let lo := s.pfGet64 (pwin w)
  let vf := bits lo 32 9
  let pa := bits hi 12 40 * 4096 + taddr
  if bits lo 63 1 = 1 ∧ taddr + 4 * (len + 1) ≤ 2 ^ bits lo 52 6 ∧ (regionOf pa = some .near ∨ regionOf pa = some .far) ∧
      paExists (s.pmode vf) 0 pa = true then some (canonPa (s.pmode vf) 0 pa)
  else none

/-- XST_ARRIVAL (R30, R491): applied as one event or discarded and counted, and acknowledged; it waits while its bytes are
locked or held. -/
def execXstArrival (header : BitVec 128) (payload : List Word) : State → Host.Outcome State Fault Refusal :=
  event (fun s =>
    let h := header.toNat
    let len := bits h 72 5
    let w := bits h 64 8
    let taddr := bits h 79 49
    let n := 4 * (len + 1)
    if bits h 23 4 ≠ 1 ∨ bits h 36 6 ≠ s.device ∨ payload.length ≠ len + 1 ∨ 128 < taddr % 128 + n ∨ s.running = false then none
    else
      match s.arrivalAt w taddr len with
      | none => some ((s.countUp (pwin w) 0 16).postAck (bits h 42 6) (bits h 48 16))
      | some a =>
        if s.heldOff [lineOf a] true then some (s.noteHeld [lineOf a])
        else if s.locked .mem a n true then none
        else
          let s1 := if n = 128 then s.cleanLines [lineOf a] else s.eccRead [lineOf a]
          let s2 := { s1 with mem := Memory.setBytes s1.mem a (toLe n (natOfWords payload)) }.wrote none [lineOf a]
          some ((s2.postLines (bits (s.pfGet64 (pwin w)) 32 9) false hubPlace true [lineOf a]).postAck (bits h 42 6) (bits h 48 16)))

/-- A message sent to a destination awaits its acknowledgement (R28). -/
def State.sentTo (s : State) (dst : Nat) : Bool :=
  s.fabUnacked.any (fun u => decide (u.dst = dst) &&
    !s.fabWaiting.any (fun m => decide (m.dst = dst ∧ m.kind = 1 ∧ bits m.header.toNat 48 16 = u.seq)))

/-- XACK (R28, R286, R490): the count of the sending group falls, resident or saved. -/
def execXack (src seq : Nat) : State → Host.Outcome State Fault Refusal :=
  event (fun s =>
    match s.fabUnacked.find? (fun u => u.dst = src && u.seq = seq) with
    | none => none
    | some u =>
      let s1 : State := { s with fabUnacked := s.fabUnacked.erase u }
      let down (g : Group) : Group :=
        if g.team = u.team ∧ g.num = u.group then { g with xstOut := g.xstOut - 1 }.endFence else g
      let s2 : State := { s1 with groups := s1.groups.map down,
                                  teams := s1.teams.map (fun t => { t with savedGroups := t.savedGroups.map down }) }
      some { s2 with fabHeld := s2.fabHeld.filter (fun d => decide (d ≠ src) || s2.sentTo d) })

/-- FABERR (R65). -/
def faberr : Nat := hubSpace + 0x3000

/-- HEADER_FLIT_DISCARD (R30). -/
def execHeaderFlitDiscard (header : BitVec 128) : State → Host.Outcome State Fault Refusal :=
  event (fun s =>
    let k := bits header.toNat 23 4
    if 1 ≤ k ∧ k ≤ 6 then none else some (s.pfSet faberr (min 0xFFFFFFFF (s.pfGet faberr + 1))))

/-- An entry of the route table written (R28, R65): messages that have not left are held until those that have are
acknowledged. -/
def State.writeFroute (s : State) (dev v : Nat) : State :=
  let s1 := s.pfSet (froute dev) (bits v 0 3 + bits v 31 1 * 2 ^ 31)
  if s1.sentTo dev && !s1.fabHeld.contains dev then { s1 with fabHeld := s1.fabHeld ++ [dev] } else s1

/-- FROUTE_WRITE (R28). -/
def execFrouteWrite (dev v : Nat) : State → Host.Outcome State Fault Refusal :=
  hostWrite (fun s => given (decide (dev < 64 ∧ v < 2 ^ 32)) (s.writeFroute dev v))

end Sys2Proof.Machine
end

