-- ==== Sys2Proof/Machine/Warp.lean ====
section
/-!
DEFINITION. Images that the display engine samples and warps (02 R44, R50, R51, R53): bilinear samples, the separable Keys
cubic, rotations and the matrix of a reprojection. FP32 values are codes; each operation is FP32 with RNE, from left to
right, as R53 says of its products (log entry 50).
-/

namespace Sys2Proof.Machine

/-- All of a list, or none. -/
def allSome {α : Type} : List (Option α) → Option (List α)
  | [] => some []
  | none :: _ => none
  | some x :: xs => (allSome xs).map (x :: ·)

/-- A sum from left to right. -/
def f32sum : List Nat → Nat
  | [] => 0
  | x :: xs => xs.foldl f32add x

/-- A rational number as FP32. -/
def f32ratio (p q : Nat) : Nat := f32div (f32ofInt p) (f32ofInt q)

/-- An image: the value at a column and a row, none where the spec fixes no value. -/
abbrev Image := Int → Int → Option Nat

/-- Taps and their weights: those of weight 0 are not read. -/
def tapSum (ts : List (Nat × Option Nat)) : Option Nat :=
  (allSome ((ts.filter (fun t => f32abs t.1 ≠ 0)).map (fun t => t.2.map (f32mul t.1)))).map f32sum

/-- floor of a coordinate and what is left of it; none of one that is not finite. -/
def splitAt (p : Nat) : Option (Int × Nat) :=
  if f32finite p then let i := f32floor p; some (i, f32sub p (f32ofInt i)) else none

/-- A bilinear sample of an image (R44, R50, R53). -/
def bilinear (img : Image) (px py : Nat) : Option Nat :=
  match splitAt px, splitAt py with
  | some (i, fx), some (j, fy) =>
    let gx := f32sub f32one fx
    let gy := f32sub f32one fy
    tapSum [(f32mul gx gy, img i j), (f32mul fx gy, img (i + 1) j), (f32mul gx fy, img i (j + 1)),
      (f32mul fx fy, img (i + 1) (j + 1))]
  | _, _ => none

/-- The Keys cubic with a = −0.5 at a distance of at most 1, and of 1 to 2 (R44). -/
def keysNear (t : Nat) : Nat :=
  f32add (f32sub (f32mul (f32mul (f32mul (f32ratio 3 2) t) t) t) (f32mul (f32mul (f32ratio 5 2) t) t)) f32one
def keysFar (t : Nat) : Nat :=
  f32add (f32sub (f32add (f32mul (f32mul (f32mul (f32neg f32half) t) t) t) (f32mul (f32mul (f32ratio 5 2) t) t))
    (f32mul (f32ofInt 4) t)) (f32ofInt 2)

/-- Weights of the taps at −1, 0, 1 and 2 from the floor, at a fraction. -/
def keysWeights (f : Nat) : List Nat :=
  [keysFar (f32add f32one f), keysNear f, keysNear (f32sub f32one f), keysFar (f32sub (f32ofInt 2) f)]

/-- A sample of an image by the separable Keys cubic: rows first, then the column of their results (R44, R53). -/
def keysSample (img : Image) (px py : Nat) : Option Nat :=
  match splitAt px, splitAt py with
  | some (i, fx), some (j, fy) =>
    let row (y : Int) : Option Nat := tapSum ((keysWeights fx).zipIdx.map (fun w => (w.1, img (i + w.2 - 1) y)))
    tapSum ((keysWeights fy).zipIdx.map (fun w => (w.1, row (j + w.2 - 1))))
  | _, _ => none

/-! ### Reprojection (R51, R53) -/

/-- A 3 × 3 matrix by rows. -/
abbrev Mat3 := List (List Nat)

def Mat3.at (m : Mat3) (i j : Nat) : Nat := (m.getD i []).getD j 0
def Mat3.ofFn (f : Nat → Nat → Nat) : Mat3 := (List.range 3).map (fun i => (List.range 3).map (f i))
def Mat3.mul (a b : Mat3) : Mat3 := Mat3.ofFn (fun i j => f32sum ((List.range 3).map (fun k => f32mul (a.at i k) (b.at k j))))
def Mat3.transpose (a : Mat3) : Mat3 := Mat3.ofFn (fun i j => a.at j i)

/-- FX, FY, CX, CY and the quaternion of a pose record (R51). -/
def poseFx (r : Nat) : Nat := bits r 224 32
def poseFy (r : Nat) : Nat := bits r 256 32
def poseCx (r : Nat) : Nat := bits r 288 32
def poseCy (r : Nat) : Nat := bits r 320 32
def poseQuat (r : Nat) : List Nat := (List.range 4).map (fun i => bits r (96 + 32 * i) 32)

/-- The norm of a quaternion. -/
def quatNorm (q : List Nat) : Nat := f32sqrt (f32sum (q.map (fun x => f32mul x x)))

/-- The rotation of a quaternion after it is normalised: camera to world (R51). -/
def rotOf (q : List Nat) : Mat3 :=
  let n := quatNorm q
  let c (i : Nat) : Nat := f32div (q.getD i 0) n
  let x := c 0
  let y := c 1
  let z := c 2
  let w := c 3
  let two := f32ofInt 2
  let diag (a b : Nat) : Nat := f32sub f32one (f32mul two (f32add (f32mul a a) (f32mul b b)))
  let plus (a b c d : Nat) : Nat := f32mul two (f32add (f32mul a b) (f32mul c d))
  let minus (a b c d : Nat) : Nat := f32mul two (f32sub (f32mul a b) (f32mul c d))
  [[diag y z, minus x y z w, plus x z y w], [plus x y z w, diag x z, minus y z x w], [minus x z y w, plus y z x w, diag x y]]

/-- The camera matrix of a pose, and its inverse (R53). -/
def camera (r : Nat) : Mat3 := [[poseFx r, 0, poseCx r], [0, poseFy r, poseCy r], [0, 0, f32one]]
def cameraInv (r : Nat) : Mat3 :=
  [[f32div f32one (poseFx r), 0, f32neg (f32div (poseCx r) (poseFx r))],
   [0, f32div f32one (poseFy r), f32neg (f32div (poseCy r) (poseFy r))], [0, 0, f32one]]

/-- H of R53, for the pose at render time and the latest pose. -/
def reprojection (rpose pose : Nat) : Mat3 :=
  (((camera rpose).mul (rotOf (poseQuat rpose)).transpose).mul (rotOf (poseQuat pose))).mul (cameraInv pose)

/-- (hx, hy, hw) of a display pixel. -/
def Mat3.project (h : Mat3) (x y : Nat) : Nat × Nat × Nat :=
  let v := [f32add (f32ofInt x) f32half, f32add (f32ofInt y) f32half, f32one]
  let row (i : Nat) : Nat := f32sum ((List.range 3).map (fun k => f32mul (h.at i k) (v.getD k 0)))
  (row 0, row 1, row 2)

/-- An image of a width and height beyond which a colour reads black (R53). -/
def Image.framed (img : Image) (w h : Nat) (colour : Bool) : Image := fun x y =>
  if 0 ≤ x ∧ 0 ≤ y ∧ x < w ∧ y < h then img x y else if colour then some 0 else none

/-! ### Motion search (R50) -/

/-- Candidates along an axis: −64 to 64 in quarters. -/
def searchSteps : List Int := (List.range 513).map (fun (i : Nat) => (i : Int) - 256)

/-- The first of two candidates (SAD, dx, dy) in quarters is the better (R50). -/
def betterMotion (a b : Nat × Int × Int) : Bool :=
  let mag (p : Nat × Int × Int) : Nat := p.2.1.natAbs + p.2.2.natAbs
  if f32lt a.1 b.1 then true
  else if f32lt b.1 a.1 then false
  else if mag a ≠ mag b then decide (mag a < mag b)
  else if a.2.2 ≠ b.2.2 then decide (a.2.2 < b.2.2)
  else decide (a.2.1 < b.2.1)

/-- The sum of absolute differences of a block's pixels against a candidate's bilinear samples; none when one of them has no
stated value. -/
def motionScore (cur prev : Image) (xs ys : List Nat) (dx dy : Int) : Option Nat :=
  let quarter (p : Nat) (d : Int) : Nat := f32div (f32ofInt (4 * (p : Int) + d)) (f32ofInt 4)
  (allSome (ys.flatMap (fun (y : Nat) => xs.map (fun (x : Nat) =>
    match cur x y, bilinear prev (quarter x dx) (quarter y dy) with
    | some a, some b => some (f32abs (f32sub a b))
    | _, _ => none)))).map f32sum

/-- The vector of a block, in quarters (R50): none when a candidate has no stated score, for the spec does not say what a
sample outside the previous source is. -/
def motionSearch (cur prev : Image) (xs ys : List Nat) : Option (Int × Int) :=
  let cands := searchSteps.flatMap (fun dy => searchSteps.map (fun dx =>
    (motionScore cur prev xs ys dx dy).map (fun s => (s, dx, dy))))
  match allSome cands with
  | some (c :: cs) => some (cs.foldl (fun b x => if betterMotion x b then x else b) c).2
  | _ => none

end Sys2Proof.Machine
end

