-- ==== Sys2Proof/Machine/Network.lean ====
section
/-!
DEFINITION. What the display engine computes for a band (02 R40, R44–R53): surfaces, the synthesis network and the images of
the fallback steps. A channel whose value the spec does not fix is `none` here, and takes a free value when it is shown.
-/

namespace Sys2Proof.Machine

/-! ### Frame records and surfaces (R38, R40) -/

namespace Presented

def field (f : Presented) (lo w : Nat) : Nat := bits f.rec_.toNat lo w
def seq (f : Presented) : Nat := f.field 0 32
def srcW (f : Presented) : Nat := f.field 44 14 + 1
def srcH (f : Presented) : Nat := f.field 58 14 + 1
def fmt (f : Presented) : Nat := f.field 40 4
def pitch (f : Presented) : Nat := 128 * f.field 72 16
def reproj (f : Presented) : Bool := f.field 36 1 = 1
def me (f : Presented) : Bool := f.field 35 1 = 1
def src (f : Presented) : Nat := 128 * f.field 128 42
def mv (f : Presented) : Nat := 128 * f.field 170 42
def hist (f : Presented) : Nat := 128 * f.field 212 42
def netBase (f : Presented) : Nat := 128 * f.field 256 42
def fmap (f : Presented) : Nat := 128 * f.field 298 42
def poseVa (f : Presented) : Nat := 64 * f.field 340 43
def rposeVa (f : Presented) : Nat := 64 * f.field 383 43

end Presented

/-- Bytes of a surface as a number; none where they cannot be read or are poisoned. -/
def State.surface (s : State) (vf dev va n : Nat) : Option Nat :=
  match s.engineRange none none vf dev false (rangeFuel n) va n with
  | .ok ps => if s.poisonedPieces ps then none else some (leNat (s.readPieces ps))
  | _ => none

/-- Pitch of a history surface (R40). -/
def histPitch (hactive : Nat) : Nat := (8 * hactive + 127) / 128 * 128
/-- Pitch of a motion-vector surface (R40). -/
def mvPitch (srcW : Nat) : Nat := (4 * srcW + 127) / 128 * 128

/-! ### What a band is computed from -/

/-- The frame that is built, the surface of its history when that is valid (R45), the frame shown before it, whose source is
the previous source (R50), and the size of the display. -/
structure BandCtx where
  frame : Presented
  history : Option (Nat × Nat × Nat)
  previous : Option Presented
  hactive : Nat
  vactive : Nat

/-- Source column or row of a display column or row: the nearest pixel (R47). -/
def nearest (x src disp : Nat) : Nat := (2 * x + 1) * src / (2 * disp)

/-- The source of a frame as an image of FP32 values of a channel (R38): RGB10A2 holds n / 1023, and n / 3 in A. -/
def State.sourceImage (s : State) (f : Presented) (c : Nat) : Image := fun x y =>
  if x < 0 ∨ y < 0 ∨ (f.srcW : Int) ≤ x ∨ (f.srcH : Int) ≤ y then none
  else
    let row := f.src + y.toNat * f.pitch
    if f.fmt = 0 then (s.surface f.vf f.dev (row + 8 * x.toNat) 8).map (fun v => f32of .fp16 (bits v (16 * c) 16))
    else (s.surface f.vf f.dev (row + 4 * x.toNat) 4).map (fun v =>
      if c < 3 then f32ratio (bits v (10 * c) 10) 1023 else f32ratio (bits v 30 2) 3)

/-- Luma of a source (R50). -/
def State.luma (s : State) (f : Presented) : Image := fun x y =>
  match s.sourceImage f 0 x y, s.sourceImage f 1 x y, s.sourceImage f 2 x y with
  | some r, some g, some b => some (f32div (f32add (f32add r (f32mul (f32ofInt 2) g)) b) (f32ofInt 4))
  | _, _, _ => none

/-- The previous history surface as an image of FP16 codes of a channel (R45). -/
def State.historyHalf (s : State) (b : BandCtx) (c : Nat) : Image := fun x y =>
  match b.history with
  | some (vf, dev, base) =>
    if x < 0 ∨ y < 0 ∨ (b.hactive : Int) ≤ x ∨ (b.vactive : Int) ≤ y then none
    else (s.surface vf dev (base + y.toNat * histPitch b.hactive + 8 * x.toNat) 8).map (fun v => bits v (16 * c) 16)
  | none => none

/-- Motion of a source pixel in source pixels, as FP16 (R40): with ME_EN 1 that of its block, which is zero when no previous
source exists (R50). -/
def State.motion (s : State) (b : BandCtx) (x y : Nat) : Option (Nat × Nat) :=
  if b.frame.me then
    match b.previous with
    | none => some (0, 0)
    | some q =>
      let block (p n : Nat) : List Nat := (List.range 8).filterMap (fun i => if 8 * (p / 8) + i < n then some (8 * (p / 8) + i) else none)
      let half (d : Int) : Nat := f32to .fp16 (f32div (f32ofInt d) (f32ofInt 4))
      (motionSearch (s.luma b.frame) (s.luma q) (block x b.frame.srcW) (block y b.frame.srcH)).map (fun v => (half v.1, half v.2))
  else if b.frame.mv = 0 then none
  else (s.surface b.frame.vf b.frame.dev (b.frame.mv + y * mvPitch b.frame.srcW + 4 * x) 4).map (fun v => (bits v 0 16, bits v 16 16))

/-- The scale s (R39). -/
def BandCtx.scale (b : BandCtx) : Nat := f32ratio b.hactive b.frame.srcW

/-- s times an FP16 number, in FP32. -/
def scaled (b : BandCtx) (h : Nat) : Nat :=
  f32mul (f32of .fp16 h) b.scale

/-- F1 is available (R44). -/
def BandCtx.hasF1 (b : BandCtx) : Bool := b.history.isSome && (b.frame.me || decide (b.frame.mv ≠ 0))

/-! ### The network (R46–R49) -/

/-- A layer record (R47). -/
structure NetLayer where
  op : Nat
  act : Nat
  fmt : Nat
  in2 : Nat
  cin : Nat
  cout : Nat
  woff : Nat
  soff : Nat
  deriving DecidableEq, Repr

def netLayer (r : Nat) : NetLayer :=
  { op := bits r 12 4, act := bits r 8 4, fmt := bits r 5 3, in2 := bits r 0 5, cin := bits r 16 8 + 1,
    cout := bits r 24 8 + 1, woff := bits r 32 32, soff := bits r 64 32 }

/-- Header bytes and layer records of the descriptor at a base, NLAYERS of them. -/
def State.netRecords (s : State) (vf dev base : Nat) : Option (Nat × List NetLayer) :=
  match s.surface vf dev base 16 with
  | none => none
  | some h =>
    let n := bits h 0 8
    (s.surface vf dev (base + 16) (16 * n)).map (fun r => (h, (List.range n).map (fun i => netLayer (bits r (128 * i) 128))))

/-- Halvings of the resolution after the first `i` layers. -/
def netLevel (ls : List NetLayer) (i : Nat) : Int :=
  (ls.take i).foldl (fun n l => if l.op = 2 then n + 1 else if l.op = 3 then n - 1 else n) 0

/-- Channels after the first `i` records: an END passes on what it is given. -/
def netChannels (ls : List NetLayer) : Nat → Nat
  | 0 => 8
  | i + 1 => (ls[i]?).elim 0 (fun l => if l.op = 5 then netChannels ls i else l.cout)

/-- The layers before END. -/
def netBody (ls : List NetLayer) : List NetLayer := ls.takeWhile (fun l => l.op ≠ 5)

/-- The descriptor is valid (R49): every record is checked, END and what follows an END among them (log entry 51). -/
def netValid (h : Nat) (ls : List NetLayer) (hactive : Nat) : Bool :=
  let halo := bits h 8 8
  decide (bits h 24 8 = 1 ∧ 1 ≤ bits h 0 8 ∧ bits h 0 8 ≤ 32 ∧ halo ≤ 16) && decide ((ls.getLast?).map (·.op) = some 5) &&
    ls.all (fun l => decide (l.op ≤ 5 ∧ l.act ≤ 2 ∧ l.fmt ≤ 2)) &&
    ls.zipIdx.all (fun p =>
      decide (p.1.cin = netChannels ls p.2) &&
        (p.1.op ≠ 4 || (decide (p.1.in2 < p.2) && decide (netChannels ls (p.1.in2 + 1) = p.1.cin) &&
          decide (netLevel ls (p.1.in2 + 1) = netLevel ls p.2)))) &&
    decide (hactive * (16 + 2 * halo) *
      ((List.range (ls.length + 1)).foldl (fun n i => max n (netChannels ls i)) 8) * 2 ≤ 4194304)

/-- NET_EN is 1 and the descriptor is valid (R49). -/
def State.netOk (s : State) (f : Presented) (hactive : Nat) : Bool :=
  match s.netRecords f.vf f.dev f.netBase with
  | some (h, ls) => netValid h ls hactive
  | none => false

/-- A value converted to the operand format of a layer (R48). -/
def netOperand (fmt x : Nat) : FVal :=
  let v := FFmt.fp32.val x
  match fmt with
  | 0 => FFmt.e4m3.val (FFmt.e4m3.result .rne false true v.res).1
  | 1 => let i := (toInt .rne (-127) 127 v).1; .num (decide (i < 0)) i.natAbs 0
  | _ => FFmt.crumb8.val (FFmt.crumb8.result .rne false true v.res).1

/-- The value of a weight (R47). -/
def netWeight (fmt x : Nat) : FVal := elemVal (if fmt = 0 then 0 else if fmt = 1 then 3 else 2) x

/-- The value that an operand of a layer stands for, as FP32. -/
def netRound (fmt x : Nat) : Nat := (FFmt.fp32.result .rne false false (netOperand fmt x).res).1

/-- ACT (R47). -/
def netAct (act x : Nat) : Nat :=
  match act with
  | 0 => x
  | 1 => if f32lt x 0 then 0 else x
  | _ => if f32lt x 0 then 0 else if f32lt f32one x then f32one else x

/-- A dot product in blocks of 32 (R333, R334). -/
def netDot : Nat → Nat → List (FVal × FVal) → Nat
  | 0, acc, _ => acc
  | fuel + 1, acc, ps =>
    if ps = [] then acc
    else netDot fuel (matBlock acc ((ps.take 32).map (·.1)) ((ps.take 32).map (·.2)) (some 0)) (ps.drop 32)

/-- Size of the frame at a level of resolution. -/
def atLevel (n : Nat) (level : Int) : Nat :=
  if 0 ≤ level then (n + 2 ^ level.toNat - 1) / 2 ^ level.toNat else n * 2 ^ (-level).toNat

/-- The row of a level lies in the band with its halo (R47). -/
def inHalo (band halo : Nat) (level y : Int) : Bool :=
  let (lo, hi) : Int × Int :=
    if 0 ≤ level then (y * 2 ^ level.toNat, y * 2 ^ level.toNat) else (y / 2 ^ (-level).toNat, y / 2 ^ (-level).toNat)
  decide (16 * (band : Int) - halo ≤ hi ∧ lo ≤ 16 * band + 15 + halo)

/-- The network of a band: its layers, its halo, its input, and the reader of its weights. -/
structure NetCtx where
  layers : List NetLayer
  band : Nat
  halo : Nat
  hactive : Nat
  vactive : Nat
  input : Nat → Nat → Nat → Option Nat
  /-- `n` bytes at an offset from NET_BASE. -/
  param : Nat → Nat → Option Nat

/-- Channel `c` at (x, y) after the first `i` layers, as FP32 (R47, R48): 0 outside the frame; none where the spec fixes no
value. -/
def NetCtx.out (n : NetCtx) : Nat → Nat → Int → Int → Nat → Option Nat
  | 0, _, _, _, _ => none
  | fuel + 1, i, x, y, c =>
    let level := netLevel n.layers i
    if x < 0 ∨ y < 0 ∨ (atLevel n.hactive level : Int) ≤ x ∨ (atLevel n.vactive level : Int) ≤ y then some 0
    else if !inHalo n.band n.halo level y then none
    else if i = 0 then n.input x.toNat y.toNat c
    else
      match n.layers[i - 1]? with
      | none => none
      | some l =>
        let before := n.out fuel (i - 1)
        let operand (x y : Int) (k : Nat) : Option FVal := (before x y k).map (netOperand l.fmt)
        let conv (x0 y0 : Int) (taps : Nat) : Option Nat :=
          let places := (List.range taps).flatMap (fun ky => (List.range taps).flatMap (fun kx => (List.range l.cin).map (fun k => (ky, kx, k))))
          let a := places.map (fun p => operand (x0 + p.2.1) (y0 + p.1) p.2.2)
          let w := (List.range places.length).map (fun j => (n.param (l.woff + c * places.length + j) 1).map (netWeight l.fmt))
          (match allSome a, allSome w, n.param (l.soff + 8 * c) 8 with
           | some a, some w, some sb =>
             some (netAct l.act (f32add (f32mul (netDot places.length 0 (a.zip w)) (bits sb 0 32)) (bits sb 32 32)))
           | _, _, _ => none)
        if l.cout ≤ c then none
        else
          match l.op with
          | 0 => conv x y 1
          | 1 => conv (x - 1) (y - 1) 3
          | 2 => conv (2 * x - 1) (2 * y - 1) 3
          | 3 => if l.cin ≤ c then none else (before (x / 2) (y / 2) c).map (fun v => netAct l.act (netRound l.fmt v))
          | 4 =>
            if l.cin ≤ c then none
            else
              (match before x y c, n.out fuel (l.in2 + 1) x y c with
               | some a, some b => some (f32add (netAct l.act (netRound l.fmt a)) b)
               | _, _ => none)
          | _ => none

/-! ### The images of the steps (R44, R45, R53) -/

/-- F1 before reprojection, in FP32: the history at the place that the motion of the nearest source pixel leads to (R40, R44). -/
def State.f1Image (s : State) (b : BandCtx) (c : Nat) : Image := fun x y =>
  if x < 0 ∨ y < 0 ∨ (b.hactive : Int) ≤ x ∨ (b.vactive : Int) ≤ y then none
  else
    (s.motion b (nearest x.toNat b.frame.srcW b.hactive) (nearest y.toNat b.frame.srcH b.vactive)).bind (fun d =>
      bilinear (fun i j => (s.historyHalf b c i j).map (f32of .fp16))
        (f32add (f32ofInt x) (scaled b d.1)) (f32add (f32ofInt y) (scaled b d.2)))

/-- F2 at a display position in FP32, pixel centres at halves (R44, R53); `posed` when what lies outside the source reads
black. -/
def State.f2At (s : State) (b : BandCtx) (posed : Bool) (c px py : Nat) : Option Nat :=
  let img := s.sourceImage b.frame c
  keysSample (if posed then img.framed b.frame.srcW b.frame.srcH (decide (c < 3)) else img)
    (f32sub (f32div px b.scale) f32half) (f32sub (f32div py b.scale) f32half)

/-- The input of the network (R47). -/
def State.netInput (s : State) (b : BandCtx) (x y c : Nat) : Option Nat :=
  let sx := nearest x b.frame.srcW b.hactive
  let sy := nearest y b.frame.srcH b.vactive
  match c with
  | 0 | 1 | 2 => s.sourceImage b.frame c sx sy
  | 3 => (s.motion b sx sy).map (fun m => scaled b m.1)
  | 4 => (s.motion b sx sy).map (fun m => scaled b m.2)
  | _ => if b.hasF1 then s.f1Image b (c - 5) x y else some 0

/-- The network of a band of a frame. -/
def State.netCtx (s : State) (b : BandCtx) (band : Nat) : Option NetCtx :=
  (s.netRecords b.frame.vf b.frame.dev b.frame.netBase).map (fun r =>
    { layers := netBody r.2, band := band, halo := bits r.1 8 8, hactive := b.hactive, vactive := b.vactive,
      input := s.netInput b, param := fun off k => s.surface b.frame.vf b.frame.dev (b.frame.netBase + off) k })

/-- A colour of F0 before reprojection, as FP16 (R48). -/
def State.f0Half (s : State) (b : BandCtx) (band c : Nat) : Image := fun x y =>
  match s.netCtx b band with
  | none => none
  | some n =>
    if 3 ≤ c ∨ n.layers = [] ∨ netLevel n.layers n.layers.length ≠ 0 then none
    else (n.out (n.layers.length + 1) n.layers.length x y c).map (f32to .fp16)

/-- F3: the history as it stands; black without one (R44). -/
def State.f3Half (s : State) (b : BandCtx) (c : Nat) : Image := fun x y =>
  if b.history.isSome then s.historyHalf b c x y else if c < 3 then some 0 else none

/-- Channel `c` of a pixel of F0, F1 or F2, as FP16 (R44, R53); `h` is the matrix of the reprojection, when a usable pose is
applied. -/
def State.stepHalf (s : State) (b : BandCtx) (h : Option Mat3) (band step x y c : Nat) : Option Nat :=
  let image : Image :=
    match step with
    | 0 => fun i j => (s.f0Half b band c i j).map (f32of .fp16)
    | _ => s.f1Image b c
  let at_ (posed : Bool) (px py : Nat) : Option Nat :=
    if step = 2 then s.f2At b posed c px py
    else bilinear (if posed then image.framed b.hactive b.vactive (decide (c < 3)) else image) (f32sub px f32half) (f32sub py f32half)
  let value : Option Nat :=
    match h with
    | none =>
      if step = 2 then at_ false (f32add (f32ofInt x) f32half) (f32add (f32ofInt y) f32half) else image x y
    | some m =>
      let (hx, hy, hw) := m.project x y
      if f32le hw 0 then (if c < 3 then some 0 else none) else at_ true (f32div hx hw) (f32div hy hw)
  value.map (f32to .fp16)

/-! ### What the steps of a band read (R42) -/

/-- The network surface: its descriptor, and the weights and the pairs of its layers, as starts and lengths (R42, R47). -/
def State.netSurfaces (s : State) (f : Presented) : List (Nat × Nat) :=
  match s.netRecords f.vf f.dev f.netBase with
  | none => [(f.netBase, 16)]
  | some (_, ls) =>
    let taps (l : NetLayer) : Nat := if l.op = 0 then 1 else 9
    (f.netBase, 16 + 16 * ls.length) :: ((netBody ls).filter (fun l => decide (l.op ≤ 2))).flatMap (fun l =>
      [(f.netBase + l.woff, l.cout * taps l * l.cin), (f.netBase + l.soff, 8 * l.cout)])

/-- The surfaces that a frame reads for F0, F1 and F2: function, device, start and length (R42, R50). -/
def State.surfacesOf (s : State) (b : BandCtx) : List (Nat × Nat × Nat × Nat) :=
  let of (f : Presented) (va n : Nat) : Nat × Nat × Nat × Nat := (f.vf, f.dev, va, n)
  (of b.frame b.frame.src (b.frame.pitch * b.frame.srcH) ::
    (if b.frame.mv ≠ 0 && !b.frame.me then [of b.frame b.frame.mv (mvPitch b.frame.srcW * b.frame.srcH)] else [])) ++
    (if b.frame.me then b.previous.toList.map (fun q => of q q.src (q.pitch * q.srcH)) else []) ++
    (if b.hasF1 then b.history.toList.map (fun q => (q.1, q.2.1, q.2.2, histPitch b.hactive * b.vactive)) else []) ++
    (if b.frame.net then (s.netSurfaces b.frame).map (fun r => of b.frame r.1 r.2) else [])

end Sys2Proof.Machine
end

