-- ==== Sys2Proof/Machine/Display.lean ====
section
/-!
DEFINITION. The display engine (02_scanout_swap.md R34–R55, 20 R492): ports, frame records, bands, genlock; and swap groups
(R56–R60).
-/

namespace Sys2Proof.Machine

/-! ### Registers (R35–R37, R55, R56, R492) -/

def dpctl (p : Nat) : Nat := hubSpace + 0x1000 + 0x100 * p
def dptim (p : Nat) : Nat := dpctl p + 0x10
def dpstat (p : Nat) : Nat := dpctl p + 0x20
def dpvcnt (p : Nat) : Nat := dpctl p + 0x24
def glctl : Nat := hubSpace + 0x2000
def sgctl : Nat := hubSpace + 0x2100
def sgmem : Nat := hubSpace + 0x2110
def sgswap : Nat := hubSpace + 0x2120
def portown (p : Nat) : Nat := 0x141000 + 4 * p
def prstat (vf : Nat) : Nat := 0x142000 + 4 * vf

/-- DPTIM of a port as 128 bits, and its fields (R36). -/
def State.timing (s : State) (p : Nat) : Nat := s.pfGet64 (dptim p) + 2 ^ 64 * s.pfGet64 (dptim p + 8)
def State.hactive (s : State) (p : Nat) : Nat := bits (s.timing p) 0 14
def State.htotal (s : State) (p : Nat) : Nat := bits (s.timing p) 14 14
def State.vactive (s : State) (p : Nat) : Nat := bits (s.timing p) 50 13
def State.vtotal (s : State) (p : Nat) : Nat := bits (s.timing p) 63 13

/-- EN of a port. -/
def State.portOn (s : State) (p : Nat) : Bool := decide (p < 4) && s.running && decide (bits (s.pfGet (dpctl p)) 31 1 = 1)

def State.port? (s : State) (p : Nat) : Option Port := s.ports.find? (fun x => x.port = p)
def State.setPort (s : State) (x : Port) : State := { s with ports := s.ports.map (fun y => if y.port = x.port then x else y) }

/-- A field of DPSTAT written. -/
def State.setDpstat (s : State) (p lo w v : Nat) : State := s.pfSet (dpstat p) (putBits (s.pfGet (dpstat p)) lo w v)

/-! ### Where the scan of a port stands (R4, R36, R37) -/

/-- Cycles of a frame by DPTIM. -/
def State.nominalFrame (s : State) (p : Nat) : Nat := s.vtotal p * s.htotal p * 1800000 / max 1 (bits (s.timing p) 104 24)

/-- The cycle at which a line begins, by its number from the last line 0; those of the next frame count on from VTOTAL. -/
def State.lineAt (s : State) (x : Port) (n : Int) : Nat :=
  ((x.line0At : Int) + n * x.frameLen / (max 1 (s.vtotal x.port) : Nat)).toNat

/-- The same for a line of the frame that is built, whose numbers below 0 lie before its line 0 (R43). -/
def State.buildLine (s : State) (x : Port) (n : Int) : Nat := s.lineAt x (if x.latched then s.vtotal x.port + n else n)

/-- LINE (R37): the line that is scanned now. -/
def State.scanLine (s : State) (p : Nat) : Nat :=
  match s.port? p with
  | some x =>
    if s.portOn p then min (s.vtotal p - 1) (((s.cycle - x.line0At + 1) * s.vtotal p - 1) / max 1 x.frameLen) else 0
  | none => 0

/-! ### Swap groups: messages and readiness (R56–R58) -/

def State.sgOn (s : State) : Bool := decide (bits (s.pfGet sgctl) 31 1 = 1)
def State.ringmaster (s : State) : Bool := decide (bits (s.pfGet sgctl) 30 1 = 1)
def State.master (s : State) : Nat := bits (s.pfGet sgctl) 20 6
def State.swapNo (s : State) : Nat := s.pfGet sgswap
/-- Ports that flip under the swap group (R35, R56). -/
def State.swapPorts (s : State) : List Nat :=
  (List.range 4).filter (fun p => decide (bits (s.pfGet sgctl) (26 + p) 1 = 1 ∧ bits (s.pfGet (dpctl p)) 29 1 = 1))
/-- The port flips under the swap group. -/
def State.grouped (s : State) (p : Nat) : Bool := s.sgOn && s.swapPorts.contains p
/-- Devices that SGMEM names. -/
def State.members (s : State) : List Nat :=
  let m := s.pfGet64 sgmem + 2 ^ 64 * s.pfGet64 (sgmem + 8)
  ((List.range 16).filter (fun k => decide (bits m (8 * k + 7) 1 = 1))).map (fun k => bits m (8 * k) 6)

/-- A swap-group message posted (R57); `tail` holds bytes 32 to 63. -/
def State.postSwap (s : State) (kind dst swap tresp : Nat) (tail : List Nat) : State :=
  let v := (s.swapPorts.head?).elim 0 (fun p => s.pfGet (dpvcnt p))
  s.post dst 514 0 0 0 0 kind
    (packBits ([(8, bits (s.pfGet sgctl) 12 8), (32, swap), (32, v), (1, tresp), (55, 0)] ++ tail.map (fun t => (64, t)))) [] none

/-- Ready for the current swap (R58): a record's age is the SGSWAP at its acceptance, so that for swap 0 every record accepted
before the first swap counts, those accepted before EN went to 1 among them (log entry 41). -/
def State.swapReady (s : State) : Bool :=
  s.swapPorts ≠ [] && s.swapPorts.all (fun p => ((s.port? p).bind (·.pending)).any (fun f => f.swap.toNat = s.swapNo))

/-- A member that has become ready sends ARRIVE (R58). -/
def State.noteReady (s : State) : State :=
  if s.sgOn && !s.ringmaster && !s.swap.sent && s.swapReady then
    { s with swap := { s.swap with sent := true } }.postSwap 3 s.master s.swapNo 0 []
  else s

/-- The fabric time base in ns (R4). -/
def State.ns (s : State) : Nat := s.cycle * 5 / 9

/-- A message of a kind addressed to this member of its group (R57, R59). -/
def State.swapMessage (s : State) (kind h : Nat) : Bool :=
  s.running && s.sgOn && decide (bits h 23 4 = kind ∧ bits h 36 6 = s.device ∧ bits h 128 8 = bits (s.pfGet sgctl) 12 8)

/-- The swap whose arrivals the ringmaster records: once it has sent RELEASE(n), the next (R58). -/
def State.gathering (s : State) : Nat := if s.swap.decision = some true then (s.swapNo + 1) % 2 ^ 32 else s.swapNo

/-- ARRIVE (R58): recorded at the ringmaster; one after its line CUTOFF counts for the next evaluation. -/
def execArrive (header : BitVec 512) : State → Host.Outcome State Fault Refusal :=
  event (fun s =>
    let h := header.toNat
    let src := bits h 42 6
    if s.swapMessage 3 h && s.ringmaster && s.members.contains src && decide (bits h 136 32 = s.gathering) then
      some { s with swap := { s.swap with arrived := if s.swap.arrived.contains src then s.swap.arrived else s.swap.arrived ++ [src] } }
    else none)

/-- A decision received now comes after the latch line for which it was made (R59): the latch line of the frame has passed,
or the frame has not reached the line CUTOFF at which a decision for it could be made (log entry 41). -/
def State.pastLatch (s : State) : Bool :=
  (s.swapPorts.head?).any (fun p =>
    decide (s.vtotal p ≤ s.scanLine p + 64 ∨ s.scanLine p < min (((s.port? p).map (·.cutoff)).getD 0) (s.vtotal p - 65)))

/-- RELEASE (R59): at the next latch line every port of the group takes its pending record. -/
def execRelease (header : BitVec 512) : State → Host.Outcome State Fault Refusal :=
  event (fun s =>
    let h := header.toNat
    if s.swapMessage 4 h && !s.ringmaster && decide (bits h 42 6 = s.master) && decide (bits h 136 32 = s.swapNo) then
      let s1 : State := { s with swap := { s.swap with decision := some true } }
      some (if s.pastLatch then s1.swapPorts.foldl (fun s p => s.setDpstat p 2 1 1) s1 else s1)
    else none)

/-- REPEAT (R59): the ports repeat. -/
def execRepeatDecision (header : BitVec 512) : State → Host.Outcome State Fault Refusal :=
  event (fun s =>
    let h := header.toNat
    if s.swapMessage 5 h && !s.ringmaster && decide (bits h 42 6 = s.master) && decide (bits h 136 32 = s.swapNo) then
      some { s with swap := { s.swap with decision := some (s.swap.decision.getD false) } }
    else none)

/-- TIME (R60): the ringmaster answers a request; a response gives the correction toward ringmaster time. -/
def execTime (header : BitVec 512) : State → Host.Outcome State Fault Refusal :=
  event (fun s =>
    let h := header.toNat
    let src := bits h 42 6
    let ta := bits h 256 64
    if !s.swapMessage 6 h then none
    else if bits h 200 1 = 0 then
      given (s.ringmaster && s.members.contains src)
        (s.postSwap 6 src (bits h 136 32) 1
          [ta, s.ns, s.ns, ((s.swapPorts.head?).bind s.port?).elim 0 (fun p => p.line0At * 5 / 9)])
    else if !s.ringmaster && decide (src = s.master) then
      let θ : Int := (((bits h 320 64 : Int) - ta) + ((bits h 384 64 : Int) - s.ns)) / 2
      some { s with swap := { s.swap with skew := θ, tf := some (bits h 448 64) } }
    else none)

/-- The line at which a port's CUTOFF is used (R41). -/
def State.cutoffOf (s : State) (x : Port) : Nat := min x.cutoff (s.vtotal x.port - 65)

/-- CUTOFF_LINE (R58): the lowest port of the ringmaster's group begins line CUTOFF, once a frame. -/
def execCutoffLine : State → Host.Outcome State Fault Refusal :=
  event (fun s =>
    match (s.swapPorts.head?).bind s.port? with
    | none => none
    | some x =>
      if !s.sgOn || !s.ringmaster || !s.portOn x.port || x.latched || s.swap.decision.isSome then none
      else
        let others := s.members.filter (· ≠ s.device)
        let all := s.swapReady && others.all s.swap.arrived.contains
        let s1 := others.foldl (fun s d => s.postSwap (if all then 4 else 5) d s.swapNo 0 []) (s.by_ (s.lineAt x (s.cutoffOf x)))
        some { s1 with swap := { s1.swap with decision := some all, arrived := if all then [] else s1.swap.arrived } })

/-! ### Enabling a port (R35, R37) -/

/-- Data rate in kb/s of a lane at a RATE code: the DisplayPort rate that it names (PRESUMED, log entry 17) by the coding of
R34. -/
def laneRate (rate : Nat) : Nat :=
  match rate with
  | 0 => 1620000 * 8 / 10
  | 1 => 2700000 * 8 / 10
  | 2 => 5400000 * 8 / 10
  | 3 => 8100000 * 8 / 10
  | 4 => 10000000 * 128 / 132
  | 5 => 13500000 * 128 / 132
  | _ => 20000000 * 128 / 132

/-- Bits of a pixel by PIXFMT code (R35). -/
def pixelBits (fmt : Nat) : Nat := [24, 30, 36, 30, 36, 20, 24].getD fmt 0

/-- The pixel rate in kHz exceeds the link capacity (R37): without DSC by the lane rates; with it by a capacity that the spec
does not state. -/
def linkExceeded (v khz : Nat) : Bool :=
  if bits v 23 1 = 1 then decide (Config.linkCapacity (bits v 26 3) (bits v 24 2) (bits v 20 3) < khz)
  else decide (laneRate (bits v 26 3) * 2 ^ bits v 24 2 < khz * pixelBits (bits v 20 3))

/-- A configuration that the port cannot carry (R37); `v` is the new DPCTL. -/
def State.cannotCarry (s : State) (p v : Nat) : Bool :=
  let t := s.timing p
  decide (s.vactive p % 16 ≠ 0) ||
    decide (bits t 76 13 < s.vactive p ∨ s.vtotal p ≤ bits t 76 13) || decide (bits t 28 14 < s.hactive p ∨ s.htotal p ≤ bits t 28 14) ||
    decide (bits v 26 3 = 7 ∨ bits v 24 2 = 3 ∨ bits v 20 3 = 7) ||
    linkExceeded v (bits t 104 24)

/-- DPCTL written (R35, R37): while EN is 1 only EN and CUTOFF change. A port that is enabled begins a line 0 at once, which
DPVCNT does not count, for it counts those since (log entry 52). -/
def State.writeDpctl (s : State) (p v : Nat) : State :=
  let old := s.pfGet (dpctl p)
  let new := putBits v 13 7 0
  if bits old 31 1 = 1 then
    if bits v 31 1 = 1 then s.pfSet (dpctl p) (putBits old 0 13 v)
    else ((s.pfSet (dpctl p) (putBits (putBits old 0 13 v) 31 1 0)).setDpstat p 0 2 0).setPort (Port.reset p)
  else if bits v 31 1 = 0 then s.pfSet (dpctl p) new
  else if s.cannotCarry p v then (s.pfSet (dpctl p) (putBits new 31 1 0)).setDpstat p 16 4 5
  else
    let s1 := ((s.pfSet (dpctl p) new).pfSet (dpvcnt p) 0).setDpstat p 0 2 0
    s1.setPort { Port.reset p with cutoff := bits v 0 13, line0At := s.cycle, frameLen := s.nominalFrame p }

/-- DPCTL_WRITE (R35, R37). -/
def execDpctlWrite (port v : Nat) : State → Host.Outcome State Fault Refusal :=
  hostWrite (fun s => given (decide (port < 4 ∧ v < 2 ^ 32)) (s.writeDpctl port v))

/-- DP_LINK_TRAINED (R37). -/
def execDpLinkTrained (port : Nat) : State → Host.Outcome State Fault Refusal :=
  event (fun s => given (s.portOn port) (s.setDpstat port 0 1 1))

/-- DP_LINK_LOST (R37). -/
def execDpLinkLost (port : Nat) : State → Host.Outcome State Fault Refusal :=
  event (fun s => given (decide (port < 4)) (s.setDpstat port 0 1 0))

/-- The reference is one that the input accepts for a port (R55): of the kind that GLCTL selects, from 23.976 Hz to 120 Hz, and
within 100 ppm of the rate that DPTIM implies. -/
def State.referenceOk (s : State) (p tri len : Nat) : Bool :=
  let n := s.nominalFrame p
  decide (bits (s.pfGet glctl) 30 1 = tri ∧ 15000000 ≤ len ∧ len * 23976 ≤ 1800000000000 ∧ (len - n) * 10000 ≤ n ∧ (n - len) * 10000 ≤ n)

/-- GENLOCK_LOCKED (R55): a port with GENLOCK 1 locks, while the input is enabled, to a reference. -/
def execGenlockLocked (r : GenlockEdge) : State → Host.Outcome State Fault Refusal :=
  event (fun s =>
    let ⟨port, tri, edge, len⟩ := r
    match s.port? port with
    | none => none
    | some x =>
      given (s.portOn port && decide (bits (s.pfGet (dpctl port)) 30 1 = 1 ∧ bits (s.pfGet glctl) 31 1 = 1) && s.referenceOk port tri len)
        ((s.setDpstat port 1 1 1).setPort { x with edge := some (edge, len) }))

/-- GENLOCK_LOST (R55): the port goes on at its last frequency. -/
def execGenlockLost (port : Nat) : State → Host.Outcome State Fault Refusal :=
  event (fun s => given (decide (port < 4)) (s.setDpstat port 1 1 0))

/-- GLCTL written (R55): with the input disabled no port is locked. -/
def State.writeGlctl (s : State) (v : Nat) : State :=
  let s1 := s.pfSet glctl (bits v 0 16 + bits v 30 2 * 2 ^ 30)
  if bits v 31 1 = 1 then s1 else (List.range 4).foldl (fun s p => s.setDpstat p 1 1 0) s1

/-- The time of a train of instants that lies nearest to one. -/
def nearestOn (origin period near : Int) : Int := origin + period * ((near - origin + period / 2) / period)

/-- Cycles of the frame that begins at line 0 (R36, R55, R60): a locked port's next line 0 begins PHASE pixels after a frame
edge; one that has lost its reference keeps its frequency; a member of a swap group slews by at most 200 ppm toward
T_F and whole frame periods in ringmaster time. -/
def State.nextFrame (s : State) (x : Port) (at_ : Nat) : Nat :=
  let n := s.nominalFrame x.port
  let genlock := decide (bits (s.pfGet (dpctl x.port)) 30 1 = 1)
  match (if genlock then x.edge else none) with
  | some (e, len) =>
    if bits (s.pfGet (dpstat x.port)) 1 1 = 1 then
      let phase : Int := (BitVec.ofNat 16 (s.pfGet glctl)).toInt * len / (max 1 (s.vtotal x.port * s.htotal x.port) : Nat)
      (nearestOn (e + phase) len (at_ + len) - at_).toNat
    else len
  | none =>
    match (if s.grouped x.port && !s.ringmaster && !genlock then s.swap.tf else none) with
    | some tf =>
      let off := nearestOn (((tf : Int) - s.swap.skew) * 9 / 5) n (at_ + n) - (at_ + n)
      let most : Int := n / 5000
      ((n : Int) + min most (max (-most) off)).toNat
    | none => n

/-! ### Frame records (R39, R49, R492) -/

/-- A rejection, or a refused network, recorded in PRSTAT of the function (R492); `port` when the record was read. -/
def State.notePresent (s : State) (vf code : Nat) (port : Option Nat) : State :=
  let n := bits (s.pfGet (prstat vf)) 0 16
  s.pfSet (prstat vf) (packBits [(16, min 65535 (n + 1)), (4, 0), (2, port.getD 0), (1, 0), (1, if port.isSome then 1 else 0), (4, code),
    (3, 0), (1, 1)])

/-- A present is done: fences of its group go on (R286). -/
def State.presentDone (s : State) (p : PresentReq) : State :=
  let done (g : Group) : Group :=
    if g.team = p.source.2.1 ∧ g.num = p.source.2.2 then { g with presents := g.presents - 1 }.endFence else g
  { s with groups := s.groups.map done, teams := s.teams.map (fun t => { t with savedGroups := t.savedGroups.map done }) }

/-- s is one of 1, 1.5, 2 and 3, and VACTIVE is s times the source height (R39). -/
def scaleOk (hactive vactive srcW srcH : Nat) : Bool :=
  (decide (hactive = srcW) || decide (2 * hactive = 3 * srcW) || decide (hactive = 2 * srcW) || decide (hactive = 3 * srcW)) &&
    decide (vactive * srcW = hactive * srcH)

/-- The rejection of a record that was read and whose port the function owns (R39). -/
def State.frameReject (s : State) (f : Presented) (p : Nat) : Option Nat :=
  if 2 ≤ f.fmt then some 1
  else if !scaleOk (s.hactive p) (s.vactive p) f.srcW f.srcH then some 2
  else if !s.portOn p then some 3
  else none

/-- A record read whole (R39, R49, R492). -/
def State.takeFrame (s : State) (q : PresentReq) (r : Nat) : State :=
  let net := decide (bits r 34 1 = 1)
  let f : Presented := { vf := q.vf, dev := q.dev, rec_ := BitVec.ofNat 512 r, net := false, swap := BitVec.ofNat 32 s.swapNo }
  let p := bits r 32 2
  let own := s.pfGet (portown p)
  if bits own 31 1 = 0 ∨ bits own 0 9 ≠ q.vf then s.notePresent q.vf 4 (some p)
  else
    match s.frameReject f p with
    | some c => (s.notePresent q.vf c (some p)).setDpstat p 16 4 c
    | none =>
      let ok := net && s.netOk f (s.hactive p)
      let s1 := if net && !ok then (s.notePresent q.vf 6 (some p)).setDpstat p 16 4 6 else s
      match s1.port? p with
      | some x => (s1.setPort { x with pending := some { f with net := ok } }).noteReady
      | none => s1

/-- FRAME_RECORD_READ (R39, R492): the oldest present is read and validated; presents of all groups are read in the order in
which they were handed over (log entry 52). A read whose page is in migration, or whose line is held, waits (R256, R273). -/
def execFrameRecordRead : State → Host.Outcome State Fault Refusal :=
  event (fun s =>
    match s.presents with
    | [] => none
    | q :: rest =>
      if s.running = false then none
      else
        let s0 : State := { s with presents := rest }
        if q.va % 64 ≠ 0 then some ((s0.notePresent q.vf 4 none).presentDone q)
        else
          match s.hubRead q.vf q.dev q.va 64 with
          | .ok r ls => some (((s0.readBy ls).takeFrame q r).presentDone q)
          | .later ls => some (s.noteHeld ls)
          | .park (.move _) => none
          | _ => some ((s0.notePresent q.vf 4 none).presentDone q))

/-! ### Lines (R37, R41, R59) -/

/-- A pose record that is usable (R51, R52): the norm of its quaternion is not zero. -/
def poseUsable (r : Nat) : Bool :=
  decide (bits r 448 1 = 1 ∧ bits r 480 32 = bits r 352 32) && decide (f32abs (quatNorm (poseQuat r)) ≠ 0)

/-- A pose record read whole (R52): none in the record's place when it is unusable or cannot be read; on the left while its
line is held (R273). -/
def State.readPose (s : State) (f : Presented) (va : Nat) : State ⊕ (Option (BitVec 512) × State) :=
  match s.displayRead f.vf f.dev va 64 with
  | .ok r ls => .inr (if poseUsable r then some (BitVec.ofNat 512 r) else none, s.readBy ls)
  | .later ls => .inl (s.noteHeld ls)
  | _ => .inr (none, s)

/-- The stores of a port made in order, as far as their bytes are free (R273, R280); those that cannot be translated are not
made (R232, R241). -/
def State.displayStores : Nat → State → List DisplayWrite → State × List DisplayWrite
  | 0, s, ws => (s, ws)
  | _, s, [] => (s, [])
  | n + 1, s, w :: ws =>
    match s.engineRange none none w.vf w.dev true (rangeFuel w.data.length) w.va w.data.length with
    | .ok ps =>
      if s.heldOff (pieceLines ps) true then (s.noteHeld (pieceLines ps), w :: ws)
      else if ps.any (fun p => s.locked .mem p.1 p.2.1 true) then (s, w :: ws)
      else ((s.writePieces ps w.data).wrote none (pieceLines ps)).displayStores n ws
    | .park (.move _) _ => (s, w :: ws)
    | _ => s.displayStores n ws

/-- The waiting stores of a port, tried. -/
def State.drainPort (s : State) (p : Nat) : State :=
  match s.port? p with
  | none => s
  | some x => let (s1, ws) := s.displayStores x.writes.length x.writes; s1.setPort { x with writes := ws }

/-- LINE_0_START (R35, R37, R41, R60): the frame that was built at the latch line is shown. -/
def execLine0Start (port : Nat) : State → Host.Outcome State Fault Refusal :=
  event (fun s =>
    match s.port? port with
    | none => none
    | some x =>
      if !s.portOn port || !x.latched then none
      else
        let at_ := max s.cycle (x.line0At + x.frameLen)
        let s1 := (s.by_ at_).pfSet (dpvcnt port) ((s.pfGet (dpvcnt port) + 1) % 2 ^ 32)
        let s2 := s1.setPort { x with shown := x.building, cutoff := bits (s.pfGet (dpctl port)) 0 13, line0At := at_,
                                      frameLen := s.nextFrame x at_, latched := false }
        some ((if s.sgOn && !s.ringmaster && decide (s.swapPorts.head? = some port) &&
                  decide (bits (s.pfGet (dpctl port)) 30 1 = 0) then
                 s2.postSwap 6 s.master s.swapNo 0 [s2.ns]
               else s2).drainPort port))

/-- What is left of the frame being built when the next one is latched: bands whose deadlines are still to come (R43). -/
def Port.rest (x : Port) : Option Finishing :=
  match x.building, x.bands with
  | some f, _ :: _ => some { frame := f, repeats := x.repeats, previous := x.previous, rpose := x.rpose, bands := x.bands, map := x.map }
  | _, _ => none

/-- A port takes its pending record as the frame it builds next, or repeats its frame (R41, R45, R52); on the left while the
render pose is held. -/
def State.latchPort (s : State) (x : Port) (take : Bool) : State ⊕ State :=
  let s := s.by_ (s.lineAt x ((s.vtotal x.port : Int) - 64))
  let start (f : Option Presented) (rep : Bool) (prev pend : Option Presented) (s : State) (pose : Option (BitVec 512)) : State :=
    s.setPort { x with pending := pend, building := f, repeats := rep, previous := prev, rpose := pose, pose := none, bands := [],
                       map := [], latched := true, finishing := x.rest }
  match (if take then x.pending else none) with
  | some f => (s.readPose f f.rposeVa).map id (fun r => start (some f) false x.shown none r.2 r.1)
  | none =>
    match x.shown with
    | some f => (s.readPose f f.rposeVa).map id (fun r => start (some f) true x.previous x.pending r.2 r.1)
    | none => .inr (start none true none x.pending s none)

/-- The decision on which a port of the group acts at its latch line, and the group after it (R59): the first port of the
group that reaches the latch line takes the decision received, and the others follow it. -/
def State.groupLatch (s : State) (p : Nat) : Bool × State :=
  if s.swap.due.contains p then (s.swap.acting, { s with swap := { s.swap with due := s.swap.due.erase p } })
  else
    let release := decide (s.swap.decision = some true)
    let s1 : State := { s with swap := { s.swap with decision := none, acting := release, sent := s.swap.sent && !release,
                                                     due := (s.swapPorts.filter s.portOn).erase p } }
    (release, if release then s1.pfSet sgswap ((s.swapNo + 1) % 2 ^ 32) else s1)

/-- LATCH_LINE (R41, R59): a port takes its pending record, or, in the swap group, does so when the decision is to release. -/
def execLatchLine (port : Nat) : State → Host.Outcome State Fault Refusal :=
  event (fun s =>
    match s.port? port with
    | none => none
    | some x =>
      if !s.portOn port || x.latched then none
      else
        let (take, s1) := if s.grouped port then s.groupLatch port else (true, s)
        match s1.latchPort x take with
        | .inl s' => some { s' with swap := s.swap, pf := s.pf }
        | .inr s' => some ((if s.grouped port then s'.noteReady else s').drainPort port))

/-! ### Bands (R43–R45, R52, R54) -/

/-- Bands of a frame. -/
def State.bandCount (s : State) (p : Nat) : Nat := s.vactive p / 16

/-- What a band of a frame is computed from (R45). -/
def State.bandCtx (s : State) (p : Nat) (x : Finishing) : BandCtx :=
  { frame := x.frame
    history :=
      if x.repeats then some (x.frame.vf, x.frame.dev, x.frame.hist)
      else x.previous.bind (fun q => if q.hist ≠ x.frame.hist then some (q.vf, q.dev, q.hist) else none)
    previous := x.previous, hactive := s.hactive p, vactive := s.vactive p }

/-- The frame that a port builds. -/
def Port.current (x : Port) (f : Presented) : Finishing :=
  { frame := f, repeats := x.repeats, previous := x.previous, rpose := x.rpose, bands := x.bands, map := x.map }

/-- Lines of the bytes of a surface. -/
def State.surfaceLines (s : State) (r : Nat × Nat × Nat × Nat) : List Nat :=
  match s.engineRange none none r.1 r.2.1 false (rangeFuel r.2.2.2) r.2.2.1 r.2.2.2 with
  | .ok ps => pieceLines ps
  | _ => []

/-- The part of the previous history surface that holds a band. -/
def BandCtx.f3Range (b : BandCtx) (band : Nat) : List (Nat × Nat × Nat × Nat) :=
  b.history.toList.map (fun q => (q.1, q.2.1, q.2.2 + 16 * band * histPitch b.hactive, 16 * histPitch b.hactive))

/-- Step F3 of a band fetched into the hold buffer (R44), under the reserved rate (R45). -/
def State.fetchF3 (s : State) (b : BandCtx) (band : Nat) : List (Option Nat) × State :=
  let ls := (b.f3Range band).flatMap s.surfaceLines
  ((List.range 16).flatMap (fun y => (List.range b.hactive).flatMap (fun x => (List.range 4).map (fun c =>
      s.f3Half b c (Int.ofNat x) (Int.ofNat (16 * band + y))))),
   (s.readBy ls).postLines 512 true hubPlace false ls)

/-- BAND_WINDOW_OPEN (R43, R44, R52): windows open in order; the pose is read, and F3 fetched. -/
def execBandWindowOpen (port band : Nat) : State → Host.Outcome State Fault Refusal :=
  event (fun s =>
    match s.port? port with
    | none => none
    | some x =>
      match x.building with
      | none => none
      | some f =>
        if !s.portOn port || decide (band ≠ x.map.length + x.bands.length) || decide (s.bandCount port ≤ band) ||
            decide (2 ≤ x.bands.length) then none
        else
          match (s.by_ (s.buildLine x (16 * ((band : Int) - 4)))).readPose f f.poseVa with
          | .inl s' => some s'
          | .inr (read, s1) =>
            let pose := read.orElse (fun _ => x.pose)
            let (f3, s2) := s1.fetchF3 (s1.bandCtx port (x.current f)) band
            let w : Band := { band := band, pose := if x.rpose.isSome then pose else none, hold := f3 }
            some ((s2.setPort { x with pose := pose, bands := x.bands ++ [w] }).drainPort port))

/-- Steps whose band could be complete at the deadline (R44): F3 alone while a byte that the others read is locked or held. -/
def stepsOf (b : BandCtx) (free : Bool) : List Nat :=
  (if free then (if b.frame.net then [0] else []) ++ (if b.hasF1 then [1] else []) ++ [2] else []) ++ [3]

/-- The step shown: which of the available ones are complete the model leaves free (R43, R44; log entry 9). -/
def stepShown (b : BandCtx) (free : Bool) (pick : Nat) : Nat :=
  (stepsOf b free).getD (pick % (stepsOf b free).length) 3

/-- A channel of a pixel of a band, as FP16: a free value where the spec fixes none. -/
def State.bandHalf (s : State) (b : BandCtx) (h : Option Mat3) (w : Band) (step x y c : Nat) : Nat :=
  let v := if step = 3 then w.hold.getD (4 * (y % 16 * b.hactive + x) + c) none else s.stepHalf b h w.band step x y c
  v.getD (bits (Config.freeWord (s.draw + 4 * (y * b.hactive + x) + c)).toNat 0 16)

/-- Bytes of a line of a band. -/
def State.lineOut (s : State) (b : BandCtx) (h : Option Mat3) (w : Band) (step y : Nat) : List Byte :=
  (List.range b.hactive).flatMap (fun x => (List.range 4).flatMap (fun c => toLe 2 (s.bandHalf b h w step x y c)))

/-- No byte of a surface is locked against reads, held, or in migration. -/
def State.surfaceFree (s : State) (r : Nat × Nat × Nat × Nat) : Bool :=
  match s.engineRange none none r.1 r.2.1 false (rangeFuel r.2.2.2) r.2.2.1 r.2.2.2 with
  | .ok ps => !s.heldOff (pieceLines ps) false && !ps.any (fun p => s.locked .mem p.1 p.2.1 false)
  | .park (.move _) _ => false
  | _ => true

/-- The reads of the other steps as events of the order, charged to the display engine (R42, R45, R266). -/
def State.displayReads (s : State) (b : BandCtx) : State :=
  let ls := (s.surfacesOf b).flatMap s.surfaceLines
  (s.readBy ls).postLines 512 false hubPlace false ls

/-- The header of a fallback map (R54). -/
def State.mapHeader (s : State) (f : Presented) (map : List Byte) : List Byte :=
  let count (k : Nat) : Nat := (map.filter (fun b => decide (bits b.toNat 0 2 = k))).length
  toLe 16 (packBits [(32, f.seq), (32, s.swapNo), (16, map.length), (16, count 0), (16, count 1), (16, count 2)])

/-- A band of a frame fixed: its byte goes to the map, and its pixels to the history surface unless the frame repeats (R43,
R44, R53, R54). The stores that it makes, and the frame after it. -/
def State.fixBand (s : State) (p : Nat) (x : Finishing) (w : Band) (rest : List Band) : List DisplayWrite × Finishing × State :=
  let b := s.bandCtx p x
  let f := x.frame
  let free := (s.surfacesOf b).all s.surfaceFree
  let step := stepShown b free (Config.choice s.draw)
  let h := match (if f.reproj then x.rpose else none), w.pose with
    | some r, some q => some (reprojection r.toNat q.toNat)
    | _, _ => none
  let mapByte : Byte := BitVec.ofNat 8 (step + (if h.isNone then 4 else 0) + (if f.net ∧ step ≠ 0 then 8 else 0))
  let store (va : Nat) (bs : List Byte) : DisplayWrite := { vf := f.vf, dev := f.dev, va := va, data := bs }
  let pixels := if x.repeats then [] else (List.range 16).map (fun i =>
    store (f.hist + (16 * w.band + i) * histPitch b.hactive) (s.lineOut b h w step (16 * w.band + i)))
  let map := x.map ++ [mapByte]
  let header := if map.length = s.bandCount p then [store f.fmap (s.mapHeader f map)] else []
  let s1 := if free then s.displayReads b else s
  (pixels ++ [store (f.fmap + 16 + w.band) [mapByte]] ++ header, { x with bands := rest, map := map },
   { s1 with draw := s1.draw + 4 * b.hactive * b.vactive + 1 })

/-- BAND_DEADLINE (R43, R44, R54): the oldest open window closes, of a frame that the latch has left behind first. -/
def execBandDeadline (port band : Nat) : State → Host.Outcome State Fault Refusal :=
  event (fun s =>
    match s.port? port with
    | none => none
    | some x =>
      if !s.portOn port then none
      else
        match x.finishing with
        | some c =>
          (match c.bands with
           | w :: rest =>
             if w.band ≠ band then none
             else
               let s := s.by_ (s.lineAt x ((if x.latched then (0 : Int) else -(s.vtotal port : Int)) + 16 * ((band : Int) - 2)))
               let (ws, c, s1) := s.fixBand port c w rest
               some ((s1.setPort { x with finishing := if rest = [] then none else some c, writes := x.writes ++ ws }).drainPort port)
           | [] => none)
        | none =>
          match x.building, x.bands with
          | some f, w :: rest =>
            if w.band ≠ band then none
            else
              let s := s.by_ (s.buildLine x (16 * ((band : Int) - 2)))
              let (ws, c, s1) := s.fixBand port (x.current f) w rest
              some ((s1.setPort { x with bands := c.bands, map := c.map, writes := x.writes ++ ws }).drainPort port)
          | _, _ => none)

end Sys2Proof.Machine
end

