-- ==== Sys2Proof/Machine/Management.lean ====
section
/-!
DEFINITION. Start-up, thermal protection, resets and power (01 R31–R33, 03 R83, R84), the mailbox (R85), boot and
attestation (R86–R89), the security alarm (R90) and the lifetime record (R91).
-/

namespace Sys2Proof.Machine

def State.modMgmt (s : State) (f : Mgmt → Mgmt) : State := { s with mgmt := f s.mgmt }

/-- A field of DEVSTAT written (R83). -/
def State.setDevstat (s : State) (lo w v : Nat) : State := s.pfSet devstat (putBits (s.pfGet devstat) lo w v)

/-- Free words drawn: an answer of firmware, of a sensor or of a signature (log entry 8). -/
def State.freeWords (s : State) (n : Nat) : List Word × State :=
  ((List.range n).map (fun i => Config.freeWord (s.draw + i)), { s with draw := s.draw + n })

/-! ### The lifetime record (R91) -/

/-- Counts of a list by number. -/
def countsOf (m : List (Nat × Nat)) (n w : Nat) : List (Nat × Nat) :=
  (List.range n).map (fun i => (w, ((m.find? (fun p => p.1 = i)).map (·.2)).getD 0))

/-- A histogram with one more in each bin of a list, saturating. -/
def addBins (h ks : List Nat) : List Nat :=
  h.zipIdx.map (fun p => min (2 ^ 32 - 1) (p.1 + (ks.filter (fun k => k % h.length = p.2)).length))

/-- An hour of operation (R91): its 60 minutes fall into bins of temperature and supply, and the hour into a bin of rollbacks,
that Config.choice takes, for the model measures none of them (log entry 42). -/
def State.addHour (s : State) : State :=
  let bins (from_ n : Nat) : List Nat := (List.range n).map (fun i => Config.choice (s.draw + from_ + i))
  { s with draw := s.draw + 121 }.modLife (fun l =>
    { l with hours := min (2 ^ 32 - 1) (l.hours + 1), tempHist := addBins l.tempHist (bins 0 60),
             voltHist := addBins l.voltHist (bins 60 60), rollHist := addBins l.rollHist (bins 120 1) })

/-- Words 0 to 111 of the record (R91). -/
def State.lifetimeBody (s : State) : List Word :=
  let l := s.mgmt.life
  let words (h : List Nat) : List (Nat × Nat) := h.map (fun n => (32, n))
  wordsOf 112 (packBits
    ([(32, 1), (32, l.recordNo), (64, l.serial), (32, l.hours), (32, l.boots), (32, l.alarms), (32, l.thermTrips)] ++
      words l.tempHist ++ words l.voltHist ++ countsOf l.corr 32 32 ++ countsOf l.uncorr 32 16 ++ countsOf l.retrains 16 16 ++
      words l.rollHist ++ [(512, 0)]))

/-- The 128 words of the record, signed with the identity key (R91). -/
def State.lifetimeWords (s : State) : List Word :=
  s.lifetimeBody ++ wordsOf 16 (Config.sign s.mgmt.identity (Config.sha512 s.lifetimeBody))

/-- Cytos rewrites the record (R91). -/
def State.rewriteRecord (s : State) : State :=
  let s := s.modLife (fun l => { l with recordNo := min (2 ^ 32 - 1) (l.recordNo + 1) })
  s.modMgmt (fun m => { m with record := s.lifetimeWords })

/-- Cytos runs: it starts from ROM when the supply comes on (R86), and serves and raises alarms once stage 1 is over (log entry
42). -/
def State.cytosRuns (s : State) : Bool := s.mgmt.powered && (decide (1 ≤ s.mgmt.stage) || s.recovery)

/-- LIFETIME_RECORD_REWRITE (R91): a whole power-on hour has passed. -/
def execLifetimeRecordRewrite : State → Host.Outcome State Fault Refusal :=
  event (fun s => given s.cytosRuns s.addHour.rewriteRecord)

/-! ### Resets and power (R31, R33, R84) -/

/-- Host memory, which is the host's (R84). -/
def State.hostCells (s : State) : List Cell := s.mem.filter (fun c => decide (regionOf c.1 = some .host))

/-- The package at reset, but for what a reset of the link does not reach: the management state, host memory, the place of the
device in its system, events still to come, the cycle count with its epochs, and the model's own counters. -/
def State.wiped (s : State) : State :=
  { State.reset with cycle := s.cycle, epoch := s.cycle / 256, agenda := s.agenda, turns := s.turns, draw := s.draw, nextId := s.nextId,
                     mem := s.hostCells, cxl := s.cxl, device := s.device, mgmt := s.mgmt }

/-- What a supply that has gone leaves: flash, the lifetime record and the replay-protected counters (R86, R87, R91). -/
def State.unpowered (s : State) : State :=
  { State.reset with agenda := s.agenda, turns := s.turns, draw := s.draw, mem := s.hostCells, cxl := s.cxl, device := s.device
                     mgmt := { Mgmt.reset with powered := false, counters := s.mgmt.counters, flash := s.mgmt.flash, life := s.mgmt.life,
                                               record := s.mgmt.record } }

/-- POWER_ON (R31). -/
def execPowerOn : State → Host.Outcome State Fault Refusal :=
  event (fun s => given (!s.mgmt.powered) { s.unpowered with mgmt := { s.unpowered.mgmt with powered := true } })

/-- POWER_OFF (R84). -/
def execPowerOff : State → Host.Outcome State Fault Refusal := event (fun s => given s.mgmt.powered s.unpowered)

/-- THERMAL_TRIP (R33, R91): power leaves the dies. -/
def execThermalTrip : State → Host.Outcome State Fault Refusal :=
  event (fun s =>
    given s.mgmt.powered
      ((s.modLife (fun l => { l with thermTrips := min (2 ^ 32 - 1) (l.thermTrips + 1) })).rewriteRecord).unpowered)

/-- THERMAL_THROTTLE (R33): timing only. -/
def execThermalThrottle (die : Nat) : State → Host.Outcome State Fault Refusal :=
  event (fun s => given (s.mgmt.powered && decide (die < 4) && !s.mgmt.throttled.contains die)
    (s.modMgmt (fun m => { m with throttled := m.throttled ++ [die] })))

/-- THERMAL_THROTTLE_END (R33). -/
def execThermalThrottleEnd (die : Nat) : State → Host.Outcome State Fault Refusal :=
  event (fun s => given (s.mgmt.throttled.contains die) (s.modMgmt (fun m => { m with throttled := m.throttled.filter (· ≠ die) })))

/-- INTERNAL_UNCORRECTABLE_ERROR (R83). -/
def execInternalUncorrectableError : State → Host.Outcome State Fault Refusal :=
  event (fun s => given (s.mgmt.powered && !s.fatal) (s.stopPackage 3))

/-- Stages 2 to 5 are repeated (R84): every queue is DISABLED; while Cytos is ALARMED the package stays stopped (R80, R84). -/
def State.restarted (s : State) : State :=
  let s1 := { s.wiped with mgmt := { s.mgmt with stage := 1, throttled := [] } }
  if s.mgmt.alarmed then
    ({ s1 with stopped := List.range 512 }.setDevstat 30 1 1).setDevstat 26 4 2
  else if s.fatal then s1.signal 512 0
  else s1

/-- PF_FUNCTION_LEVEL_RESET (R84). -/
def execPfFunctionLevelReset : State → Host.Outcome State Fault Refusal :=
  event (fun s => given (s.mgmt.powered && decide (1 ≤ s.mgmt.stage)) s.restarted)

/-- HOT_RESET (R84). -/
def execHotReset : State → Host.Outcome State Fault Refusal :=
  event (fun s => given (s.mgmt.powered && decide (1 ≤ s.mgmt.stage)) s.restarted)

/-! ### Boot and start-up (R31, R86–R88) -/

/-- What flash holds at a place. -/
def Mgmt.inFlash (m : Mgmt) (place : Nat) : List Word := ((m.flash.find? (fun p => p.1 = place)).map (·.2)).getD []

/-- The digest and the signature of an item are good (R86). -/
def signedOk (ws : List Word) : Bool :=
  decide (Config.sha512 ws = Config.imageField 2 ws) && Config.verifies Config.rootKey (Config.imageField 2 ws) (Config.imageField 3 ws)

/-- An item of a kind passes (R86). -/
def Mgmt.passes (m : Mgmt) (kind : Nat) (ws : List Word) : Bool :=
  signedOk ws && decide (m.counters.getD kind 0 ≤ Config.imageField 1 ws)

/-- The slot from which an item of a kind boots: A, or B when A fails (R86). -/
def Mgmt.bootSlot (m : Mgmt) (kind : Nat) : Option Nat :=
  if m.passes kind (m.inFlash (2 * kind)) then some 0
  else if kind < 4 ∧ m.passes kind (m.inFlash (2 * kind + 1)) then some 1
  else none

/-- Counters advance to the SVNs of the running images (R87). -/
def Mgmt.commit (m : Mgmt) : Mgmt := { m with counters := List.zipWith max m.counters m.svn }

/-- Stage 1 (R31, R86, R88): every item of the chain passes in one of its slots, the configuration is taken and the keys are
derived, the attestation key from the digests too; or RECOVERY. -/
def State.bootStage (s : State) : State :=
  let s := s.modLife (fun l => { l with boots := min (2 ^ 32 - 1) (l.boots + 1) })
  let slots := (List.range 5).map s.mgmt.bootSlot
  if slots.all (·.isSome) then
    let active := slots.map (·.getD 0)
    let items := active.zipIdx.map (fun p => s.mgmt.inFlash (2 * p.2 + p.1))
    let digests := items.map (Config.imageField 2)
    let conf := items.getD 4 []
    (s.modLife (fun l => { l with serial := Config.imageField 6 conf })).modMgmt (fun m =>
      { m with stage := 1, keys := true, identity := Config.derive Config.seed [], attest := Config.derive Config.seed digests,
               active := active, svn := items.map (Config.imageField 1), digests := digests, config := conf,
               autoSvn := decide (Config.imageField 4 conf % 2 = 1), alarmPolicy := decide (Config.imageField 5 conf % 2 = 1) })
  else (s.setDevstat 25 1 1).setDevstat 26 4 4

/-- Stage 2 (R31, R11, R12): every die link trains, or the package stops. -/
def State.linkStage (s : State) (ok : Bool) : State :=
  if ok then ((List.range 8).foldl (fun s l => s.bothStat l 0 1 1) s).modMgmt (fun m => { m with stage := 2 })
  else
    { s with draw := s.draw + 1 }.bothStat (Config.choice s.draw % 8) 1 1 1 |>.stopPackage 1

/-- Stage 5 (R31, R87, R114): ports that fail are down, the route table and the device's number come from the signed
configuration, and the governors start, at STEP 15 (log entry 42). -/
def State.lastStage (s : State) : State :=
  let conf := s.mgmt.config
  let s := (List.range 64).foldl (fun s k =>
    let w := Config.imageField (8 + k) conf
    s.pfSet (froute k) (bits w 0 3 + bits w 31 1 * 2 ^ 31)) s
  let s := (List.range 4).foldl (fun s d => s.pfSet (dieSpace d + 0x204) (15 * 2 ^ 16)) s
  let s := (s.modMgmt (fun m => { m with stage := 5 })).setDevstat 31 1 1
  let s : State := { s with device := Config.imageField 7 conf % 64, draw := s.draw + 1,
                            fabDown := (List.range 8).filter (fun p => (Config.freeWord s.draw).getLsbD p) }
  if s.mgmt.autoSvn then s.modMgmt Mgmt.commit else s

/-- STARTUP_STAGE_DONE (R31): the next stage completes; `ok` is false when a link fails to train, and the images decide on
stage 1. -/
def execStartupStageDone (ok : Bool) : State → Host.Outcome State Fault Refusal :=
  event (fun s =>
    if !s.mgmt.powered || s.recovery || (s.fatal && !s.mgmt.alarmed) then none
    else
      match s.mgmt.stage with
      | 0 => some s.bootStage
      | 1 => some (s.linkStage ok)
      | 2 => given ok (s.modMgmt (fun m => { m with stage := 3 }))
      | 3 => given ok { s with mem := s.hostCells, poison := [], symErrs := [], mgmt := { s.mgmt with stage := 4 } }
      | 4 => some s.lastStage
      | _ => none)

/-! ### The mailbox (R85) -/

def mbstat : Nat := 4
/-- Words of MBDATA. -/
def State.mbdata (s : State) : List Word := (List.range 1024).map (fun i => BitVec.ofNat 32 (s.pfGet (0x1000 + 4 * i)))
def State.setMbdata (s : State) (ws : List Word) : State :=
  ws.zipIdx.foldl (fun s p => s.pfSet (0x1000 + 4 * p.2) p.1.toNat) s

/-- A command is over (R85). -/
def State.mailDone (s : State) (cmd result : Nat) : State := (s.pfSet 0 cmd).pfSet mbstat result

/-- A command that Cytos serves, or refuses in RECOVERY or ALARMED (R85). -/
def State.mailbox (s : State) (cmd : Nat) (inRecovery inAlarmed : Bool) (f : State → State) : Option State :=
  if !s.cytosRuns then none
  else if (s.recovery && !inRecovery) || (s.mgmt.alarmed && !inAlarmed) then some (s.mailDone cmd 4)
  else some (f s)

/-- READ_LIFETIME_RECORD (R85, R91): free words before any version has been written (log entry 42). -/
def execReadLifetimeRecord : State → Host.Outcome State Fault Refusal :=
  event (fun s => s.mailbox 1 true true (fun s =>
    if s.mgmt.record = [] then let (fs, s) := s.freeWords 128; (s.setMbdata fs).mailDone 1 0
    else (s.setMbdata s.mgmt.record).mailDone 1 0))

/-- An item of a kind written to a place of flash when it is good: else result 2, for the signature, or 3, for the SVN (R85,
R86). -/
def State.writeFlash (s : State) (cmd kind place : Nat) : State :=
  let ws := s.mbdata
  if !signedOk ws then s.mailDone cmd 2
  else if Config.imageField 1 ws < s.mgmt.counters.getD kind 0 then s.mailDone cmd 3
  else (s.modMgmt (fun m => { m with flash := m.flash.filter (fun p => p.1 ≠ place) ++ [(place, ws)] })).mailDone cmd 0

/-- WRITE_FIRMWARE_IMAGE (R85, R86): to the inactive slot of the image's kind. -/
def execWriteFirmwareImage : State → Host.Outcome State Fault Refusal :=
  event (fun s => s.mailbox 2 true false (fun s =>
    let kind := Config.imageField 0 s.mbdata % 4
    s.writeFlash 2 kind (2 * kind + (1 - s.mgmt.active.getD kind 0))))

/-- COMMIT_SVN (R85, R87). -/
def execCommitSvn : State → Host.Outcome State Fault Refusal :=
  event (fun s => s.mailbox 3 false false (fun s => (s.modMgmt Mgmt.commit).mailDone 3 0))

/-- WRITE_CONFIGURATION_RECORD (R85, R86): read at the next boot. -/
def execWriteConfigurationRecord : State → Host.Outcome State Fault Refusal :=
  event (fun s => s.mailbox 4 true false (fun s => s.writeFlash 4 4 8))

/-- DISPLAY_LINK_QUERY (R34, R85): results of firmware, in a layout that the spec does not give. -/
def execDisplayLinkQuery : State → Host.Outcome State Fault Refusal :=
  event (fun s => s.mailbox 5 false false (fun s => let (fs, s) := s.freeWords 1024; (s.setMbdata fs).mailDone 5 0))

/-- MAILBOX_BAD_COMMAND (R85). -/
def execMailboxBadCommand (code : Nat) : State → Host.Outcome State Fault Refusal :=
  event (fun s => if 1 ≤ code ∧ code ≤ 5 then none else s.mailbox code true true (fun s => s.mailDone code 1))

/-! ### Attestation and the alarm (R89, R90) -/

/-- SPDM_REQUEST (R89, R90): the digests of the boot, signed with the attestation key; refused while ALARMED and in RECOVERY. -/
def execSpdmRequest (code : Nat) : State → Host.Outcome State Fault Refusal :=
  event (fun s =>
    if !s.cytosRuns || s.mgmt.alarmed || s.recovery || !s.mgmt.keys then none
    else
      let ds := s.mgmt.digests
      let sig := Config.sign s.mgmt.attest (Config.sha512 (BitVec.ofNat 32 code :: ds.flatMap (wordsOf 16)))
      some (s.modMgmt (fun m => { m with spdm := m.spdm ++ [(code, ds, sig)] })))

/-- An alarm (R90): counted; under ALARM_POLICY 1 the keys are zeroised and the package stops. -/
def State.alarm (s : State) : State :=
  let s := (s.modLife (fun l => { l with alarms := min (2 ^ 32 - 1) (l.alarms + 1) })).rewriteRecord
  if !s.mgmt.alarmPolicy || s.mgmt.alarmed then s
  else
    let s := s.modMgmt (fun m => { m with keys := false, identity := 0, attest := 0, alarmed := true })
    ({ (s.setDevstat 30 1 1).setDevstat 26 4 2 with stopped := List.range 512 }).signal 512 0

/-- SECURITY_ALARM (R90): 0 a glitch, 1 the temperature, 2 the tamper mesh. -/
def execSecurityAlarm (cause : Nat) : State → Host.Outcome State Fault Refusal :=
  event (fun s => given (s.cytosRuns && decide (cause < 3)) s.alarm)

/-- FIRMWARE_REMEASUREMENT (R90): a mismatch is an alarm. -/
def execFirmwareRemeasurement (ok : Bool) : State → Host.Outcome State Fault Refusal :=
  event (fun s => if s.cytosRuns then some (if ok then s else s.alarm) else none)

end Sys2Proof.Machine
end

