-- ==== Sys2Proof/Machine/HostAccess.lean ====
section
/-!
DEFINITION. What the host does to the package: accesses to memory (09 R249, 10 R289) and writes of registers (00 R2, R3, 03
R64–R67, and the rules that give each register).
-/

namespace Sys2Proof.Machine

/-! ### Host accesses to memory -/

/-- An access of the host to canonical memory as one event of the order (R249, R266, R289); a window that holds the line delays
it (R273, R277), and a range lock too unless the memory is the host's (R280). A write of a whole line clears its poison (R25). -/
def State.hostAccess (s : State) (a : Nat) (write : Bool) (data : List Byte) : Option State :=
  let n := data.length
  if n = 0 ∨ 128 < a % 128 + n ∨ s.mgmt.powered = false ∨ s.mgmt.stage < 5 then none
  else if s.heldOff [lineOf a] write then some (s.noteHeld [lineOf a])
  else if regionOf a ≠ some .host && s.locked .mem a n write then none
  else if write then
    let s1 := if n = 128 then s.cleanLines [lineOf a] else s.eccRead [lineOf a]
    some ({ s1 with mem := Memory.setBytes s1.mem a data }.wrote none [lineOf a])
  else some (s.readBy [lineOf a])

/-- The host holds a line that it has accessed through CXL.cache, in the directory of the remote-data caches (R289). -/
def State.hostHolds (s : State) (line : Nat) (write : Bool) : State :=
  { s with caches := s.caches.filter (fun c => !(c.holder = 1024 && c.line = line)) ++
      [{ holder := 1024, line := line, st := if write then .modified else .shared }] }

/-- HOST_CXL_CACHE_ACCESS (R63, R289): an address of host memory. -/
def execHostCxlCacheAccess (addr : Nat) (write : Bool) (data : List Byte) : State → Host.Outcome State Fault Refusal :=
  event (fun s =>
    if s.cxl && decide (regionOf addr = some .host) then
      (s.hostAccess addr write data).map (fun t =>
        if s.heldOff [lineOf addr] write then t else t.hostHolds (lineOf addr) write)
    else none)

/-- HOST_CXL_MEM_ACCESS (R63, R234, R249): a physical address of the near or far tier under the per-die decode. -/
def execHostCxlMemAccess (addr : Nat) (write : Bool) (data : List Byte) : State → Host.Outcome State Fault Refusal :=
  event (fun s =>
    if s.cxl && decide (regionOf addr = some .near ∨ regionOf addr = some .far) && paExists .perDie 0 addr then
      s.hostAccess (canonPa .perDie 0 addr) write data
    else none)

/-- BAR2_ACCESS (R64, R234, R249): an offset in the aperture, whose 128 GiB are the near tier's. -/
def execBar2Access (addr : Nat) (write : Bool) (data : List Byte) : State → Host.Outcome State Fault Refusal :=
  event (fun s =>
    if addr < 2 ^ 37 && paExists .perDie 0 addr then s.hostAccess (canonPa .perDie 0 addr) write data else none)

/-! ### Writes with checks of their own (R120, R303, R439) -/

/-- Two runs share a block. -/
def runsMeet (b1 n1 b2 n2 : Nat) : Bool := decide (0 < n1 ∧ 0 < n2 ∧ b1 < b2 + n2 ∧ b2 < b1 + n1)

/-- A register whose bit 31 is ERR (W1C): a refused write sets it and leaves the rest; one that is taken clears it when it
writes a 1 to it. -/
def State.writeErr (s : State) (off v new : Nat) (refused : Bool) : State :=
  let old := s.pfGet off
  if refused then s.pfSet off (putBits old 31 1 1)
  else s.pfSet off (putBits new 31 1 (if bits v 31 1 = 1 then 0 else bits old 31 1))

def tasksOff (vf : Nat) : Nat := 0x110000 + 0x10 * vf
def boothsOff (vf : Nat) : Nat := 0x116000 + 4 * vf

/-- TASKALLOT_WRITE (R120). -/
def execTaskallotWrite (vf v : Nat) : State → Host.Outcome State Fault Refusal :=
  hostWrite (fun s =>
    let base := bits v 16 10
    let n := bits v 0 11
    if 512 ≤ vf then none
    else
      let refused := decide (1024 < base + n) || s.vfBusy vf ||
        (List.range 512).any (fun o => decide (o ≠ vf) && runsMeet base n (bits (s.taskallot o) 16 10) (bits (s.taskallot o) 0 11))
      some (s.writeErr (tasksOff vf) v (n + base * 2 ^ 16) refused))

/-- VFMODE_WRITE (R120). -/
def execVfmodeWrite (vf v : Nat) : State → Host.Outcome State Fault Refusal :=
  hostWrite (fun s =>
    if 512 ≤ vf ∨ s.vfBusy vf = true ∨ bits v 0 2 = 3 then none else some (s.pfSet (tasksOff vf + 4) (bits v 0 2)))

/-- BOOTHALLOT_WRITE (R439): the booths of a run that is taken start at 0. -/
def execBoothallotWrite (vf v : Nat) : State → Host.Outcome State Fault Refusal :=
  hostWrite (fun s =>
    let base := bits v 16 8
    let n := bits v 0 9
    if 512 ≤ vf then none
    else
      let refused := decide (256 < base + n) || s.vfBusy vf ||
        (List.range 512).any (fun o => decide (o ≠ vf) && runsMeet base n (bits (s.boothallot o) 16 8) (bits (s.boothallot o) 0 9))
      let s1 := s.writeErr (boothsOff vf) v (n + base * 2 ^ 16) refused
      some (if refused then s1
            else { s1 with booths := s1.booths.filter (fun b => !decide (16 * base ≤ b.k ∧ b.k < 16 * (base + n))) }))

/-- SAVECNT_WRITE (R303). -/
def execSavecntWrite (vf v : Nat) : State → Host.Outcome State Fault Refusal :=
  hostWrite (fun s =>
    if 512 ≤ vf ∨ s.vfBusy vf = true then none
    else
      let n := bits v 0 16
      some (s.writeErr (saveBlock vf + 8) v n ((List.range n).any (fun i => !s.slotSound vf (s.slotAddr vf i)))))

/-! ### Registers without behaviour of their own (R3) -/

/-- The bits of a plain register of PF 0 BAR0 that a write changes, and those that writing 1 clears (R2, R3). Registers
with events of their own, and offsets that nothing assigns (R65), have neither. -/
def pfMasks (off : Nat) : Nat × Nat :=
  let at_ (base n size : Nat) (f : Nat → Nat × Nat) : Nat × Nat :=
    if base ≤ off ∧ off < base + n * size then f ((off - base) % size) else (0, 0)
  if off % 4 ≠ 0 then (0, 0)
  else if off < 0x100000 then at_ 0x1000 1024 4 (fun _ => (0xFFFFFFFF, 0))
  else if off = shstat then (0, 0x80000000)
  else if off = 0x112000 then (0xFFFFFF, 0)
  else if off < 0x120000 then
    (match off with
     | 0x114000 => (0xFFFFF000, 0) | 0x114004 => (0xFFFFFFFF, 0) | 0x114008 => (0x8F0000FF, 0) | _ => (0, 0))
  else if off < 0x130000 then
    at_ 0x120000 512 0x40 (fun r => match r with
      | 0x00 | 0x08 => (0xFFFFF000, 0) | 0x04 => (0xFFFFF, 0) | 0x0C => (0xFFFFFFFF, 0) | 0x10 => (0x8F000000, 0)
      | 0x20 => (0xFFFFF000, 0) | 0x24 => (0x1FFFF, 0) | _ => (0, 0))
  else if off < 0x140000 then
    at_ 0x130000 512 0x10 (fun r => match r with
      | 0 => (0xFFE00000, 0) | 4 => (0xFFFFF, 0) | _ => (0, 0))
  else if off < 0x141000 then
    at_ 0x140000 256 0x10 (fun r => match r with
      | 4 => (0x83F001FF, 0) | 8 => (0xFFFFF000, 0) | 12 => (0xFFFFF, 0) | _ => (0, 0))
  else if off < 0x142000 then at_ 0x141000 4 4 (fun _ => (0x800001FF, 0))
  else if off < 0x1000000 then at_ 0x142000 512 4 (fun _ => (0, 0x80000000))
  else if off < hubSpace then
    at_ 0x1000000 4 0x100000 (fun r => match r with
      | 4 | 12 | 0x14 => (0, 4) | 0x100 => (0xFF00FFFF, 0) | _ => (0, 0))
  else if off < hubSpace + 0x20 then (if off % 8 = 4 then (0, 4) else (0, 0))
  else if off < glctl then
    at_ (hubSpace + 0x1000) 4 0x100 (fun r => match r with
      | 0x10 | 0x14 | 0x18 => (0xFFFFFFFF, 0) | 0x1C => (0xFFFFFF01, 0) | 0x20 => (0, 4) | _ => (0, 0))
  else if sgmem ≤ off ∧ off < sgmem + 16 then (0xBFBFBFBF, 0)
  else (0, 0)

/-- A write to a register whose offset lies in a block of functions is ignored while a queue of the function is not
DISABLED: ROOT, FRBASE and TCTL (R237), SAVEBASE (R303). -/
def State.frozen (s : State) (off : Nat) : Bool :=
  if 0x120000 ≤ off ∧ off < 0x128000 then decide (off % 0x40 < 0x14) && s.vfBusy ((off - 0x120000) / 0x40)
  else if 0x130000 ≤ off ∧ off < 0x132000 then s.vfBusy ((off - 0x130000) / 0x10)
  else if hubSpace + 0x1000 ≤ off ∧ off < glctl then
    -- DPTIM while EN is 1 (R35)
    decide (0x10 ≤ off % 0x100 ∧ off % 0x100 < 0x20 ∧ bits (s.pfGet (off / 0x100 * 0x100)) 31 1 = 1)
  else false

/-- Bits of a word under a mask replaced. -/
def masked (old v mask : Nat) : Nat := (old &&& (0xFFFFFFFF ^^^ mask)) ||| (v &&& mask)

/-- SGCTL written (R56): SGSWAP counts from the write that sets EN. -/
def State.writeSgctl (s : State) (v : Nat) : State :=
  let new := v &&& 0xFFFFF000
  if bits (s.pfGet sgctl) 31 1 = 0 ∧ bits v 31 1 = 1 then
    { (s.pfSet sgctl new).pfSet sgswap 0 with swap := { arrived := [], sent := false, decision := none, acting := false, due := [], skew := 0, tf := none } }.noteReady
  else (s.pfSet sgctl new).noteReady

/-- A plain write to PF 0 BAR0 (R65). -/
def State.writePf (s : State) (off v : Nat) : Option State :=
  if off = sgctl then some (s.writeSgctl v)
  else if off = glctl then some (s.writeGlctl v)
  else if off = faberr then given (decide (v ≠ 0)) (s.pfSet off 0)
  else if 0x140000 ≤ off ∧ off < 0x141000 ∧ off % 16 = 0 then given (decide (bits v 0 16 ≠ 0)) (s.pfSet off 0)
  else if 0x120000 ≤ off ∧ off < 0x128000 ∧ off % 0x40 = 0x28 then
    -- INVCTL (R240)
    let vf := (off - 0x120000) / 0x40
    if bits (s.pfGet off) 31 1 = 1 then none
    else
      let s1 := s.pfSet off (v &&& 0x400FFFFF)
      some (if bits v 31 1 = 1 then (s1.startInvalidate vf).getD s1 else s1)
  else if 0x1000000 ≤ off ∧ off < hubSpace ∧ off % 0x100000 = 0x200 then
    -- GOVCTL (R114)
    some ((s.pfSet off (max 400 (bits v 0 10))).governed ((off - 0x1000000) / 0x100000))
  else
    let (rw, w1c) := pfMasks off
    let old := s.pfGet off
    if (rw = 0 ∧ w1c = 0) ∨ s.frozen off = true then none
    else some (s.pfSet off ((masked old v rw) &&& (0xFFFFFFFF ^^^ (v &&& w1c))))

/-- QCTL written (R67): while EN is 1 only PRIO_MAX changes, and CMD acts. -/
def State.writeQctl (s : State) (vf q v : Nat) : Option State :=
  let old := s.qctl vf q
  if bits old 31 1 = 1 then
    let s1 := s.qSet vf q 0x18 (putBits old 17 3 (bits v 17 3))
    match bits v 28 2 with
    | 1 => some ((s1.destroyQueue vf q).getD s1)
    | 2 => some ((s1.abortQueue vf q).getD s1)
    | 3 => some ((s1.resumeQueue vf q).getD s1)
    | _ => some s1
  else
    let s1 := s.qSet vf q 0x18 (v &&& 0x4FFE0000)
    some (if bits v 31 1 = 1 then (s1.enableQueue vf q).getD s1 else s1)

/-- A plain write to the BAR0 of a function (R66). -/
def State.writeVf (s : State) (vf q r v : Nat) : Option State :=
  match r with
  | 0x18 => s.writeQctl vf q v
  | 0x00 | 0x08 => some (s.qSet vf q r (v &&& 0xFFFFF000))
  | 0x10 => some (s.qSet vf q r (v &&& 0xFFFFFF80))
  | 0x04 | 0x0C | 0x14 | 0x30 => some (s.qSet vf q r v)
  | _ => none

/-! ### Reads of registers (R3, R65, R66) -/

/-- A register of PF 0 BAR0 as it reads (R3): WO registers, RESUME and MRTAIL, read 0, and LINE is the line scanned now (R37). -/
def State.readPf (s : State) (off : Nat) : Nat :=
  let x := s.pfGet off
  if off % 4 ≠ 0 ∨ off = 0x11400C ∨ (0x120000 ≤ off ∧ off < 0x128000 ∧ off % 0x40 = 0x1C) then 0
  else
    match (List.range 4).find? (fun p => dpstat p = off) with
    | some p => putBits x 3 13 (s.scanLine p)
    | none => x

/-- A register of the BAR0 of a function as it reads (R66–R68, R70): CMD and the doorbells read 0, and STATE of QSTAT is the
state of the queue. -/
def State.readVf (s : State) (vf o : Nat) : Nat :=
  if 0x1000 ≤ o ∨ o % 4 ≠ 0 then 0
  else
    let q := o / 0x40
    match o % 0x40 with
    | 0x18 => putBits (s.qctl vf q) 28 2 0
    | 0x1C => putBits (s.qGet vf q 0x1C) 29 3 (s.queueState vf q)
    | r => s.qGet vf q r

/-- What the host reads at an offset, numbered as for REGISTER_WRITE. A read changes nothing. -/
def State.readRegister (s : State) (off : Nat) : Nat :=
  if off < 2 ^ 26 then s.readPf off
  else if off < 2 ^ 32 ∨ 512 * 2 ^ 20 ≤ off - 2 ^ 32 then 0
  else s.readVf ((off - 2 ^ 32) / 2 ^ 20) ((off - 2 ^ 32) % 2 ^ 20)

/-- REGISTER_WRITE (R2, R3, R65, R66): offsets below 2^26 are PF 0 BAR0; 2^32 + 2^20 × n is the BAR0 of function n. In
RECOVERY only the mailbox is served (R83). -/
def execRegisterWrite (off v : Nat) : State → Host.Outcome State Fault Refusal :=
  event (fun s =>
    if s.mgmt.powered = false ∨ 2 ^ 32 ≤ v then none
    else if s.recovery && !decide (0x1000 ≤ off ∧ off < 0x2000) then none
    else if off < 2 ^ 26 then s.writePf off v
    else
      let o := off - 2 ^ 32
      if off < 2 ^ 32 ∨ 512 * 2 ^ 20 ≤ o ∨ 0x1000 ≤ o % 2 ^ 20 then none
      else s.writeVf (o / 2 ^ 20) (o % 2 ^ 20 / 0x40) (o % 0x40) v)

end Sys2Proof.Machine
end

