-- ==== Sys2Proof/Machine/Lane.lean ====
section
/-!
DEFINITION. The lane and shape instructions, opcodes 0x80 to 0x8F (14_isa_control_lane.md R371–R381).
-/

namespace Sys2Proof.Machine

/-- Words of a result with its own shape, written under the active lanes, with its pass-cycles (R208). -/
def laneWrite (s : State) (g : Group) (b : Bool) (d : RegName) (ws : List (RegName × RegVal)) (active : Mask) : Done :=
  writeRegs s g b (destOf d) ws active (shapeCycles (writtenShape g ws active) (passLanes g ws active))

/-- A word of every lane: uniform when told so. -/
def laneVal (g : Group) (uniform : Bool) (active : Mask) (f : Nat → Word) : RegVal :=
  if uniform then .uniform (f (lowest g.width active)) else .ofLanes g.width f

/-- The four shuffles: lane l reads lane `src l b[l] W` (R373). -/
def shuffleOp (d a b : RegName) (ta tb byIndex : Bool) (src : Nat → Nat → Nat → Nat) (g : Group) : Op :=
  wordOp [(a, ta), (b, tb)] [d] (g.spanOk d 1 1 && g.spanOk a 1 1 && g.spanOk b 1 1) true (destOf d)
    (fun s g sl active =>
      let u := g.uniformSpan a 1 || (byIndex && g.uniformSpan b 1)
      laneWrite s g sl d
        [(d, laneVal g u active (fun l => g.word a (src l (g.word b l).toNat g.width)))] active)

/-- SHFL (R373). -/
def execShfl (d a b : RegName) (ta tb : Bool) : State → Host.Outcome State Fault Refusal :=
  issue (shuffleOp d a b ta tb true (fun _ k w => k % w))

/-- SHFLX (R373). -/
def execShflx (d a b : RegName) (ta tb : Bool) : State → Host.Outcome State Fault Refusal :=
  issue (shuffleOp d a b ta tb false (fun l k w => Nat.xor l (k % w)))

/-- SHFLU (R373). -/
def execShflu (d a b : RegName) (ta tb : Bool) : State → Host.Outcome State Fault Refusal :=
  issue (shuffleOp d a b ta tb false (fun l k _ => if k ≤ l then l - k else l))

/-- SHFLD (R373): the sum is exact. -/
def execShfld (d a b : RegName) (ta tb : Bool) : State → Host.Outcome State Fault Refusal :=
  issue (shuffleOp d a b ta tb false (fun l k w => if l + k < w then l + k else l))

/-- The fold of the bits of the active lanes (R374). -/
def foldBits (kind : FoldKind) (qs : List Bool) : Bool :=
  match kind with
  | .and => qs.all id
  | .or => qs.any id
  | .eqv => qs.all (· == qs.headD true)

/-- PFOLD (R374): one pass-cycle. -/
def execPfold (pd : PredName) (neg : Bool) (kind : FoldKind) (x : PredName) :
    State → Host.Outcome State Fault Refusal :=
  issue (fun _ => wordOp [] [] true true (destPred pd) (fun s g _ active =>
    let c := foldBits kind ((lanesOf g.width active).map (fun l => g.pred x l != neg))
    .next (s.setGroup (g.setPred pd active (fun _ => c))) 1))

/-- Names of a lane mask: two at width 64 (R372). -/
def maskNames (g : Group) : Nat := if g.width = 64 then 2 else 1

/-- BALLOT (R375). -/
def execBallot (d : RegName) (neg : Bool) (x : PredName) : State → Host.Outcome State Fault Refusal :=
  issue (fun g =>
    let n := maskNames g
    wordOp [] (spanNames d n) (g.spanOk d n n) true (destOf d) (fun s g b active =>
      let m := maskWhere g.width (fun l => hasLane active l && (g.pred x l != neg))
      laneWrite s g b d (unitWrites g d n true [m.toNat] 0) active))

/-- RDFIRST (R376). -/
def execRdfirst (d a : RegName) (ta : Bool) : State → Host.Outcome State Fault Refusal :=
  issue (fun g => wordOp [(a, ta)] [d] (g.spanOk d 1 1 && g.spanOk a 1 1) true (destOf d) (fun s g b active =>
    laneWrite s g b d [(d, .uniform (g.word a (lowest g.width active)))] active))

/-- RDLANE (R376). -/
def execRdlane (d a b : RegName) (ta tb : Bool) : State → Host.Outcome State Fault Refusal :=
  issue (fun g => wordOp [(a, ta), (b, tb)] [d] (g.spanOk d 1 1 && g.spanOk a 1 1 && g.spanOk b 1 1) true (destOf d)
    (fun s g sl active =>
      let j := (g.word b (lowest g.width active)).toNat % g.width
      laneWrite s g sl d [(d, .uniform (g.word a j))] active))

/-- WRLANE (R377): one lane, when it is live. -/
def execWrlane (d a b : RegName) (ta tb k : Bool) : State → Host.Outcome State Fault Refusal :=
  issue (fun g => wordOp [(d, k), (a, ta), (b, tb)] [d] (g.spanOk d 1 1 && g.spanOk a 1 1 && g.spanOk b 1 1) true
    (destOf d) (fun s g sl active =>
      let l0 := lowest g.width active
      let v := g.word a l0
      let j := (g.word b l0).toNat % g.width
      if hasLane g.live j then
        let ws := [(d, RegVal.uniform v)]
        let m := oneLane j
        let turns := decide ((g.reg d).val.shape ≠ .general ∧ writtenShape g ws m = .general)
        writeRegs s g sl (destOf d) ws m
          (shapeCycles (writtenShape g ws m) (if turns then popLanes g.width g.live else popLanes g.width active))
      else .next s (shapeCycles (g.reg d).val.shape (popLanes g.width active))))

/-- MATCH (R378). -/
def execMatchLanes (d a : RegName) (ta : Bool) : State → Host.Outcome State Fault Refusal :=
  issue (fun g =>
    let n := maskNames g
    wordOp [(a, ta)] (spanNames d n) (g.spanOk d n n && g.spanOk a 1 1) true (destOf d) (fun s g b active =>
      let same (l : Nat) : Nat := (maskWhere g.width (fun m => hasLane active m && decide (g.word a m = g.word a l))).toNat
      laneWrite s g b d
        (unitWrites g d n (g.uniformSpan a 1) ((List.range g.width).map same) (lowest g.width active)) active))

/-- Types and operations of `reduce` and `scan` (R379). -/
def laneOpOk (op : LaneOp) (t : MType) : Bool :=
  isI t || isH t || ((isF t || isP t) && (op = .add || op = .min || op = .max))

/-- One combining step on an element (R379). -/
def combine (op : LaneOp) (m : Word) (t : MType) (x y : Nat) : Nat × Flags :=
  match op with
  | .add => eAdd m t x y
  | .min => eMin m t x y
  | .max => eMax m t x y
  | .and => (Nat.land x y, Flags.none)
  | .or => (Nat.lor x y, Flags.none)
  | .xor => (Nat.xor x y, Flags.none)

/-- The identity of an operation, as an element (R380). -/
def identity (op : LaneOp) (t : MType) : Nat :=
  let w := elemBits t
  match typeFmt t with
  | some f =>
    (match op with
     | .add => f.signBit
     | .min => f.infinity
     | .max => f.signBit + f.infinity
     | _ => 0)
  | none =>
    (match op with
     | .min => encInt w (intMax (typeSigned t) w)
     | .max => encInt w (intMin (typeSigned t) w)
     | .and => 2 ^ w - 1
     | _ => 0)

/-- The steps of R380 over the values of the active lanes: each with what stood before it, what stands after it and
the exceptions of its step. -/
def scanSteps (op : LaneOp) (m : Word) (t : MType) : Option Nat → List Nat → List (Nat × Nat × Flags)
  | _, [] => []
  | none, x :: xs =>
    (unitOf (elemBits t) (List.replicate (elemCount t) (identity op t)), x, Flags.none) ::
      scanSteps op m t (some x) xs
  | some acc, x :: xs =>
    let (y, fl) := mapUnit t [acc, x] (fun _ es => combine op m t (arg es 0) (arg es 1))
    (acc, y, fl) :: scanSteps op m t (some y) xs

/-- The issue of `reduce` and `scan`. -/
def reduceOp (d a : RegName) (op : LaneOp) (ta always : Bool)
    (result : Group → Mask → List (Nat × Nat × Nat × Flags) → RegVal) (g : Group) : Op :=
  { legal := true
    regs := g.spanOk d 1 1 && g.spanOk a 1 1
    typed := g.typeOk (laneOpOk op)
    general := !always || g.generalSpan d 1
    srcs := [(a, ta)]
    dsts := [d]
    guarded := true
    settles := false
    dest := destOf d
    body := fun s g b active =>
      let ls := lanesOf g.width active
      let steps := ls.zip (scanSteps op g.mode g.type none (ls.map (fun l => (g.word a l).toNat)))
      let ws := [(d, result g active steps)]
      writeRegsTrap s g b (destOf d) ws active
        (shapeCycles (writtenShape g ws active) (passLanes g ws active))
        (steps.map (fun p => (p.1, p.2.2.2))) }

/-- REDUCE (R380). -/
def execReduce (d a : RegName) (op : LaneOp) (ta : Bool) : State → Host.Outcome State Fault Refusal :=
  issue (reduceOp d a op ta false (fun _ _ steps =>
    .uniform (BitVec.ofNat 32 ((steps.getLast?.map (fun p => p.2.2.1)).getD 0))))

/-- SCAN (R380). -/
def execScan (d a : RegName) (ex : Bool) (op : LaneOp) (ta : Bool) : State → Host.Outcome State Fault Refusal :=
  issue (reduceOp d a op ta true (fun g _ steps =>
    .ofLanes g.width (fun l =>
      match steps.find? (fun p => p.1 = l) with
      | some p => BitVec.ofNat 32 (if ex then p.2.1 else p.2.2.1)
      | none => g.word d l)))

/-- AFF (R381): SHAPE on a uniform-capable name whatever is held. -/
def execAff (d a b : RegName) (ta tb : Bool) : State → Host.Outcome State Fault Refusal :=
  issue (fun g => wordOp [(a, ta), (b, tb)] [d] (g.spanOk d 1 1 && g.spanOk a 1 1 && g.spanOk b 1 1) true (destOf d)
    (fun s g sl active =>
      if g.cls d = some .uniform then .trap s (slotTrap g sl .shape (destOf d))
      else
        let l0 := lowest g.width active
        laneWrite s g sl d [(d, .affine (g.word a l0) (g.word b l0))] active))

/-- SHAPE (R381). -/
def execShape (d a : RegName) (ta : Bool) : State → Host.Outcome State Fault Refusal :=
  issue (fun g => wordOp [(a, ta)] [d] (g.spanOk d 1 1 && g.spanOk a 1 1) true (destOf d) (fun s g b active =>
    laneWrite s g b d [(d, .uniform (BitVec.ofNat 32 (g.reg a).val.shape.code))] active))

/-- GEN (R381). -/
def execGen (d a : RegName) (ta : Bool) : State → Host.Outcome State Fault Refusal :=
  issue (fun g => wordOp [(a, ta)] [d] (g.spanOk d 1 1 && g.spanOk a 1 1) (g.generalSpan d 1) (destOf d)
    (fun s g b active => laneWrite s g b d [(d, .ofLanes g.width (fun l => g.word a l))] active))

/-- UNI (R381). -/
def execUni (d a : RegName) (ta : Bool) : State → Host.Outcome State Fault Refusal :=
  issue (fun g => wordOp [(a, ta)] [d] (g.spanOk d 1 1 && g.spanOk a 1 1) true (destOf d) (fun s g b active =>
    let w := g.word a (lowest g.width active)
    if (lanesOf g.width active).all (fun l => g.word a l = w) then laneWrite s g b d [(d, .uniform w)] active
    else .trap s (slotTrap g b .uniformity (destOf d))))

end Sys2Proof.Machine
end

