-- ==== Sys2Proof/Machine/Dispatch.lean ====
section
/-!
DEFINITION. The meaning of every instruction and event, one arm each.
-/

namespace Sys2Proof.Machine

/-- What an instruction or event does to the state. -/
def exec (i : Instr) (s : State) : Host.Outcome State Fault Refusal :=
  match i with
  | .nop => Sys2Proof.Machine.execNop s
  | .mode imm => Sys2Proof.Machine.execMode imm s
  | .modex imm => Sys2Proof.Machine.execModex imm s
  | .bra off => Sys2Proof.Machine.execBra off s
  | .brc u n p off => Sys2Proof.Machine.execBrc u n p off s
  | .brn n p off => Sys2Proof.Machine.execBrn n p off s
  | .call d off => Sys2Proof.Machine.execCall d off s
  | .ret a ta => Sys2Proof.Machine.execRet a ta s
  | .jr a ta => Sys2Proof.Machine.execJr a ta s
  | .join off => Sys2Proof.Machine.execJoin off s
  | .yield => Sys2Proof.Machine.execYield s
  | .sleep n => Sys2Proof.Machine.execSleep n s
  | .stop => Sys2Proof.Machine.execStop s
  | .bar b => Sys2Proof.Machine.execBar b s
  | .barc b => Sys2Proof.Machine.execBarc b s
  | .barw b => Sys2Proof.Machine.execBarw b s
  | .waitp path n => Sys2Proof.Machine.execWaitp path n s
  | .settle => Sys2Proof.Machine.execSettle s
  | .add d a b ta tb => Sys2Proof.Machine.execAdd d a b ta tb s
  | .sub d a b ta tb => Sys2Proof.Machine.execSub d a b ta tb s
  | .mul d a b ta tb => Sys2Proof.Machine.execMul d a b ta tb s
  | .mad d a b ta tb k => Sys2Proof.Machine.execMad d a b ta tb k s
  | .min d a b ta tb => Sys2Proof.Machine.execMin d a b ta tb s
  | .max d a b ta tb => Sys2Proof.Machine.execMax d a b ta tb s
  | .abs d a ta => Sys2Proof.Machine.execAbs d a ta s
  | .neg d a ta => Sys2Proof.Machine.execNeg d a ta s
  | .cmp d a any cc ta x => Sys2Proof.Machine.execCmp d a any cc ta x s
  | .sel d a neg ta x => Sys2Proof.Machine.execSel d a neg ta x s
  | .addi d a imm ta => Sys2Proof.Machine.execAddi d a imm ta s
  | .movl d imm => Sys2Proof.Machine.execMovl d imm s
  | .movh d imm k => Sys2Proof.Machine.execMovh d imm k s
  | .mov d a ta => Sys2Proof.Machine.execMov d a ta s
  | .clamp d a b ta tb k => Sys2Proof.Machine.execClamp d a b ta tb k s
  | .mulh d a b ta tb => Sys2Proof.Machine.execMulh d a b ta tb s
  | .div d a b ta tb => Sys2Proof.Machine.execDiv d a b ta tb s
  | .rem d a b ta tb => Sys2Proof.Machine.execRem d a b ta tb s
  | .addc d a b ta tb k => Sys2Proof.Machine.execAddc d a b ta tb k s
  | .subb d a b ta tb k => Sys2Proof.Machine.execSubb d a b ta tb k s
  | .and d a b ta tb => Sys2Proof.Machine.execAnd d a b ta tb s
  | .or d a b ta tb => Sys2Proof.Machine.execOr d a b ta tb s
  | .xor d a b ta tb => Sys2Proof.Machine.execXor d a b ta tb s
  | .andn d a b ta tb => Sys2Proof.Machine.execAndn d a b ta tb s
  | .not d a ta => Sys2Proof.Machine.execNot d a ta s
  | .shl d a b ta tb => Sys2Proof.Machine.execShl d a b ta tb s
  | .shr d a b ta tb => Sys2Proof.Machine.execShr d a b ta tb s
  | .rot d a b ta tb => Sys2Proof.Machine.execRot d a b ta tb s
  | .shli d a n ta => Sys2Proof.Machine.execShli d a n ta s
  | .shri d a n ta => Sys2Proof.Machine.execShri d a n ta s
  | .andi d a imm ta => Sys2Proof.Machine.execAndi d a imm ta s
  | .ori d a imm ta => Sys2Proof.Machine.execOri d a imm ta s
  | .xori d a imm ta => Sys2Proof.Machine.execXori d a imm ta s
  | .bfe d a b ta tb => Sys2Proof.Machine.execBfe d a b ta tb s
  | .bfi d a b ta tb k => Sys2Proof.Machine.execBfi d a b ta tb k s
  | .popc d a ta => Sys2Proof.Machine.execPopc d a ta s
  | .clz d a ta => Sys2Proof.Machine.execClz d a ta s
  | .ctz d a ta => Sys2Proof.Machine.execCtz d a ta s
  | .brev d a ta => Sys2Proof.Machine.execBrev d a ta s
  | .perm d a b ta tb k => Sys2Proof.Machine.execPerm d a b ta tb k s
  | .lea d a zx sh ta => Sys2Proof.Machine.execLea d a zx sh ta s
  | .rcp d a ta => Sys2Proof.Machine.execRcp d a ta s
  | .rsq d a ta => Sys2Proof.Machine.execRsq d a ta s
  | .sqrt d a ta => Sys2Proof.Machine.execSqrt d a ta s
  | .exp2 d a ta => Sys2Proof.Machine.execExp2 d a ta s
  | .log2 d a ta => Sys2Proof.Machine.execLog2 d a ta s
  | .sin d a ta => Sys2Proof.Machine.execSin d a ta s
  | .cos d a ta => Sys2Proof.Machine.execCos d a ta s
  | .fract d a ta => Sys2Proof.Machine.execFract d a ta s
  | .rnd d a ta => Sys2Proof.Machine.execRnd d a ta s
  | .ldexp d a b ta tb => Sys2Proof.Machine.execLdexp d a b ta tb s
  | .frexpm d a ta => Sys2Proof.Machine.execFrexpm d a ta s
  | .frexpe d a ta => Sys2Proof.Machine.execFrexpe d a ta s
  | .fpClass sel a cls ta x => Sys2Proof.Machine.execFpClass sel a cls ta x s
  | .cvt d a src ta => Sys2Proof.Machine.execCvt d a src ta s
  | .pack d a ta => Sys2Proof.Machine.execPack d a ta s
  | .unpack d a ta => Sys2Proof.Machine.execUnpack d a ta s
  | .copysign d a b ta tb => Sys2Proof.Machine.execCopysign d a b ta tb s
  | .dot2 d a b ta tb k => Sys2Proof.Machine.execDot2 d a b ta tb k s
  | .shfl d a b ta tb => Sys2Proof.Machine.execShfl d a b ta tb s
  | .shflx d a b ta tb => Sys2Proof.Machine.execShflx d a b ta tb s
  | .shflu d a b ta tb => Sys2Proof.Machine.execShflu d a b ta tb s
  | .shfld d a b ta tb => Sys2Proof.Machine.execShfld d a b ta tb s
  | .pfold pd neg kind x => Sys2Proof.Machine.execPfold pd neg kind x s
  | .ballot d neg x => Sys2Proof.Machine.execBallot d neg x s
  | .rdfirst d a ta => Sys2Proof.Machine.execRdfirst d a ta s
  | .rdlane d a b ta tb => Sys2Proof.Machine.execRdlane d a b ta tb s
  | .wrlane d a b ta tb k => Sys2Proof.Machine.execWrlane d a b ta tb k s
  | .matchLanes d a ta => Sys2Proof.Machine.execMatchLanes d a ta s
  | .reduce d a op ta => Sys2Proof.Machine.execReduce d a op ta s
  | .scan d a ex op ta => Sys2Proof.Machine.execScan d a ex op ta s
  | .aff d a b ta tb => Sys2Proof.Machine.execAff d a b ta tb s
  | .shape d a ta => Sys2Proof.Machine.execShape d a ta s
  | .gen d a ta => Sys2Proof.Machine.execGen d a ta s
  | .uni d a ta => Sys2Proof.Machine.execUni d a ta s
  | .ld d a sz off ta => Sys2Proof.Machine.execLd d a sz off ta s
  | .st d a sz off ta k => Sys2Proof.Machine.execSt d a sz off ta k s
  | .ldb d a sx off ta => Sys2Proof.Machine.execLdb d a sx off ta s
  | .stb d a off ta k => Sys2Proof.Machine.execStb d a off ta k s
  | .lds d a sz off ta => Sys2Proof.Machine.execLds d a sz off ta s
  | .sts d a sz off ta k => Sys2Proof.Machine.execSts d a sz off ta k s
  | .ldw d a sz off ta => Sys2Proof.Machine.execLdw d a sz off ta s
  | .stw d a sz off ta k => Sys2Proof.Machine.execStw d a sz off ta k s
  | .atom d a home op ta w64 => Sys2Proof.Machine.execAtom d a home op ta w64 s
  | .red d a op ta w64 => Sys2Proof.Machine.execRed d a op ta w64 s
  | .atoms d a win op ta w64 => Sys2Proof.Machine.execAtoms d a win op ta w64 s
  | .pref a sz off ta => Sys2Proof.Machine.execPref a sz off ta s
  | .ldone d a sz off ta => Sys2Proof.Machine.execLdone d a sz off ta s
  | .wopen d a sw ta => Sys2Proof.Machine.execWopen d a sw ta s
  | .wclose a ta => Sys2Proof.Machine.execWclose a ta s
  | .fence scope => Sys2Proof.Machine.execFence scope s
  | .waitc a b ta tb => Sys2Proof.Machine.execWaitc a b ta tb s
  | .ticket d a ta => Sys2Proof.Machine.execTicket d a ta s
  | .serve a ta => Sys2Proof.Machine.execServe a ta s
  | .waitt a b ta tb => Sys2Proof.Machine.execWaitt a b ta tb s
  | .taskdec a n ta => Sys2Proof.Machine.execTaskdec a n ta s
  | .mcfg a ta => Sys2Proof.Machine.execMcfg a ta s
  | .mma a ta => Sys2Proof.Machine.execMma a ta s
  | .mloop a ta => Sys2Proof.Machine.execMloop a ta s
  | .mrd d a b ta tb => Sys2Proof.Machine.execMrd d a b ta tb s
  | .mwr d a b ta tb k => Sys2Proof.Machine.execMwr d a b ta tb k s
  | .mclr a ta => Sys2Proof.Machine.execMclr a ta s
  | .mcvt d a target ta => Sys2Proof.Machine.execMcvt d a target ta s
  | .copy a ta => Sys2Proof.Machine.execCopy a ta s
  | .copyt a ta => Sys2Proof.Machine.execCopyt a ta s
  | .bin a ta => Sys2Proof.Machine.execBin a ta s
  | .dice a ta => Sys2Proof.Machine.execDice a ta s
  | .gld d a sz off ta => Sys2Proof.Machine.execGld d a sz off ta s
  | .gst d a sz off ta k => Sys2Proof.Machine.execGst d a sz off ta k s
  | .rast5 d a b ta tb => Sys2Proof.Machine.execRast5 d a b ta tb s
  | .rast3 d a b ta tb => Sys2Proof.Machine.execRast3 d a b ta tb s
  | .swr d a ta k => Sys2Proof.Machine.execSwr d a ta k s
  | .resolve a ta => Sys2Proof.Machine.execResolve a ta s
  | .trace d a b ta tb => Sys2Proof.Machine.execTrace d a b ta tb s
  | .regroup d a ta k => Sys2Proof.Machine.execRegroup d a ta k s
  | .enq a ta => Sys2Proof.Machine.execEnq a ta s
  | .sample d a b ta tb => Sys2Proof.Machine.execSample d a b ta tb s
  | .sampleg d a b ta tb => Sys2Proof.Machine.execSampleg d a b ta tb s
  | .bktOpen d a ta => Sys2Proof.Machine.execBktOpen d a ta s
  | .bktSeal a ta => Sys2Proof.Machine.execBktSeal a ta s
  | .bktClaim d a ta => Sys2Proof.Machine.execBktClaim d a ta s
  | .bktClose d a ta => Sys2Proof.Machine.execBktClose d a ta s
  | .bktFree a ta => Sys2Proof.Machine.execBktFree a ta s
  | .xst d a b ta tb k => Sys2Proof.Machine.execXst d a b ta tb k s
  | .present a ta => Sys2Proof.Machine.execPresent a ta s
  | .csrr d csr => Sys2Proof.Machine.execCsrr d csr s
  | .csrw d csr k => Sys2Proof.Machine.execCsrw d csr k s
  | .trap n => Sys2Proof.Machine.execTrap n s
  | .rft next => Sys2Proof.Machine.execRft next s
  | .save a ta => Sys2Proof.Machine.execSave a ta s
  | .rest a ta => Sys2Proof.Machine.execRest a ta s
  | .watchdog g => Sys2Proof.Machine.execWatchdog g s
  | .sleepExpiry g slotB => Sys2Proof.Machine.execSleepExpiry g slotB s
  | .forcedSwitch g => Sys2Proof.Machine.execForcedSwitch g s
  | .producerComplete g id => Sys2Proof.Machine.execProducerComplete g id s
  | .windowCommit g => Sys2Proof.Machine.execWindowCommit g s
  | .anchorGrant g line => Sys2Proof.Machine.execAnchorGrant g line s
  | .anchorTimeout g => Sys2Proof.Machine.execAnchorTimeout g s
  | .atomHoldTimeout g => Sys2Proof.Machine.execAtomHoldTimeout g s
  | .ownershipRequest core line => Sys2Proof.Machine.execOwnershipRequest core line s
  | .ownershipGrant core line => Sys2Proof.Machine.execOwnershipGrant core line s
  | .invalidation holder line => Sys2Proof.Machine.execInvalidation holder line s
  | .invalidationAcknowledgement core line => Sys2Proof.Machine.execInvalidationAcknowledgement core line s
  | .homeAtomicPerform g => Sys2Proof.Machine.execHomeAtomicPerform g s
  | .activeMessage core => Sys2Proof.Machine.execActiveMessage core s
  | .monitorWake line => Sys2Proof.Machine.execMonitorWake line s
  | .monitorRecheck g slotB => Sys2Proof.Machine.execMonitorRecheck g slotB s
  | .engineOpStart id => Sys2Proof.Machine.execEngineOpStart id s
  | .singlePoint id => Sys2Proof.Machine.execSinglePoint id s
  | .diceService die cluster => Sys2Proof.Machine.execDiceService die cluster s
  | .binPerform id => Sys2Proof.Machine.execBinPerform id s
  | .poolLimitWake addr => Sys2Proof.Machine.execPoolLimitWake addr s
  | .frameSealEffect vf dev h => Sys2Proof.Machine.execFrameSealEffect vf dev h s
  | .resolveStart id => Sys2Proof.Machine.execResolveStart id s
  | .resolveComplete id => Sys2Proof.Machine.execResolveComplete id s
  | .bucketReturn team => Sys2Proof.Machine.execBucketReturn team s
  | .remainingCountUpdate die src => Sys2Proof.Machine.execRemainingCountUpdate die src s
  | .stealServe die => Sys2Proof.Machine.execStealServe die s
  | .stealComplete die => Sys2Proof.Machine.execStealComplete die s
  | .teamPlacement launch => Sys2Proof.Machine.execTeamPlacement launch s
  | .reservationTimeout launch => Sys2Proof.Machine.execReservationTimeout launch s
  | .queueRowLaunch launch die queue => Sys2Proof.Machine.execQueueRowLaunch launch die queue s
  | .rowAgeLimit launch die queue => Sys2Proof.Machine.execRowAgeLimit launch die queue s
  | .pipelineDrain launch => Sys2Proof.Machine.execPipelineDrain launch s
  | .swapOut team => Sys2Proof.Machine.execSwapOut team s
  | .preemptDecision launch => Sys2Proof.Machine.execPreemptDecision launch s
  | .preempt team => Sys2Proof.Machine.execPreempt team s
  | .teamSaveDone team => Sys2Proof.Machine.execTeamSaveDone team s
  | .teamRestore team => Sys2Proof.Machine.execTeamRestore team s
  | .leaveGrant die => Sys2Proof.Machine.execLeaveGrant die s
  | .traceBurstIdle core => Sys2Proof.Machine.execTraceBurstIdle core s
  | .arbiterGrant arb => Sys2Proof.Machine.execArbiterGrant arb s
  | .meshOutputArbitration output => Sys2Proof.Machine.execMeshOutputArbitration output s
  | .headPromoted output input => Sys2Proof.Machine.execHeadPromoted output input s
  | .wayReclaimEviction slice => Sys2Proof.Machine.execWayReclaimEviction slice s
  | .invalidateDone vf => Sys2Proof.Machine.execInvalidateDone vf s
  | .faultPost vf => Sys2Proof.Machine.execFaultPost vf s
  | .heatFlush die idx => Sys2Proof.Machine.execHeatFlush die idx s
  | .linePacketReceive p => Sys2Proof.Machine.execLinePacketReceive p s
  | .resync dir => Sys2Proof.Machine.execResync dir s
  | .oppPathSwitch die => Sys2Proof.Machine.execOppPathSwitch die s
  | .startupStageDone ok => Sys2Proof.Machine.execStartupStageDone ok s
  | .tailLineInvalidate vf q => Sys2Proof.Machine.execTailLineInvalidate vf q s
  | .abortDone vf q => Sys2Proof.Machine.execAbortDone vf q s
  | .launch vf q => Sys2Proof.Machine.execLaunch vf q s
  | .signal vf q => Sys2Proof.Machine.execSignal vf q s
  | .waitmem vf q => Sys2Proof.Machine.execWaitmem vf q s
  | .counter vf q => Sys2Proof.Machine.execCounter vf q s
  | .nopRecord vf q => Sys2Proof.Machine.execNopRecord vf q s
  | .recordStart vf q seq => Sys2Proof.Machine.execRecordStart vf q seq s
  | .launchComplete launch => Sys2Proof.Machine.execLaunchComplete launch s
  | .completionWrite vf q => Sys2Proof.Machine.execCompletionWrite vf q s
  | .illegalOpcode w => Sys2Proof.Machine.execIllegalOpcode w s
  | .pcieReadReturn g => Sys2Proof.Machine.execPcieReadReturn g s
  | .badOpRecord vf q => Sys2Proof.Machine.execBadOpRecord vf q s
  | .invalidate vf => Sys2Proof.Machine.execInvalidate vf s
  | .translationResume vf tag => Sys2Proof.Machine.execTranslationResume vf tag s
  | .mrtailWrite v => Sys2Proof.Machine.execMrtailWrite v s
  | .patrolScrub line errs => Sys2Proof.Machine.execPatrolScrub line errs s
  | .dieLinkFlitCrcFail link => Sys2Proof.Machine.execDieLinkFlitCrcFail link s
  | .linkRetrain link => Sys2Proof.Machine.execLinkRetrain link s
  | .linkRetrainDone link => Sys2Proof.Machine.execLinkRetrainDone link s
  | .linkOutOfService link => Sys2Proof.Machine.execLinkOutOfService link s
  | .linePacketSend p line => Sys2Proof.Machine.execLinePacketSend p line s
  | .cumulativeAcknowledgement dir seq => Sys2Proof.Machine.execCumulativeAcknowledgement dir seq s
  | .dlctlWrite link v => Sys2Proof.Machine.execDlctlWrite link v s
  | .fabricFlitCrcFail port => Sys2Proof.Machine.execFabricFlitCrcFail port s
  | .xstArrival header payload => Sys2Proof.Machine.execXstArrival header payload s
  | .xack src seq => Sys2Proof.Machine.execXack src seq s
  | .arrive header => Sys2Proof.Machine.execArrive header s
  | .release header => Sys2Proof.Machine.execRelease header s
  | .repeatDecision header => Sys2Proof.Machine.execRepeatDecision header s
  | .time header => Sys2Proof.Machine.execTime header s
  | .headerFlitDiscard header => Sys2Proof.Machine.execHeaderFlitDiscard header s
  | .frouteWrite dev v => Sys2Proof.Machine.execFrouteWrite dev v s
  | .thermalThrottle die => Sys2Proof.Machine.execThermalThrottle die s
  | .thermalThrottleEnd die => Sys2Proof.Machine.execThermalThrottleEnd die s
  | .dpctlWrite port v => Sys2Proof.Machine.execDpctlWrite port v s
  | .dpLinkTrained port => Sys2Proof.Machine.execDpLinkTrained port s
  | .dpLinkLost port => Sys2Proof.Machine.execDpLinkLost port s
  | .line0Start port => Sys2Proof.Machine.execLine0Start port s
  | .latchLine port => Sys2Proof.Machine.execLatchLine port s
  | .bandWindowOpen port band => Sys2Proof.Machine.execBandWindowOpen port band s
  | .bandDeadline port band => Sys2Proof.Machine.execBandDeadline port band s
  | .genlockLocked r => Sys2Proof.Machine.execGenlockLocked r s
  | .genlockLost port => Sys2Proof.Machine.execGenlockLost port s
  | .doorbellWrite vf q v => Sys2Proof.Machine.execDoorbellWrite vf q v s
  | .queueEnable vf q => Sys2Proof.Machine.execQueueEnable vf q s
  | .destroy vf q => Sys2Proof.Machine.execDestroy vf q s
  | .abort vf q => Sys2Proof.Machine.execAbort vf q s
  | .resume vf q => Sys2Proof.Machine.execResume vf q s
  | .ackedWrite vf q v => Sys2Proof.Machine.execAckedWrite vf q v s
  | .vfFunctionLevelReset vf => Sys2Proof.Machine.execVfFunctionLevelReset vf s
  | .securityAlarm cause => Sys2Proof.Machine.execSecurityAlarm cause s
  | .firmwareRemeasurement ok => Sys2Proof.Machine.execFirmwareRemeasurement ok s
  | .spdmRequest code => Sys2Proof.Machine.execSpdmRequest code s
  | .hostCxlCacheAccess addr write data => Sys2Proof.Machine.execHostCxlCacheAccess addr write data s
  | .hostCxlMemAccess addr write data => Sys2Proof.Machine.execHostCxlMemAccess addr write data s
  | .bar2Access addr write data => Sys2Proof.Machine.execBar2Access addr write data s
  | .vfbindWrite owner v => Sys2Proof.Machine.execVfbindWrite owner v s
  | .shareEntryWrite off v => Sys2Proof.Machine.execShareEntryWrite off v s
  | .taskallotWrite vf v => Sys2Proof.Machine.execTaskallotWrite vf v s
  | .vfmodeWrite vf v => Sys2Proof.Machine.execVfmodeWrite vf v s
  | .boothallotWrite vf v => Sys2Proof.Machine.execBoothallotWrite vf v s
  | .savecntWrite vf v => Sys2Proof.Machine.execSavecntWrite vf v s
  | .registerWrite off v => Sys2Proof.Machine.execRegisterWrite off v s
  | .frheadWrite vf v => Sys2Proof.Machine.execFrheadWrite vf v s
  | .mailboxBadCommand code => Sys2Proof.Machine.execMailboxBadCommand code s
  | .taskDecrement => Sys2Proof.Machine.execTaskDecrement s
  | .epochBoundary => Sys2Proof.Machine.execEpochBoundary s
  | .moveRelease => Sys2Proof.Machine.execMoveRelease s
  | .migrationRecord => Sys2Proof.Machine.execMigrationRecord s
  | .powerOn => Sys2Proof.Machine.execPowerOn s
  | .thermalTrip => Sys2Proof.Machine.execThermalTrip s
  | .frameRecordRead => Sys2Proof.Machine.execFrameRecordRead s
  | .cutoffLine => Sys2Proof.Machine.execCutoffLine s
  | .pfFunctionLevelReset => Sys2Proof.Machine.execPfFunctionLevelReset s
  | .hotReset => Sys2Proof.Machine.execHotReset s
  | .readLifetimeRecord => Sys2Proof.Machine.execReadLifetimeRecord s
  | .writeFirmwareImage => Sys2Proof.Machine.execWriteFirmwareImage s
  | .commitSvn => Sys2Proof.Machine.execCommitSvn s
  | .writeConfigurationRecord => Sys2Proof.Machine.execWriteConfigurationRecord s
  | .displayLinkQuery => Sys2Proof.Machine.execDisplayLinkQuery s
  | .lifetimeRecordRewrite => Sys2Proof.Machine.execLifetimeRecordRewrite s
  | .instructionFetchFault => Sys2Proof.Machine.execInstructionFetchFault s
  | .internalUncorrectableError => Sys2Proof.Machine.execInternalUncorrectableError s
  | .powerOff => Sys2Proof.Machine.execPowerOff s

end Sys2Proof.Machine
end

