-- ==== Sys2Proof/Machine/Fetch.lean ====
section
/-!
DEFINITION. What the fetch of an instruction does beside giving its word: the walker's reads (09 R238, R239, 10 R258), the
translation used (R255), and the line in the instruction cache of the core (08 R205, 09 R246, R247).
-/

namespace Sys2Proof.Machine

/-- Lines of the entries that the walker reads for the fetch of the slot State.cur and State.curB name. -/
def State.fetchReads (s : State) : List Nat :=
  match s.group? s.cur with
  | none => []
  | some g =>
    let c := s.ctx g
    s.entryLines (some c.core) (some c.die) c.vf (g.slot s.curB).pc.toNat

/-- The walker's reads made, and whether the instruction then issues: not while a window holds an entry off, and not when they
have rolled the group back (R266, R273). -/
def State.beforeFetch (s : State) : State × Bool :=
  let ws := s.fetchReads
  if ws = [] then (s, true)
  else if s.heldOff ws false then (s.noteHeld ws, false)
  else
    let t := s.readBy ws
    (t, decide (t.group? s.cur = s.group? s.cur))

/-- A fetch that has given a word: its translation is used, and its line stands in the instruction cache unless no place for it
is free (R205, R246, R247, R255). -/
def State.keepFetch (s : State) (core vf : Nat) (h : Hit) : State :=
  let s := match h.leaf with
    | some (va, e, size, addr) => s.used (some core) (some (core / 64)) vf va e size addr
    | none => s
  let line := lineOf h.addr
  if h.plain || s.caches.any (fun c => c.holder = 512 + core && c.line = line) || s.fillWaits (512 + core) vf line then s
  else s.fillCopy (512 + core) vf line .shared

/-- The state after an instruction that `s` fetched and that led to `t`. -/
def State.afterFetch (s t : State) : State :=
  match s.group? s.cur with
  | none => t
  | some g =>
    match s.fetchPlace g with
    | .hit h => t.keepFetch g.core (s.ctx g).vf h
    | _ => t

end Sys2Proof.Machine
end

