-- ==== Sys2Proof/Machine/Internal.lean ====
section
/-!
DEFINITION. The interleaving of the package's own events with the groups' instructions (10 R258; log entry 2): which
event or which group comes next.
-/

namespace Sys2Proof.Machine

/-! ### Events that may come about now

An event listed here whose condition does not hold leaves the state as it is (log entry 14), so these lists may name too many,
and name every one that could do something. -/

/-- Events of a group (R128, R202, R217, R267, R277, R286, R433). -/
def State.groupEnabled (s : State) (g : Group) : List Instr :=
  (g.producers.filter (fun p => !(p.inWindow && decide (p.kind = .trace)))).map (fun p => .producerComplete g.id p.id) ++
    (if s.mayCommit g then [.windowCommit g.id] else []) ++
    (match g.block with | .anchor k => [.anchorGrant g.id k.line] | _ => []) ++
    (if 1024 ≤ g.runCycles then [.forcedSwitch g.id] else []) ++
    (if 0 < g.hostOut then [.pcieReadReturn g.id] else []) ++
    (if s.homeAtoms.any (fun h => h.group = g.id) then [.homeAtomicPerform g.id] else [])

/-- Coherence and messages (R248, R252). -/
def State.coherenceEnabled (s : State) : List Instr :=
  s.own.flatMap (fun o =>
    if !o.granted then [.ownershipRequest o.core o.line] else if !o.received then [.ownershipGrant o.core o.line] else []) ++
    s.inval.map (fun i => if i.acked then .invalidationAcknowledgement i.requester i.line else .invalidation i.holder i.line) ++
    (s.msgs.map (·.target)).eraseDups.map .activeMessage

/-- Engine operations (R229, R279–R282). -/
def State.opEnabled (o : EngineOp) : List Instr :=
  match o.kind, o.state with
  | .copy, .queued | .copyt, .queued | .mma, .queued | .mloop, .queued => [.engineOpStart o.id]
  | .copy, .running | .copyt, .running | .mma, .running | .mloop, .running => [.singlePoint o.id]
  | .enq, .queued | .regroup, .queued => [.singlePoint o.id]
  | .bin, .queued | .bin, .running => [.binPerform o.id]
  | .dice, .queued => [.diceService (o.core / 64) (o.core % 64 / 4)]
  | .resolve, .queued => [.resolveStart o.id]
  | .resolve, .running => [.resolveComplete o.id]
  | _, _ => []

/-- Frames, buckets and pools (R134–R136, R152, R159, R177, R188). -/
def State.frameEnabled (s : State) : List Instr :=
  s.frames.flatMap (fun f =>
    (if f.sealing.isSome then [.frameSealEffect f.vf f.dev f.h] else []) ++ f.counts.map (fun c => .remainingCountUpdate c.dst c.src) ++
      f.deques.flatMap (fun q =>
        (if q.stolen.isSome then [.stealComplete q.die] else []) ++ (if q.thief.isSome then [.stealServe q.die] else []))) ++
    s.stores.flatMap (fun x => Instr.bucketReturn x.team ::
      (match x.parkedOn with
       | some (h, l) => if s.readNat (h + 4) 4 ≠ l then [.poolLimitWake h] else []
       | none => [])) ++
    s.ops.filterMap (fun o => match o.parkedOn with
      | some (.pool h l none) => if s.readNat (h + 4) 4 ≠ l then some (.poolLimitWake h) else none
      | _ => none)

/-- Launches, teams and their places (R76, R126, R131, R132, R142, R300, R308). -/
def State.placeEnabled (s : State) : List Instr :=
  s.launches.flatMap (fun l => [.teamPlacement l.id, .launchComplete l.id, .preemptDecision l.id] ++
    (if l.queues = [] then [] else [.pipelineDrain l.id])) ++
    (s.rows.map (fun r => Instr.queueRowLaunch r.launch r.die r.queue)).eraseDups ++
    s.teams.flatMap (fun t => match t.state with
      | .stopping => [.preempt t.id]
      | .saving => if t.discard then [.preempt t.id] else [.teamSaveDone t.id]
      | .saved => if t.discard then [.preempt t.id] else if t.rejoin then [.teamRestore t.id] else []
      | _ => [])

/-- Arbiters, ways and leave (R101, R105, R113). -/
def State.arbiterEnabled (s : State) : List Instr :=
  (s.requests.map (fun r => Instr.arbiterGrant r.arb)).eraseDups ++
    (s.fabWaiting.filterMap (fun m => (s.portOf m.dst).map (fun p => Instr.arbiterGrant (arbOf 7 p)))).eraseDups ++
    (s.slices.filter (fun x => (x.borrowed s.epoch).isSome)).map (fun x => .wayReclaimEviction x.id) ++
    ((s.leaves.filter (fun l => !l.granted)).map (fun l => Instr.leaveGrant l.die)).eraseDups

/-- Messages of a direction that may be sent, and what its receiver has to say (R7–R9, R19, R20). -/
def LinkDir.enabled (d : LinkDir) : List Instr :=
  let last := (d.rx.seq + 4095) % 4096
  (d.relay.filter (fun m => d.relay.find? m.sameStream = some m)).eraseDups.map (fun m =>
      .linePacketSend { dir := d.dir, src := m.src, dst := m.dst, cls := m.cls, perr := false } m.line) ++
    (if d.wire = [] then [] else [.linePacketReceive { dir := d.dir, perr := false }]) ++ (if d.resync.isSome then [.resync d.dir] else []) ++
    (if d.held.any (fun x => decide (x.seq = last)) then [.cumulativeAcknowledgement d.dir last] else [])

/-- Translation, migration and links (R9, R19, R20, R240, R243, R255–R257). -/
def State.memoryEnabled (s : State) : List Instr :=
  (s.pf.filter (fun p => decide (0x120000 ≤ p.1 ∧ p.1 < 0x128000 ∧ p.1 % 0x40 = 0x28) && p.2.getLsbD 31)).map
      (fun p => .invalidateDone ((p.1 - 0x120000) / 0x40)) ++
    ((s.faults.filter (fun f => f.tag.isNone)).map (fun f => Instr.faultPost f.vf)).eraseDups ++
    (if s.hot = [] then (List.range 4).flatMap (fun d => (s.heats d).zipIdx.map (fun t => .heatFlush d t.2)) else [.heatFlush 0 0]) ++
    (if s.moves = [] then [] else [.moveRelease]) ++ (if bits (s.pfGet 0x114008) 31 1 = 1 then [.migrationRecord] else []) ++
    s.linkDirs.flatMap LinkDir.enabled ++
    (s.oppPaths.filter (fun p => decide (p.outstanding = 0 ∧ (p.held ≠ [] ∨ p.viaHub ≠ s.oppVia p.die)))).map
      (fun p => .oppPathSwitch p.die)

/-- Queues, task decrements and presents (R39, R72, R76–R78, R81, R121). -/
def State.queueEnabled (s : State) : List Instr :=
  s.queues.flatMap (fun x =>
    (if s.queueState x.vf x.q = 1 ∧ s.head x.vf x.q ≠ x.tail then
       [.launch x.vf x.q, .signal x.vf x.q, .waitmem x.vf x.q, .counter x.vf x.q, .nopRecord x.vf x.q, .badOpRecord x.vf x.q] else []) ++
    (x.records.filter (fun r => r.result.isNone && !r.started)).map (fun r => .recordStart x.vf x.q r.seq) ++
    (if (x.records.head?).any (fun r => r.result.isSome) then [.completionWrite x.vf x.q] else []) ++
    (if s.queueState x.vf x.q = 3 then [.abortDone x.vf x.q] else [])) ++
    (if s.decs = [] then [] else [.taskDecrement]) ++ (if s.presents = [] then [] else [.frameRecordRead])

/-- Events that may come about now (log entry 2). -/
def State.enabled (s : State) : List Instr :=
  if !s.mgmt.powered then []
  else if s.mgmt.stage < 5 then (if s.recovery || s.fatal then [] else [.startupStageDone true])
  else if !s.running then []
  else
    s.groups.flatMap s.groupEnabled ++ s.coherenceEnabled ++ s.ops.flatMap State.opEnabled ++
      s.tileOps.map (fun t => .singlePoint t.id) ++ s.frameEnabled ++
      s.placeEnabled ++ s.arbiterEnabled ++ s.memoryEnabled ++ s.queueEnabled

/-! ### Events that come about at a time -/

/-- The next events of a port (R41, R43, R58). -/
def State.portTimed (s : State) (x : Port) : List (Nat × Instr) :=
  let p := x.port
  let v := s.vtotal p
  let next := x.map.length + x.bands.length
  (match x.finishing with
   | some c => (match c.bands with
     | w :: _ => [(s.lineAt x ((if x.latched then (0 : Int) else -(v : Int)) + 16 * ((w.band : Int) - 2)), .bandDeadline p w.band)]
     | [] => [])
   | none => (match x.building, x.bands with
     | some _, w :: _ => [(s.buildLine x (16 * ((w.band : Int) - 2)), .bandDeadline p w.band)]
     | _, _ => [])) ++
    (if x.latched then [(x.line0At + x.frameLen, .line0Start p)]
     else
       (if s.sgOn && s.ringmaster && decide (s.swapPorts.head? = some p) && s.swap.decision.isNone then
          [(s.lineAt x (s.cutoffOf x), .cutoffLine)] else []) ++
       [(s.lineAt x ((v : Int) - 64), .latchLine p)]) ++
    (if x.building.isSome && decide (next < s.bandCount p ∧ x.bands.length < 2) then
       [(s.buildLine x (16 * ((next : Int) - 4)), .bandWindowOpen p next)] else [])

/-- What a slot of a group waits for until a time: the end of a sleep, or the next read of a line without a monitor (R140, R365). -/
def Group.slotTimed (g : Group) : List (Nat × Instr) :=
  [false, true].flatMap (fun b => match (g.slot b).wait with
    | .sleep n => [(n, .sleepExpiry g.id b)]
    | .monitor _ false _ _ c => [(c + 1800, .monitorRecheck g.id b)]
    | _ => [])

/-- The time limits of a group (R273, R277, R297). -/
def Group.timed (g : Group) : List (Nat × Instr) :=
  (if g.trapB.isSome then [(g.trapAt + 65536, .watchdog g.id)] else []) ++ g.slotTimed ++
    (g.anchorLimit.map (fun t => (t, Instr.anchorTimeout g.id))).toList ++
    (match g.window with
     | some w => (match w.delayedAt with
       | some c => if w.atoms.all (fun k => g.anchors.contains k) then [] else [(c + 512, .atomHoldTimeout g.id)]
       | none => [])
     | none => [])

/-- Placement: reservations, swap-outs and rows that age (R127, R131, R139). -/
def State.placeTimed (s : State) : List (Nat × Instr) :=
  (if s.resvWait = 0 then [] else s.waiters.filterMap (fun w =>
    if s.reserved.any (fun r => r.for_ w) || (s.choosePlace w).isSome then none
    else w.since.map (fun t => (t + 256 * s.resvWait, Instr.reservationTimeout w.launch)))) ++
    s.teams.flatMap (fun t => match t.idleSince with
      | some c => if s.swapWait = 0 then [] else [(c + 1024 * s.swapWait, .swapOut t.id)]
      | none => []) ++
    s.rows.flatMap (fun r => match ((s.launch? r.launch).bind (fun l => l.queues[r.queue]?)) with
      | some q =>
        if q.age = 0 ∨ r.aged = true ∨ (s.rowsOf r.launch r.die r.queue).head? ≠ some r then []
        else [(r.born + 256 * q.age, .rowAgeLimit r.launch r.die r.queue)]
      | none => [])

/-- The mesh: an output with an eligible head when it is free, and heads that become promoted (R110, R111). -/
def State.meshTimed (s : State) : List (Nat × Instr) :=
  ((s.meshHeads.map (fun h => h.output)).eraseDups.flatMap (fun o =>
    let hs := s.meshHeads.filter (fun h => h.output = o)
    let t := hs.foldl (fun t h => min t (max h.asOf (s.meshOut o).freeAt)) (max ((hs.head?).elim 0 (·.asOf)) (s.meshOut o).freeAt)
    if hs.any (s.by_ t).eligible then [(t, .meshOutputArbitration o)] else [])) ++
    (s.meshHeads.filter (fun h => s.eligible h && !s.promoted h && decide (s.meshPromote h.output ≠ 0))).map (fun h =>
      (h.asOf + (s.meshPromote h.output - h.age), .headPromoted h.output h.input))

/-- Waiters without a monitor in queues and on pools (R140). -/
def State.recheckTimed (s : State) : List (Nat × Instr) :=
  s.queues.flatMap (fun x => x.records.filterMap (fun r =>
    if r.op = .waitmem ∧ r.started = true ∧ r.result.isNone then r.checkAt.map (fun c => (c + 1800, Instr.recordStart x.vf x.q r.seq))
    else none)) ++
    s.ops.filterMap (fun o => match o.parkedOn with
      | some (.pool h _ (some c)) => some (c + 1800, .poolLimitWake h)
      | _ => none)

/-- Events with the cycle at which they come about. -/
def State.timed (s : State) : List (Nat × Instr) :=
  if !s.running then []
  else
    [(256 * (s.epoch + 1), .epochBoundary)] ++ s.groups.flatMap Group.timed ++
      s.teams.flatMap (fun t => t.savedGroups.flatMap Group.slotTimed) ++ s.recheckTimed ++ s.placeTimed ++
      s.raysIdle.map (fun p => (p.2 + 256, .traceBurstIdle p.1)) ++ s.meshTimed ++
      s.linkLayers.filterMap (fun l => l.training.map (fun t => (t + 18000, Instr.linkOutOfService l.link))) ++
      (s.ports.filter (fun x => s.portOn x.port)).flatMap s.portTimed

/-! ### What comes next -/

inductive Plan where
  | event (i : Instr) (s : State)
  | issue (s : State)
  | idle (s : State)

/-- The earliest of the timed events, the first listed among equals. -/
def earliest : List (Nat × Instr) → Option (Nat × Instr)
  | [] => none
  | x :: xs =>
    match earliest xs with
    | some y => if x.1 ≤ y.1 then some x else some y
    | none => some x

/-- An entry of a list by a number modulo its length. -/
def pickFrom {α : Type} (xs : List α) (k : Nat) : Option α := xs[k % xs.length]?

/-- The group of a number among those that may issue. -/
def State.nextGroup (s : State) (k : Nat) : Option Group := pickFrom s.picks k

/-- A plan that names what comes next (log entry 2): an event by its number, the earliest timed one included, or a group by
its number. -/
def State.planBy (s : State) (events : Bool) (k : Nat) : Plan :=
  if events then
    match pickFrom (s.enabled ++ ((earliest s.timed).map (·.2)).toList) k with
    | some e => .event e s
    | none => .idle { s with cycle := s.cycle + 1 }
  else
    match s.nextGroup k with
    | some g => .issue (s.takeTurn g)
    | none => .idle { s with cycle := s.cycle + 1 }

/-- The model's own interleaving (log entry 2): in even cycles an event that is due or may come about, in turn; else a group;
with neither, the earliest timed event. -/
def State.ownPlan (s : State) : Plan :=
  let due := (s.timed.filter (fun x => decide (x.1 ≤ s.cycle))).map (·.2) ++ s.enabled
  let on : State := { s with cycle := s.cycle + 1 }
  let event (other : Plan) : Plan :=
    match pickFrom due (s.cycle / 2) with
    | some e => .event e on
    | none => other
  let group (other : Plan) : Plan :=
    match s.nextGroup (s.cycle / 2) with
    | some g => .issue (s.takeTurn g)
    | none => other
  let last : Plan :=
    match earliest s.timed with
    | some (t, e) => .event e { s with cycle := max (s.cycle + 1) t }
    | none => .idle on
  if s.cycle % 2 = 0 then event (group last) else group (event last)

/-- What comes next when no event of State.agenda waits (log entry 2): State.turns names it, and where State.turns is
empty a rule of the model's own does. -/
def State.plan (s : State) : Plan :=
  match s.turns with
  | k :: rest => { s with turns := rest }.planBy (decide (k % 2 = 1)) (k / 2)
  | [] => s.ownPlan

end Sys2Proof.Machine
end

