-- ==== Sys2Proof/Machine/Step.lean ====
section
/-!
DEFINITION. One step of the package (10 R258): an event that waits, an event that comes about, or an instruction of the
group that issues.
-/

namespace Sys2Proof.Machine

/-- An instruction of the group and slot that State.cur and State.curB name: fetched, executed, its pass charged (R100), its line
kept (R247). -/
def State.runFetched (s : State) : Host.Outcome State Fault Refusal :=
  match s.beforeFetch with
  | (u, false) => .next u
  | (u, true) =>
    match exec u.fetched u with
    | .next t => .next (u.afterFetch (State.chargeIssue u t))
    | .fault r => .fault r
    | .refused r => .refused r

/-- One step. -/
def step (s : State) : Host.Outcome State Fault Refusal :=
  match s.agenda with
  | e :: rest => exec e { s with agenda := rest }
  | [] =>
    match s.plan with
    | .event e t => exec e t
    | .issue t => t.runFetched
    | .idle t => .next t

/-- The state with one instruction placed where the next step fetches it (log entry 1). -/
def State.withFetchWord (s : State) (nbits w : Nat) : State := s.placeWord (BitVec.ofNat 32 (w % 2 ^ nbits))

end Sys2Proof.Machine
end

