-- ==== Sys2Proof/WellFormed.lean ====
section
/-!
DEFINITION. Which terms of `Instr` stand for something: the one operation code of a word that its row does not
assign (R429: `red` has no `xchg` and no `cas`), and the ranges of the operands of the events (dies, cores,
functions, queues, links, ports and register values of 00_scope.md, 01, 03 and 08 R206).
-/

namespace Sys2Proof

/-- The operands of an instruction or event are within the ranges the spec gives them. -/
def Instr.wellFormed : Instr → Bool
  | .nop => true
  | .mode _ => true
  | .modex _ => true
  | .bra _ => true
  | .brc _ _ _ _ => true
  | .brn _ _ _ => true
  | .call _ _ => true
  | .ret _ _ => true
  | .jr _ _ => true
  | .join _ => true
  | .yield => true
  | .sleep _ => true
  | .stop => true
  | .bar _ => true
  | .barc _ => true
  | .barw _ => true
  | .waitp _ _ => true
  | .settle => true
  | .add _ _ _ _ _ => true
  | .sub _ _ _ _ _ => true
  | .mul _ _ _ _ _ => true
  | .mad _ _ _ _ _ _ => true
  | .min _ _ _ _ _ => true
  | .max _ _ _ _ _ => true
  | .abs _ _ _ => true
  | .neg _ _ _ => true
  | .cmp _ _ _ _ _ _ => true
  | .sel _ _ _ _ _ => true
  | .addi _ _ _ _ => true
  | .movl _ _ => true
  | .movh _ _ _ => true
  | .mov _ _ _ => true
  | .clamp _ _ _ _ _ _ => true
  | .mulh _ _ _ _ _ => true
  | .div _ _ _ _ _ => true
  | .rem _ _ _ _ _ => true
  | .addc _ _ _ _ _ _ => true
  | .subb _ _ _ _ _ _ => true
  | .and _ _ _ _ _ => true
  | .or _ _ _ _ _ => true
  | .xor _ _ _ _ _ => true
  | .andn _ _ _ _ _ => true
  | .not _ _ _ => true
  | .shl _ _ _ _ _ => true
  | .shr _ _ _ _ _ => true
  | .rot _ _ _ _ _ => true
  | .shli _ _ _ _ => true
  | .shri _ _ _ _ => true
  | .andi _ _ _ _ => true
  | .ori _ _ _ _ => true
  | .xori _ _ _ _ => true
  | .bfe _ _ _ _ _ => true
  | .bfi _ _ _ _ _ _ => true
  | .popc _ _ _ => true
  | .clz _ _ _ => true
  | .ctz _ _ _ => true
  | .brev _ _ _ => true
  | .perm _ _ _ _ _ _ => true
  | .lea _ _ _ _ _ => true
  | .rcp _ _ _ => true
  | .rsq _ _ _ => true
  | .sqrt _ _ _ => true
  | .exp2 _ _ _ => true
  | .log2 _ _ _ => true
  | .sin _ _ _ => true
  | .cos _ _ _ => true
  | .fract _ _ _ => true
  | .rnd _ _ _ => true
  | .ldexp _ _ _ _ _ => true
  | .frexpm _ _ _ => true
  | .frexpe _ _ _ => true
  | .fpClass _ _ _ _ _ => true
  | .cvt _ _ _ _ => true
  | .pack _ _ _ => true
  | .unpack _ _ _ => true
  | .copysign _ _ _ _ _ => true
  | .dot2 _ _ _ _ _ _ => true
  | .shfl _ _ _ _ _ => true
  | .shflx _ _ _ _ _ => true
  | .shflu _ _ _ _ _ => true
  | .shfld _ _ _ _ _ => true
  | .pfold _ _ _ _ => true
  | .ballot _ _ _ => true
  | .rdfirst _ _ _ => true
  | .rdlane _ _ _ _ _ => true
  | .wrlane _ _ _ _ _ _ => true
  | .matchLanes _ _ _ => true
  | .reduce _ _ _ _ => true
  | .scan _ _ _ _ _ => true
  | .aff _ _ _ _ _ => true
  | .shape _ _ _ => true
  | .gen _ _ _ => true
  | .uni _ _ _ => true
  | .ld _ _ _ _ _ => true
  | .st _ _ _ _ _ _ => true
  | .ldb _ _ _ _ _ => true
  | .stb _ _ _ _ _ => true
  | .lds _ _ _ _ _ => true
  | .sts _ _ _ _ _ _ => true
  | .ldw _ _ _ _ _ => true
  | .stw _ _ _ _ _ _ => true
  | .atom _ _ _ _ _ _ => true
  | .red _ _ op _ _ => decide (op ≠ .xchg) && decide (op ≠ .cas)
  | .atoms _ _ _ _ _ _ => true
  | .pref _ _ _ _ => true
  | .ldone _ _ _ _ _ => true
  | .wopen _ _ _ _ => true
  | .wclose _ _ => true
  | .fence _ => true
  | .waitc _ _ _ _ => true
  | .ticket _ _ _ => true
  | .serve _ _ => true
  | .waitt _ _ _ _ => true
  | .taskdec _ _ _ => true
  | .mcfg _ _ => true
  | .mma _ _ => true
  | .mloop _ _ => true
  | .mrd _ _ _ _ _ => true
  | .mwr _ _ _ _ _ _ => true
  | .mclr _ _ => true
  | .mcvt _ _ _ _ => true
  | .copy _ _ => true
  | .copyt _ _ => true
  | .bin _ _ => true
  | .dice _ _ => true
  | .gld _ _ _ _ _ => true
  | .gst _ _ _ _ _ _ => true
  | .rast5 _ _ _ _ _ => true
  | .rast3 _ _ _ _ _ => true
  | .swr _ _ _ _ => true
  | .resolve _ _ => true
  | .trace _ _ _ _ _ => true
  | .regroup _ _ _ _ => true
  | .enq _ _ => true
  | .sample _ _ _ _ _ => true
  | .sampleg _ _ _ _ _ => true
  | .bktOpen _ _ _ => true
  | .bktSeal _ _ => true
  | .bktClaim _ _ _ => true
  | .bktClose _ _ _ => true
  | .bktFree _ _ => true
  | .xst _ _ _ _ _ _ => true
  | .present _ _ => true
  | .csrr _ _ => true
  | .csrw _ _ _ => true
  | .trap _ => true
  | .rft _ => true
  | .save _ _ => true
  | .rest _ _ => true
  | .watchdog _ => true
  | .sleepExpiry _ _ => true
  | .forcedSwitch _ => true
  | .producerComplete _ _ => true
  | .windowCommit _ => true
  | .anchorGrant _ _ => true
  | .anchorTimeout _ => true
  | .atomHoldTimeout _ => true
  | .ownershipRequest core _ => decide (core < 256)
  | .ownershipGrant core _ => decide (core < 256)
  | .invalidation _ _ => true
  | .invalidationAcknowledgement core _ => decide (core < 256)
  | .homeAtomicPerform _ => true
  | .activeMessage core => decide (core < 256)
  | .monitorWake _ => true
  | .monitorRecheck _ _ => true
  | .engineOpStart _ => true
  | .singlePoint _ => true
  | .diceService die cluster => decide (die < 4) && decide (cluster < 16)
  | .binPerform _ => true
  | .poolLimitWake _ => true
  | .frameSealEffect vf dev h => decide (vf < 512) && decide (dev < 4) && decide (h < 4)
  | .resolveStart _ => true
  | .resolveComplete _ => true
  | .bucketReturn _ => true
  | .remainingCountUpdate die src => decide (die < 4) && decide (src < 4)
  | .stealServe die => decide (die < 4)
  | .stealComplete die => decide (die < 4)
  | .taskDecrement => true
  | .teamPlacement _ => true
  | .reservationTimeout _ => true
  | .queueRowLaunch _ die _ => decide (die < 4)
  | .rowAgeLimit _ die _ => decide (die < 4)
  | .pipelineDrain _ => true
  | .swapOut _ => true
  | .preemptDecision _ => true
  | .preempt _ => true
  | .teamSaveDone _ => true
  | .teamRestore _ => true
  | .leaveGrant die => decide (die < 4)
  | .traceBurstIdle core => decide (core < 256)
  | .epochBoundary => true
  | .arbiterGrant _ => true
  | .meshOutputArbitration _ => true
  | .headPromoted _ _ => true
  | .wayReclaimEviction _ => true
  | .invalidate vf => decide (vf < 512)
  | .invalidateDone vf => decide (vf < 512)
  | .faultPost vf => decide (vf < 512)
  | .translationResume vf _ => decide (vf < 512)
  | .heatFlush die _ => decide (die < 4)
  | .moveRelease => true
  | .mrtailWrite v => decide (v < 2 ^ 32)
  | .migrationRecord => true
  | .patrolScrub _ errs => decide (errs ≤ 68)
  | .dieLinkFlitCrcFail link => decide (link < 8)
  | .linkRetrain link => decide (link < 8)
  | .linkRetrainDone link => decide (link < 8)
  | .linkOutOfService link => decide (link < 8)
  | .linePacketSend p _ => decide (p.dir < 16 ∧ p.src < 5 ∧ p.dst < 5 ∧ p.cls < 4)
  | .linePacketReceive p => decide (p.dir < 16)
  | .resync dir => decide (dir < 16)
  | .cumulativeAcknowledgement dir _ => decide (dir < 16)
  | .dlctlWrite link v => decide (link < 16) && decide (v < 2 ^ 32)
  | .oppPathSwitch die => decide (die < 4)
  | .fabricFlitCrcFail port => decide (port < 8)
  | .xstArrival _ payload => decide (payload.length ≤ 32)
  | .xack _ _ => true
  | .arrive _ => true
  | .release _ => true
  | .repeatDecision _ => true
  | .time _ => true
  | .headerFlitDiscard _ => true
  | .frouteWrite dev v => decide (dev < 64) && decide (v < 2 ^ 32)
  | .powerOn => true
  | .startupStageDone _ => true
  | .thermalThrottle die => decide (die < 4)
  | .thermalThrottleEnd die => decide (die < 4)
  | .thermalTrip => true
  | .dpctlWrite port v => decide (port < 4) && decide (v < 2 ^ 32)
  | .dpLinkTrained port => decide (port < 4)
  | .dpLinkLost port => decide (port < 4)
  | .frameRecordRead => true
  | .line0Start port => decide (port < 4)
  | .latchLine port => decide (port < 4)
  | .cutoffLine => true
  | .bandWindowOpen port band => decide (port < 4) && decide (band < 512)
  | .bandDeadline port band => decide (port < 4) && decide (band < 512)
  | .genlockLocked r => decide (r.port < 4 ∧ r.tri < 2)
  | .genlockLost port => decide (port < 4)
  | .doorbellWrite vf q v => decide (vf < 512) && decide (q < 64) && decide (v < 2 ^ 32)
  | .tailLineInvalidate vf q => decide (vf < 512) && decide (q < 64)
  | .queueEnable vf q => decide (vf < 512) && decide (q < 64)
  | .destroy vf q => decide (vf < 512) && decide (q < 64)
  | .abort vf q => decide (vf < 512) && decide (q < 64)
  | .resume vf q => decide (vf < 512) && decide (q < 64)
  | .abortDone vf q => decide (vf < 512) && decide (q < 64)
  | .ackedWrite vf q v => decide (vf < 512) && decide (q < 64) && decide (v < 2 ^ 32)
  | .launch vf q => decide (vf < 512) && decide (q < 64)
  | .signal vf q => decide (vf < 512) && decide (q < 64)
  | .waitmem vf q => decide (vf < 512) && decide (q < 64)
  | .counter vf q => decide (vf < 512) && decide (q < 64)
  | .nopRecord vf q => decide (vf < 512) && decide (q < 64)
  | .recordStart vf q _ => decide (vf < 512) && decide (q < 64)
  | .launchComplete _ => true
  | .completionWrite vf q => decide (vf < 512) && decide (q < 64)
  | .vfFunctionLevelReset vf => decide (vf < 512)
  | .pfFunctionLevelReset => true
  | .hotReset => true
  | .readLifetimeRecord => true
  | .writeFirmwareImage => true
  | .commitSvn => true
  | .writeConfigurationRecord => true
  | .displayLinkQuery => true
  | .securityAlarm cause => decide (cause < 3)
  | .firmwareRemeasurement _ => true
  | .lifetimeRecordRewrite => true
  | .spdmRequest _ => true
  | .hostCxlCacheAccess _ _ data => decide (data.length ≤ 128)
  | .hostCxlMemAccess _ _ data => decide (data.length ≤ 128)
  | .bar2Access _ _ data => decide (data.length ≤ 128)
  | .vfbindWrite owner v => decide (owner < 512) && decide (v < 2 ^ 32)
  | .shareEntryWrite _ v => decide (v < 2 ^ 32)
  | .taskallotWrite vf v => decide (vf < 512) && decide (v < 2 ^ 32)
  | .vfmodeWrite vf v => decide (vf < 512) && decide (v < 2 ^ 32)
  | .boothallotWrite vf v => decide (vf < 512) && decide (v < 2 ^ 32)
  | .savecntWrite vf v => decide (vf < 512) && decide (v < 2 ^ 32)
  | .registerWrite _ v => decide (v < 2 ^ 32)
  | .illegalOpcode _ => true
  | .instructionFetchFault => true
  | .internalUncorrectableError => true
  | .powerOff => true
  | .frheadWrite vf v => decide (vf < 512) && decide (v < 2 ^ 32)
  | .pcieReadReturn _ => true
  | .badOpRecord vf q => decide (vf < 512) && decide (q < 64)
  | .mailboxBadCommand code => decide ((code = 0 ∨ 5 < code) ∧ code < 2 ^ 32)

end Sys2Proof
end

