-- ==== Sys2Proof/Machine/Assembler.lean ====
section
/-!
DEFINITION. The assembler `osas` (13_isa_encoding.md R348–R354): source lines, operands, expressions, the refusals of R352, the
directives and the kernel descriptor (05 R116, R117). It is a function of the source alone and no part of the machine's step.
Readings the rules leave to the model are in log entry 55.
-/

namespace Sys2Proof.Machine

open Sys2Proof

/-! ### Results -/

/-- Why a line is refused (R352, R353). -/
inductive AsmError where
  /-- The line has not the form that R348 to R350 or R353 give it. -/
  | malformed
  /-- No mnemonic, suffix, keyword or special register has this name. -/
  | unknownName (name : String)
  /-- The line would decode to ILLEGAL_OPCODE (R340). -/
  | illegalOpcode
  /-- The line would raise ILLEGAL_REGISTER under the kernel's `.regs`, as far as the line fixes it. -/
  | illegalRegister
  /-- An immediate, an offset or a directive's operand lies outside its limits (R341, R353). -/
  | outOfRange
  /-- A memory offset is no multiple of the access size, or an address no multiple of what it must be one of. -/
  | misaligned
  | undefinedLabel (name : String)
  | definedTwice (name : String)
  /-- An instruction outside `.kernel` … `.kend`, or a directive where R353 does not allow it. -/
  | misplaced
  /-- The kernel's directives break R117. -/
  | badKernel
  deriving DecidableEq, Repr

/-- An image: the virtual address of its first byte (`.base`), its bytes, and the lines refused, by number from 1. -/
structure AsmImage where
  base : Nat
  bytes : List Byte
  refused : List (Nat × AsmError)
  deriving DecidableEq, Repr

/-! ### Characters, numbers and expressions (R348) -/

def asmBlank (c : Char) : Bool := c == ' ' || c == '\t' || c == '\r'

def asmTrim (s : List Char) : List Char := ((s.dropWhile asmBlank).reverse.dropWhile asmBlank).reverse

def asmLetter (c : Char) : Bool := c.isAlpha || c == '_'

def asmNameChar (c : Char) : Bool := asmLetter c || c.isDigit

/-- Parts of a text between the places of a separator. -/
def asmSplit (sep : Char) : List Char → List (List Char)
  | [] => [[]]
  | c :: cs =>
    match asmSplit sep cs with
    | p :: ps => if c == sep then [] :: p :: ps else (c :: p) :: ps
    | [] => [[]]

/-- Words of a text between blanks. -/
def asmWords (s : List Char) : List (List Char) :=
  (asmSplit ' ' (s.map (fun c => if asmBlank c then ' ' else c))).filter (fun p => !p.isEmpty)

def asmDigit (radix : Nat) (c : Char) : Option Nat :=
  let v := if c.isDigit then c.toNat - 48
    else if 'a' ≤ c ∧ c ≤ 'f' then c.toNat - 87
    else if 'A' ≤ c ∧ c ≤ 'F' then c.toNat - 55
    else 99
  if v < radix then some v else none

/-- Digits of a radix, an underscore allowed between two of them. -/
def asmDigits (radix : Nat) (acc : Nat) (after : Bool) : List Char → Option Nat
  | [] => if after then some acc else none
  | c :: cs =>
    if c == '_' then (if after then asmDigits radix acc false cs else none)
    else
      match asmDigit radix c with
      | some d => asmDigits radix (acc * radix + d) true cs
      | none => none

def asmNat : List Char → Option Nat
  | '0' :: 'x' :: cs => asmDigits 16 0 false cs
  | cs => asmDigits 10 0 false cs

def asmNumber : List Char → Option Int
  | '-' :: cs => (asmNat cs).map (fun n => - (n : Int))
  | cs => (asmNat cs).map (fun n => (n : Int))

/-- A label plus a number, or a number alone. -/
structure AsmExpr where
  label : Option String
  num : Int
  deriving DecidableEq, Repr

def asmExpr (text : List Char) : Option AsmExpr :=
  let s := asmTrim text
  match s with
  | [] => none
  | c :: _ =>
    if asmLetter c then
      let l := some (String.ofList (s.takeWhile asmNameChar))
      match asmTrim (s.dropWhile asmNameChar) with
      | [] => some { label := l, num := 0 }
      | '+' :: r => (asmNumber (asmTrim r)).map (fun n => { label := l, num := n })
      | '-' :: r => (asmNumber (asmTrim r)).map (fun n => { label := l, num := -n })
      | _ => none
    else (asmNumber s).map (fun n => { label := none, num := n })

/-- What a pass knows of the labels: their addresses as the pass before left them (none in the first pass, where every label
stands for the place it is named at), and where the data area begins. -/
structure AsmEnv where
  labels : Option (List (String × Nat))
  dataStart : Nat
  deriving DecidableEq, Repr

def AsmEnv.label (env : AsmEnv) (here : Nat) (l : String) : Except AsmError Nat :=
  match env.labels with
  | none => .ok here
  | some ls => match ls.lookup l with | some v => .ok v | none => .error (.undefinedLabel l)

/-- Value of an expression at an address. -/
def AsmEnv.value (env : AsmEnv) (here : Nat) (text : List Char) : Except AsmError Int :=
  match asmExpr text with
  | none => .error .malformed
  | some e =>
    match e.label with
    | none => .ok e.num
    | some l => (env.label here l).map (fun v => (v : Int) + e.num)

/-- Value of an expression within limits. -/
def AsmEnv.within (env : AsmEnv) (here : Nat) (lo hi : Int) (text : List Char) : Except AsmError Int :=
  (env.value here text).bind (fun v => if lo ≤ v ∧ v ≤ hi then .ok v else .error .outOfRange)

/-! ### Operands (R349) -/

/-- Register names that a line fixes as one operand: the first, how many, and what its number is a multiple of. -/
abbrev AsmSpan := RegName × Nat × Nat

/-- Text of one instruction line: its suffixes and operands, where it stands, and the labels. -/
structure AsmText where
  sfx : List String
  ops : List (List Char)
  here : Nat
  env : AsmEnv

/-- An instruction with the register operands its line fixes. -/
abbrev AsmBuilt := Except AsmError (Instr × List AsmSpan)

/-- Number after a letter, in decimal without a leading zero, below a bound. -/
def asmIndex (ds : List Char) (bound : Nat) : Option Nat :=
  match ds with
  | [] => none
  | c :: cs =>
    if c == '0' && !cs.isEmpty || ds.any (fun x => !x.isDigit) then none
    else (asmDigits 10 0 false ds).bind (fun n => if n < bound then some n else none)

/-- A register with its trap mark. -/
def asmSource (text : List Char) : Except AsmError (RegName × Bool) :=
  let s := asmTrim text
  let t := s.getLast? == some '!'
  let r := if t then asmTrim s.dropLast else s
  let n := match r with
    | 'v' :: ds => asmIndex ds 120
    | 'h' :: ds => (asmIndex ds 8).map (· + 120)
    | _ => none
  match n with
  | some n => .ok (BitVec.ofNat 7 n, t)
  | none => .error .malformed

/-- A register whose field has no trap bit: the mark is refused. -/
def asmReg (text : List Char) : Except AsmError RegName :=
  (asmSource text).bind (fun r => if r.2 then .error .illegalOpcode else .ok r.1)

/-- A predicate with its negation. -/
def asmPred (text : List Char) : Except AsmError (PredName × Bool) :=
  let s := asmTrim text
  let n := s.head? == some '!'
  match asmTrim (if n then s.drop 1 else s) with
  | 'p' :: ds => match asmIndex ds 8 with | some k => .ok (BitVec.ofNat 3 k, n) | none => .error .malformed
  | _ => .error .malformed

/-- A predicate that has no negated form. -/
def asmPlainPred (text : List Char) : Except AsmError PredName :=
  (asmPred text).bind (fun p => if p.2 then .error .malformed else .ok p.1)

/-- Inside of a memory operand: the register's text and the offset's, when one is written. -/
def asmBrackets (text : List Char) : Except AsmError (List Char × Option (List Char)) :=
  match asmTrim text with
  | '[' :: cs =>
    if cs.getLast? == some ']' then
      let s := cs.dropLast
      if s.contains '+' then .ok (s.takeWhile (fun c => c != '+'), some ((s.dropWhile (fun c => c != '+')).drop 1))
      else .ok (s, none)
    else .error .malformed
  | _ => .error .malformed

/-- `[vA]`. -/
def asmPlace (text : List Char) : Except AsmError (RegName × Bool) :=
  (asmBrackets text).bind (fun p => if p.2.isSome then .error .malformed else asmSource p.1)

/-- `[vA + off]` or `[vA]`, the offset in bytes of a size. -/
def asmMemory (x : AsmText) (size : Nat) (text : List Char) : Except AsmError (RegName × Bool × BitVec 6) :=
  (asmBrackets text).bind (fun p => (asmSource p.1).bind (fun a =>
    match p.2 with
    | none => .ok (a.1, a.2, 0)
    | some o => (x.env.value x.here o).bind (fun v =>
      if v % (size : Int) ≠ 0 then .error .misaligned
      else if -32 ≤ v / (size : Int) ∧ v / (size : Int) ≤ 31 then .ok (a.1, a.2, BitVec.ofInt 6 (v / (size : Int)))
      else .error .outOfRange)))

/-- Word offset to a label, in a field of `n` bits. -/
def asmTarget (x : AsmText) (n : Nat) (text : List Char) : Except AsmError (BitVec n) :=
  match asmExpr text with
  | some { label := some l, num := 0 } =>
    (x.env.label x.here l).bind (fun v =>
      let d := (v : Int) - (x.here : Int)
      if d % 4 ≠ 0 then .error .misaligned
      else if -(2 ^ (n - 1) : Int) ≤ d / 4 ∧ d / 4 < (2 ^ (n - 1) : Int) then .ok (BitVec.ofInt n (d / 4))
      else .error .outOfRange)
  | _ => .error .malformed

def AsmText.imm (x : AsmText) (n : Nat) (lo hi : Int) (text : List Char) : Except AsmError (BitVec n) :=
  (x.env.within x.here lo hi text).map (fun v => BitVec.ofInt n v)

/-- Lookup of a word in a table of names. -/
def asmNamed {α : Type} (table : List (String × α)) (w : String) : Except AsmError α :=
  match table.lookup w with
  | some v => .ok v
  | none => .error (.unknownName w)

def asmWord (text : List Char) : String := String.ofList (asmTrim text)

def asmOne (r : RegName) : AsmSpan := (r, 1, 1)
def asmPair (r : RegName) : AsmSpan := (r, 2, 2)
def asmQuad (r : RegName) : AsmSpan := (r, 4, 4)

/-- The span of a number of names, a pair or a quad being aligned (R339). -/
def asmNames (n : Nat) (r : RegName) : AsmSpan := (r, n, if n = 2 ∨ n = 4 then n else 1)

/-- A form without suffixes. -/
def asmBare (f : List (List Char) → AsmBuilt) (x : AsmText) : AsmBuilt :=
  match x.sfx with
  | [] => f x.ops
  | s :: _ => .error (.unknownName s)

/-! ### Forms of the instructions (R349, R356, R372, R383, R403, R420, R459, R468, R488) -/

/-- No operand. -/
def asmPlain (i : Instr) : AsmText → AsmBuilt :=
  asmBare (fun ops => if ops.isEmpty then .ok (i, []) else .error .malformed)

/-- `op vD, vA, vB`. -/
def asmThree (fd fa fb : RegName → AsmSpan) (c : RegName → RegName → RegName → Bool → Bool → Instr) : AsmText → AsmBuilt :=
  asmBare (fun ops => match ops with
    | [d, a, b] => (asmReg d).bind (fun d => (asmSource a).bind (fun a => (asmSource b).bind (fun b =>
        .ok (c d a.1 b.1 a.2 b.2, [fd d, fa a.1, fb b.1]))))
    | _ => .error .malformed)

/-- `op vD, vA, vB`, d read as well. -/
def asmThreeK (fd : RegName → AsmSpan) (c : RegName → RegName → RegName → Bool → Bool → Bool → Instr) : AsmText → AsmBuilt :=
  asmBare (fun ops => match ops with
    | [d, a, b] => (asmSource d).bind (fun d => (asmSource a).bind (fun a => (asmSource b).bind (fun b =>
        .ok (c d.1 a.1 b.1 a.2 b.2 d.2, [fd d.1, asmOne a.1, asmOne b.1]))))
    | _ => .error .malformed)

/-- `op vD, vA`. -/
def asmTwo (fd fa : RegName → AsmSpan) (c : RegName → RegName → Bool → Instr) : AsmText → AsmBuilt :=
  asmBare (fun ops => match ops with
    | [d, a] => (asmReg d).bind (fun d => (asmSource a).bind (fun a => .ok (c d a.1 a.2, [fd d, fa a.1])))
    | _ => .error .malformed)

/-- `op vD, vA`, d read as well. -/
def asmTwoK (fd fa : RegName → AsmSpan) (c : RegName → RegName → Bool → Bool → Instr) : AsmText → AsmBuilt :=
  asmBare (fun ops => match ops with
    | [d, a] => (asmSource d).bind (fun d => (asmSource a).bind (fun a => .ok (c d.1 a.1 a.2 d.2, [fd d.1, fa a.1])))
    | _ => .error .malformed)

/-- `op vA`. -/
def asmSingle (fa : RegName → AsmSpan) (c : RegName → Bool → Instr) : AsmText → AsmBuilt :=
  asmBare (fun ops => match ops with
    | [a] => (asmSource a).bind (fun a => .ok (c a.1 a.2, [fa a.1]))
    | _ => .error .malformed)

/-- `op vA, vB`, without a result. -/
def asmSources (c : RegName → RegName → Bool → Bool → Instr) : AsmText → AsmBuilt :=
  asmBare (fun ops => match ops with
    | [a, b] => (asmSource a).bind (fun a => (asmSource b).bind (fun b =>
        .ok (c a.1 b.1 a.2 b.2, [asmOne a.1, asmOne b.1])))
    | _ => .error .malformed)

/-- `op [vA]`. -/
def asmAt (c : RegName → Bool → Instr) : AsmText → AsmBuilt :=
  asmBare (fun ops => match ops with
    | [a] => (asmPlace a).bind (fun a => .ok (c a.1 a.2, [asmPair a.1]))
    | _ => .error .malformed)

/-- `op vD, vA, imm`, an immediate of `n` bits (R341). -/
def asmImm (n : Nat) (lo hi : Int) (c : RegName → RegName → BitVec n → Bool → Instr) (x : AsmText) : AsmBuilt :=
  asmBare (fun ops => match ops with
    | [d, a, i] => (asmReg d).bind (fun d => (asmSource a).bind (fun a => (x.imm n lo hi i).bind (fun i =>
        .ok (c d a.1 i a.2, [asmOne d, asmOne a.1]))))
    | _ => .error .malformed) x

/-- `op n`, an unsigned number of `n` bits with a limit. -/
def asmCount (n : Nat) (hi : Int) (c : BitVec n → Instr) (x : AsmText) : AsmBuilt :=
  asmBare (fun ops => match ops with
    | [i] => (x.imm n 0 hi i).map (fun i => (c i, []))
    | _ => .error .malformed) x

/-- `op label`. -/
def asmJump (c : BitVec 24 → Instr) (x : AsmText) : AsmBuilt :=
  asmBare (fun ops => match ops with
    | [l] => (asmTarget x 24 l).map (fun o => (c o, []))
    | _ => .error .malformed) x

/-- `op pX, label` (R358, R359). -/
def asmBranch (c : Bool → PredName → BitVec 19 → Instr) (x : AsmText) : AsmBuilt :=
  match x.ops with
  | [p, l] => (asmPred p).bind (fun p => (asmTarget x 19 l).map (fun o => (c p.2 p.1 o, [])))
  | _ => .error .malformed

def asmSizes : List (String × AccSize) := [("16", .b16), ("32", .b32), ("64", .b64), ("128", .b128)]

/-- The access size of a line: 32 bits when omitted. -/
def asmSize (sfx : List String) : Except AsmError AccSize :=
  match sfx with
  | [] => .ok .b32
  | [s] => asmNamed asmSizes s
  | _ => .error .malformed

/-- `op.size vD, [vA + off]`. -/
def asmLoad (fa : RegName → AsmSpan) (c : RegName → RegName → AccSize → BitVec 6 → Bool → Instr) (x : AsmText) : AsmBuilt :=
  (asmSize x.sfx).bind (fun sz => match x.ops with
    | [d, m] => (asmReg d).bind (fun d => (asmMemory x sz.bytes m).map (fun a =>
        (c d a.1 sz a.2.2 a.2.1, [asmNames sz.names d, fa a.1])))
    | _ => .error .malformed)

/-- `op.size [vA + off], vD`. -/
def asmStore (fa : RegName → AsmSpan) (c : RegName → RegName → AccSize → BitVec 6 → Bool → Bool → Instr) (x : AsmText) :
    AsmBuilt :=
  (asmSize x.sfx).bind (fun sz => match x.ops with
    | [m, d] => (asmSource d).bind (fun d => (asmMemory x sz.bytes m).map (fun a =>
        (c d.1 a.1 sz a.2.2 a.2.1 d.2, [asmNames sz.names d.1, fa a.1])))
    | _ => .error .malformed)

def asmAtomOps : List (String × AtomOp) :=
  [("add", .add), ("min", .min), ("umin", .umin), ("max", .max), ("umax", .umax), ("and", .and), ("or", .or), ("xor", .xor),
   ("xchg", .xchg), ("cas", .cas), ("inc", .inc), ("dec", .dec), ("fadd", .fadd)]

/-- Names that an atomic operation reads or writes from d (R429, R430). -/
def asmAtomNames (op : AtomOp) (w64 : Bool) : Nat := (if op = .cas then 2 else 1) * (if w64 then 2 else 1)

/-- Suffixes of an atomic operation after its name: `.64` and one more letter, in any order, neither twice. -/
def asmAtomSuffixes (letter : String) (l : List String) : Except AsmError (Bool × Bool) :=
  match l.find? (fun w => w != "64" && w != letter) with
  | some w => .error (.unknownName w)
  | none => if l.Nodup then .ok (l.contains "64", l.contains letter) else .error .malformed

/-- `atom` and `atoms`: `op vD, [vA]`, d read and written. -/
def asmAtomic (letter : String) (fa : RegName → AsmSpan) (c : RegName → RegName → Bool → AtomOp → Bool → Bool → Instr)
    (x : AsmText) : AsmBuilt :=
  match x.sfx, x.ops with
  | o :: rest, [d, a] =>
    (asmNamed asmAtomOps o).bind (fun op => (asmAtomSuffixes letter rest).bind (fun w => (asmReg d).bind (fun d =>
      (asmPlace a).map (fun a => (c d a.1 w.2 op a.2 w.1, [asmNames (asmAtomNames op w.1) d, fa a.1])))))
  | _, _ => .error .malformed

/-- `red.op [vA], vD`. -/
def asmRed (x : AsmText) : AsmBuilt :=
  match x.sfx, x.ops with
  | o :: rest, [a, d] =>
    (asmNamed asmAtomOps o).bind (fun op => (asmAtomSuffixes "64" rest).bind (fun w => (asmReg d).bind (fun d =>
      (asmPlace a).map (fun a => (.red d a.1 op a.2 w.1, [asmNames (asmAtomNames op w.1) d, asmPair a.1])))))
  | _, _ => .error .malformed

def asmTypes : List (String × MType) :=
  [("int32", .int32), ("uint32", .uint32), ("int16x2", .int16x2), ("uint16x2", .uint16x2), ("int64", .int64),
   ("uint64", .uint64), ("fp32", .fp32), ("fp16x2", .fp16x2), ("bf16x2", .bf16x2), ("fp64", .fp64), ("e4m3x4", .e4m3x4),
   ("e5m2x4", .e5m2x4), ("crumb8x4", .crumb8x4), ("int8x4", .int8x4), ("uint8x4", .uint8x4)]

def asmConds : List (String × Cond) :=
  [("eq", .eq), ("ne", .ne), ("lt", .lt), ("le", .le), ("gt", .gt), ("ge", .ge), ("un", .un), ("or", .or)]

def asmLaneOps : List (String × LaneOp) :=
  [("add", .add), ("min", .min), ("max", .max), ("and", .and), ("or", .or), ("xor", .xor)]

def asmFolds : List (String × FoldKind) := [("and", .and), ("or", .or), ("eqv", .eqv)]

def asmPaths : List (String × Path) := [("copy", .copy), ("matrix", .matrix), ("render", .render), ("queue", .queue)]

def asmScopes : List (String × Scope) :=
  [("group", .group), ("team", .team), ("core", .core), ("die", .die), ("pair", .pair), ("device", .device),
   ("package", .package), ("fabric", .fabric)]

def asmScales : List (String × BitVec 3) :=
  [("x1", 0), ("x2", 1), ("x4", 2), ("x8", 3), ("x16", 4), ("x32", 5), ("x64", 6), ("x128", 7)]

/-- Class bits of `class` (R411). -/
def asmClasses : List (String × BitVec 6) :=
  [("snan", 1), ("qnan", 2), ("inf", 4), ("norm", 8), ("sub", 16), ("zero", 32)]

/-- Special registers by name (R493). -/
def asmCsrs : List (String × BitVec 12) :=
  [("LANEID", 0x000), ("GROUPID", 0x001), ("TEAMID", 0x002), ("CORE", 0x003), ("DIE", 0x004), ("LAUNCH", 0x005),
   ("CLOCK", 0x008), ("CLOCKH", 0x009), ("MODE", 0x010), ("SRSEED", 0x011), ("SPECCOUNT", 0x012), ("PATHCOUNT0", 0x018),
   ("PATHCOUNT1", 0x019), ("PATHCOUNT2", 0x01A), ("PATHCOUNT3", 0x01B), ("TRAPCAUSE", 0x020)] ++
  [("TRAPPC", 0x021), ("TRAPPCH", 0x022), ("TRAPMASK", 0x023), ("TRAPMASKH", 0x024), ("TRAPDEST", 0x025), ("TRAPMODE", 0x026),
   ("TRAPBASE", 0x027), ("TRAPBASEH", 0x028), ("TRAPRES", 0x029)]

/-- `call vD, label`. -/
def asmCall (x : AsmText) : AsmBuilt :=
  asmBare (fun ops => match ops with
    | [d, l] => (asmReg d).bind (fun d => (asmTarget x 16 l).map (fun o => (.call d o, [asmPair d])))
    | _ => .error .malformed) x

/-- `waitp path, N`. -/
def asmWaitp (x : AsmText) : AsmBuilt :=
  asmBare (fun ops => match ops with
    | [p, n] => (asmNamed asmPaths (asmWord p)).bind (fun p => (x.imm 14 0 16383 n).map (fun n => (.waitp p n, [])))
    | _ => .error .malformed) x

/-- `cmp.cc pX, vD, vA` and `cmp.cc.any`. -/
def asmCmp (x : AsmText) : AsmBuilt :=
  let go (any : Bool) (cc : String) : AsmBuilt :=
    match x.ops with
    | [p, d, a] => (asmNamed asmConds cc).bind (fun cc => (asmPlainPred p).bind (fun p => (asmReg d).bind (fun d =>
        (asmSource a).map (fun a => (.cmp d a.1 any cc a.2 p, [asmOne d, asmOne a.1])))))
    | _ => .error .malformed
  match x.sfx with
  | [cc] => go false cc
  | [cc, "any"] => go true cc
  | _ => .error .malformed

/-- `sel vD, vA, pX`. -/
def asmSel (x : AsmText) : AsmBuilt :=
  asmBare (fun ops => match ops with
    | [d, a, p] => (asmReg d).bind (fun d => (asmSource a).bind (fun a => (asmPred p).map (fun p =>
        (.sel d a.1 p.2 a.2 p.1, [asmOne d, asmOne a.1]))))
    | _ => .error .malformed) x

/-- `movl vD, imm`. -/
def asmMovl (x : AsmText) : AsmBuilt :=
  asmBare (fun ops => match ops with
    | [d, i] => (asmReg d).bind (fun d => (x.imm 16 0 65535 i).map (fun i => (.movl d i, [asmOne d])))
    | _ => .error .malformed) x

/-- `movh vD, imm`. -/
def asmMovh (x : AsmText) : AsmBuilt :=
  asmBare (fun ops => match ops with
    | [d, i] => (asmSource d).bind (fun d => (x.imm 16 0 65535 i).map (fun i => (.movh d.1 i d.2, [asmOne d.1])))
    | _ => .error .malformed) x

/-- `lea.xS vD, vA`, `lea.xS.z vD, vA`; `lea vD, vA` is `.x1` (R402). -/
def asmLea (x : AsmText) : AsmBuilt :=
  let go (zx : Bool) (sc : String) : AsmBuilt :=
    match x.ops with
    | [d, a] => (asmNamed asmScales sc).bind (fun sh => (asmReg d).bind (fun d => (asmSource a).map (fun a =>
        (.lea d a.1 zx sh a.2, [asmPair d, asmOne a.1]))))
    | _ => .error .malformed
  match x.sfx with
  | [] => go false "x1"
  | [sc] => go false sc
  | [sc, "z"] => go true sc
  | _ => .error .malformed

/-- `class` with its mask and sign suffixes, in any order (R404). -/
def asmClass (x : AsmText) : AsmBuilt :=
  let signs := x.sfx.filter (fun w => w == "pos" || w == "neg")
  let sel : Except AsmError SignSel :=
    match signs with
    | [] => .ok .any
    | ["pos"] => .ok .pos
    | ["neg"] => .ok .neg
    | _ => .error .illegalOpcode
  let classes := x.sfx.filter (fun w => w != "pos" && w != "neg")
  let mask : Except AsmError (BitVec 6) :=
    classes.foldl (fun acc w => acc.bind (fun m => (asmNamed asmClasses w).map (fun b => m ||| b))) (.ok 0)
  if !decide x.sfx.Nodup then .error .malformed
  else
    match x.ops with
    | [p, a] => sel.bind (fun sel => mask.bind (fun m => (asmPlainPred p).bind (fun p => (asmSource a).map (fun a =>
        (.fpClass sel a.1 m a.2 p, [asmOne a.1])))))
    | _ => .error .malformed

/-- `cvt.src vD, vA`. -/
def asmCvt (x : AsmText) : AsmBuilt :=
  match x.sfx, x.ops with
  | [t], [d, a] => (asmNamed asmTypes t).bind (fun t => (asmReg d).bind (fun d => (asmSource a).map (fun a =>
      (.cvt d a.1 t a.2, [asmOne d, asmOne a.1]))))
  | _, _ => .error .malformed

/-- `mcvt.type vD, vA` (R458). -/
def asmMcvt (x : AsmText) : AsmBuilt :=
  match x.sfx, x.ops with
  | [t], [d, a] => (asmNamed asmTypes t).bind (fun t => (asmReg d).bind (fun d => (asmSource a).bind (fun a =>
      match TileType.ofCode t.code with
      | some t => .ok (.mcvt d a.1 t a.2, [asmOne d, asmOne a.1])
      | none => .error .illegalOpcode)))
  | _, _ => .error .malformed

/-- `pfold.kind pD, pX`. -/
def asmPfold (x : AsmText) : AsmBuilt :=
  match x.sfx, x.ops with
  | [k], [d, p] => (asmNamed asmFolds k).bind (fun k => (asmPlainPred d).bind (fun d => (asmPred p).map (fun p =>
      (.pfold d p.2 k p.1, []))))
  | _, _ => .error .malformed

/-- `ballot vD, pX`. -/
def asmBallot (x : AsmText) : AsmBuilt :=
  asmBare (fun ops => match ops with
    | [d, p] => (asmReg d).bind (fun d => (asmPred p).map (fun p => (.ballot d p.2 p.1, [asmOne d])))
    | _ => .error .malformed) x

/-- `reduce.op vD, vA`. -/
def asmReduce (x : AsmText) : AsmBuilt :=
  match x.sfx, x.ops with
  | [o], [d, a] => (asmNamed asmLaneOps o).bind (fun o => (asmReg d).bind (fun d => (asmSource a).map (fun a =>
      (.reduce d a.1 o a.2, [asmOne d, asmOne a.1]))))
  | _, _ => .error .malformed

/-- `scan.op vD, vA` and `scan.op.ex`. -/
def asmScan (x : AsmText) : AsmBuilt :=
  let go (ex : Bool) (o : String) : AsmBuilt :=
    match x.ops with
    | [d, a] => (asmNamed asmLaneOps o).bind (fun o => (asmReg d).bind (fun d => (asmSource a).map (fun a =>
        (.scan d a.1 ex o a.2, [asmOne d, asmOne a.1]))))
    | _ => .error .malformed
  match x.sfx with
  | [o] => go false o
  | [o, "ex"] => go true o
  | _ => .error .malformed

/-- `ldb vD, [vA + off]` and `ldb.s`. -/
def asmLdb (x : AsmText) : AsmBuilt :=
  if x.sfx = [] ∨ x.sfx = ["s"] then
    match x.ops with
    | [d, m] => (asmReg d).bind (fun d => (asmMemory x 1 m).map (fun a =>
        (.ldb d a.1 (x.sfx = ["s"]) a.2.2 a.2.1, [asmOne d, asmPair a.1])))
    | _ => .error .malformed
  else .error .malformed

/-- `stb [vA + off], vD`. -/
def asmStb (x : AsmText) : AsmBuilt :=
  asmBare (fun ops => match ops with
    | [m, d] => (asmSource d).bind (fun d => (asmMemory x 1 m).map (fun a =>
        (.stb d.1 a.1 a.2.2 a.2.1 d.2, [asmOne d.1, asmPair a.1])))
    | _ => .error .malformed) x

/-- `pref.size [vA + off]`. -/
def asmPref (x : AsmText) : AsmBuilt :=
  (asmSize x.sfx).bind (fun sz => match x.ops with
    | [m] => (asmMemory x sz.bytes m).map (fun a => (.pref a.1 sz a.2.2 a.2.1, [asmPair a.1]))
    | _ => .error .malformed)

/-- `wopen vD, vA, sw`. -/
def asmWopen (x : AsmText) : AsmBuilt :=
  asmBare (fun ops => match ops with
    | [d, a, w] => (asmReg d).bind (fun d => (asmSource a).bind (fun a => (x.imm 1 0 1 w).map (fun w =>
        (.wopen d a.1 (decide (w = 1)) a.2, [asmOne d, asmOne a.1]))))
    | _ => .error .malformed) x

/-- `fence scope`. -/
def asmFence : AsmText → AsmBuilt :=
  asmBare (fun ops => match ops with
    | [w] => (asmNamed asmScopes (asmWord w)).map (fun sc => (.fence sc, []))
    | _ => .error .malformed)

/-- `waitc [vA], vB`. -/
def asmWaitc : AsmText → AsmBuilt :=
  asmBare (fun ops => match ops with
    | [a, b] => (asmPlace a).bind (fun a => (asmSource b).map (fun b =>
        (.waitc a.1 b.1 a.2 b.2, [asmPair a.1, asmOne b.1])))
    | _ => .error .malformed)

/-- `taskdec vA, n`. -/
def asmTaskdec (x : AsmText) : AsmBuilt :=
  asmBare (fun ops => match ops with
    | [a, n] => (asmSource a).bind (fun a => (x.imm 8 0 255 n).map (fun n => (.taskdec a.1 n a.2, [asmOne a.1])))
    | _ => .error .malformed) x

/-- The five operations of `bkt` (R470). -/
def asmBkt (x : AsmText) : AsmBuilt :=
  let y := { x with sfx := [] }
  match x.sfx with
  | ["open"] => asmTwo asmOne asmPair .bktOpen y
  | ["seal"] => asmSingle asmOne .bktSeal y
  | ["claim"] => asmTwo asmOne asmOne .bktClaim y
  | ["close"] => asmTwo asmOne asmOne .bktClose y
  | ["free"] => asmSingle asmOne .bktFree y
  | _ => .error .malformed

/-- `xst [vA], vD, vB`. -/
def asmXst : AsmText → AsmBuilt :=
  asmBare (fun ops => match ops with
    | [a, d, b] => (asmPlace a).bind (fun a => (asmSource d).bind (fun d => (asmSource b).map (fun b =>
        (.xst d.1 a.1 b.1 a.2 b.2 d.2, [asmPair a.1, asmOne d.1, asmOne b.1]))))
    | _ => .error .malformed)

/-- `csrr vD, NAME`: a register that no mode reads is refused (R493). -/
def asmCsrr : AsmText → AsmBuilt :=
  asmBare (fun ops => match ops with
    | [d, c] => (asmReg d).bind (fun d => (asmNamed asmCsrs (asmWord c)).bind (fun n =>
        if csrReadable true n.toNat then .ok (.csrr d n, [asmOne d]) else .error .illegalOpcode))
    | _ => .error .malformed)

/-- `csrw NAME, vD`: a register that no mode writes is refused (R493). -/
def asmCsrw : AsmText → AsmBuilt :=
  asmBare (fun ops => match ops with
    | [c, d] => (asmSource d).bind (fun d => (asmNamed asmCsrs (asmWord c)).bind (fun n =>
        if csrWritable true n.toNat then .ok (.csrw d.1 n d.2, [asmOne d.1]) else .error .illegalOpcode))
    | _ => .error .malformed)

/-! ### `mode` and `modex` (R350) -/

def asmRoundings : List (String × BitVec 3) := [("rne", 0), ("rtz", 1), ("rdn", 2), ("rup", 3), ("rna", 4)]

/-- One option of `mode`: which option it is (a rounding keyword, `sat`, `ftz`, `sr` or a guard), and its bits. -/
def asmModeOption (text : List Char) : Except AsmError (Nat × BitVec 16) :=
  let s := asmTrim text
  match s with
  | 'g' :: '=' :: p => (asmPred p).map (fun p => (4, (0#11 ++ bit p.2 ++ 1#1 ++ p.1)))
  | _ =>
    match asmRoundings.lookup (String.ofList s) with
    | some r => .ok (0, (0#3 ++ r ++ 0#10))
    | none => asmNamed [("sat", (1, 0x2000#16)), ("ftz", (2, 0x4000#16)), ("sr", (3, 0x8000#16))] (String.ofList s)

/-- MODE[15:0] of the operands of `mode`: a type, then options, none of them twice. -/
def asmMode (ops : List (List Char)) : Except AsmError (BitVec 16) :=
  match ops with
  | [] => .error .malformed
  | t :: rest =>
    (asmNamed asmTypes (asmWord t)).bind (fun t =>
      (rest.foldl (fun (acc : Except AsmError (List Nat × BitVec 16)) o => acc.bind (fun a => (asmModeOption o).bind (fun k =>
          if k.1 ∈ a.1 then .error .malformed else .ok (k.1 :: a.1, a.2 ||| k.2))))
        (.ok ([], 0#6 ++ t.code ++ 0#5))).map (fun a => a.2))

/-- Trap enables of the operands of `modex`. -/
def asmModex (ops : List (List Char)) : Except AsmError (BitVec 6) :=
  ops.foldl (fun acc o => acc.bind (fun m =>
    (asmNamed [("inv", 1#6), ("dz", 2#6), ("ovf", 4#6), ("unf", 8#6), ("inx", 16#6), ("idz", 32#6)] (asmWord o)).map
      (fun b => m ||| b))) (.ok 0)

/-! ### The mnemonics -/

def asmControlRows : List (String × (AsmText → AsmBuilt)) :=
  [("nop", asmPlain .nop), ("mode", asmBare (fun ops => (asmMode ops).map (fun m => (.mode m, [])))),
   ("modex", asmBare (fun ops => (asmModex ops).map (fun m => (.modex m, [])))), ("bra", asmJump .bra),
   ("brc", fun x => match x.sfx with
      | [] => asmBranch (.brc false) x
      | ["u"] => asmBranch (.brc true) x
      | _ => .error .malformed),
   ("brn", fun x => if x.sfx = [] then asmBranch .brn x else if x.sfx = ["u"] then .error .illegalOpcode else .error .malformed),
   ("call", asmCall), ("ret", asmSingle asmPair .ret), ("jr", asmSingle asmPair .jr), ("join", asmJump .join),
   ("yield", asmPlain .yield), ("sleep", asmCount 16 65535 .sleep), ("stop", asmPlain .stop), ("bar", asmCount 3 7 .bar),
   ("barc", asmCount 3 7 .barc), ("barw", asmCount 3 7 .barw), ("waitp", asmWaitp), ("settle", asmPlain .settle)]

def asmIntegerRows : List (String × (AsmText → AsmBuilt)) :=
  [("add", asmThree asmOne asmOne asmOne .add), ("sub", asmThree asmOne asmOne asmOne .sub),
   ("mul", asmThree asmOne asmOne asmOne .mul), ("mad", asmThreeK asmOne .mad), ("min", asmThree asmOne asmOne asmOne .min),
   ("max", asmThree asmOne asmOne asmOne .max), ("abs", asmTwo asmOne asmOne .abs), ("neg", asmTwo asmOne asmOne .neg),
   ("cmp", asmCmp), ("sel", asmSel), ("addi", asmImm 8 (-128) 127 .addi), ("movl", asmMovl), ("movh", asmMovh),
   ("mov", asmTwo asmOne asmOne .mov), ("clamp", asmThreeK asmOne .clamp), ("mulh", asmThree asmOne asmOne asmOne .mulh),
   ("div", asmThree asmOne asmOne asmOne .div), ("rem", asmThree asmOne asmOne asmOne .rem), ("addc", asmThreeK asmPair .addc),
   ("subb", asmThreeK asmPair .subb)] ++
  [("and", asmThree asmOne asmOne asmOne .and), ("or", asmThree asmOne asmOne asmOne .or),
   ("xor", asmThree asmOne asmOne asmOne .xor), ("andn", asmThree asmOne asmOne asmOne .andn),
   ("not", asmTwo asmOne asmOne .not), ("shl", asmThree asmOne asmOne asmOne .shl),
   ("shr", asmThree asmOne asmOne asmOne .shr), ("rot", asmThree asmOne asmOne asmOne .rot), ("shli", asmImm 6 0 63 .shli),
   ("shri", asmImm 6 0 63 .shri), ("andi", asmImm 8 0 255 .andi), ("ori", asmImm 8 0 255 .ori),
   ("xori", asmImm 8 0 255 .xori), ("bfe", asmThree asmOne asmOne asmOne .bfe), ("bfi", asmThreeK asmOne .bfi),
   ("popc", asmTwo asmOne asmOne .popc), ("clz", asmTwo asmOne asmOne .clz), ("ctz", asmTwo asmOne asmOne .ctz),
   ("brev", asmTwo asmOne asmOne .brev), ("perm", asmThreeK asmOne .perm), ("lea", asmLea)]

def asmFloatRows : List (String × (AsmText → AsmBuilt)) :=
  [("rcp", asmTwo asmOne asmOne .rcp), ("rsq", asmTwo asmOne asmOne .rsq), ("sqrt", asmTwo asmOne asmOne .sqrt),
   ("exp2", asmTwo asmOne asmOne .exp2), ("log2", asmTwo asmOne asmOne .log2), ("sin", asmTwo asmOne asmOne .sin),
   ("cos", asmTwo asmOne asmOne .cos), ("fract", asmTwo asmOne asmOne .fract), ("rnd", asmTwo asmOne asmOne .rnd),
   ("ldexp", asmThree asmOne asmOne asmOne .ldexp), ("frexpm", asmTwo asmOne asmOne .frexpm),
   ("frexpe", asmTwo asmOne asmOne .frexpe), ("class", asmClass), ("cvt", asmCvt), ("pack", asmTwo asmOne asmPair .pack),
   ("unpack", asmTwo asmPair asmOne .unpack), ("copysign", asmThree asmOne asmOne asmOne .copysign),
   ("dot2", asmThreeK asmOne .dot2)]

def asmLaneRows : List (String × (AsmText → AsmBuilt)) :=
  [("shfl", asmThree asmOne asmOne asmOne .shfl), ("shflx", asmThree asmOne asmOne asmOne .shflx),
   ("shflu", asmThree asmOne asmOne asmOne .shflu), ("shfld", asmThree asmOne asmOne asmOne .shfld), ("pfold", asmPfold),
   ("ballot", asmBallot), ("rdfirst", asmTwo asmOne asmOne .rdfirst), ("rdlane", asmThree asmOne asmOne asmOne .rdlane),
   ("wrlane", asmThreeK asmOne .wrlane), ("match", asmTwo asmOne asmOne .matchLanes), ("reduce", asmReduce), ("scan", asmScan),
   ("aff", asmThree asmOne asmOne asmOne .aff), ("shape", asmTwo asmOne asmOne .shape), ("gen", asmTwo asmOne asmOne .gen),
   ("uni", asmTwo asmOne asmOne .uni)]

def asmMemoryRows : List (String × (AsmText → AsmBuilt)) :=
  [("ld", asmLoad asmPair .ld), ("st", asmStore asmPair .st), ("ldb", asmLdb), ("stb", asmStb), ("lds", asmLoad asmOne .lds),
   ("sts", asmStore asmOne .sts), ("ldw", asmLoad asmOne .ldw), ("stw", asmStore asmOne .stw),
   ("atom", asmAtomic "h" asmPair .atom), ("red", asmRed), ("atoms", asmAtomic "w" asmOne .atoms), ("pref", asmPref),
   ("ldone", asmLoad asmPair .ldone), ("wopen", asmWopen), ("wclose", asmSingle asmOne .wclose), ("fence", asmFence),
   ("waitc", asmWaitc), ("ticket", asmTwo asmOne asmOne .ticket), ("serve", asmSingle asmOne .serve),
   ("waitt", asmSources .waitt), ("taskdec", asmTaskdec)]

def asmMatrixRows : List (String × (AsmText → AsmBuilt)) :=
  [("mcfg", asmSingle (asmNames 3) .mcfg), ("mma", asmSingle (asmNames 10) .mma), ("mloop", asmSingle (asmNames 10) .mloop),
   ("mrd", asmThree asmOne asmOne asmOne .mrd), ("mwr", asmThreeK asmOne .mwr), ("mclr", asmSingle asmOne .mclr),
   ("mcvt", asmMcvt), ("copy", asmSingle (asmNames 6) .copy), ("copyt", asmSingle (asmNames 9) .copyt)]

def asmRenderRows : List (String × (AsmText → AsmBuilt)) :=
  [("bin", asmSingle (asmNames 3) .bin), ("dice", asmSingle (fun r => (r, 4, 1)) .dice), ("gld", asmLoad asmOne .gld),
   ("gst", asmStore asmOne .gst), ("rast5", asmThree (asmNames 3) asmOne asmOne .rast5),
   ("rast3", asmThree (asmNames 3) (asmNames 9) asmOne .rast3), ("swr", asmTwoK asmQuad asmPair .swr),
   ("resolve", asmSingle (asmNames 6) .resolve),
   ("trace", asmThree (fun r => (r, 6, 2)) (fun r => (r, 8, 4)) asmPair .trace), ("regroup", asmTwoK asmOne asmOne .regroup),
   ("enq", asmSingle asmPair .enq), ("sample", asmThree asmQuad asmPair asmPair .sample),
   ("sampleg", asmThree asmQuad (fun r => (r, 3, 2)) asmPair .sampleg), ("bkt", asmBkt)]

def asmSystemRows : List (String × (AsmText → AsmBuilt)) :=
  [("xst", asmXst), ("present", asmSingle asmPair .present), ("csrr", asmCsrr), ("csrw", asmCsrw),
   ("trap", asmCount 16 65535 .trap), ("rft", asmCount 1 1 (fun r => .rft (decide (r = 1)))), ("save", asmAt .save),
   ("rest", asmAt .rest)]

/-- Every mnemonic with the form of its lines. -/
def asmRows : List (String × (AsmText → AsmBuilt)) :=
  asmControlRows ++ asmIntegerRows ++ asmFloatRows ++ asmLaneRows ++ asmMemoryRows ++ asmMatrixRows ++ asmRenderRows ++
    asmSystemRows

/-! ### The register check of R352 -/

/-- Names of the three classes of a kernel (`.regs`). -/
structure AsmRegs where
  general : Nat
  affine : Nat
  uniform : Nat
  deriving DecidableEq, Repr

/-- The class a name lies in; h0–h7 are accepted on any line. -/
def AsmRegs.cls (k : AsmRegs) (n : Nat) : Option Nat :=
  if 128 ≤ n then none
  else if 120 ≤ n then some 3
  else if n < k.general then some 0
  else if n < k.general + k.affine then some 1
  else if n < k.general + k.affine + k.uniform then some 2
  else none

/-- Every name is allocated, the first is a multiple of what it must be one of, and a pair or quad lies in one class. -/
def AsmRegs.accepts (k : AsmRegs) (x : AsmSpan) : Bool :=
  let r := x.1.toNat
  let names := (List.range x.2.1).map (fun i => r + i)
  decide (r % x.2.2 = 0) && names.all (fun n => (k.cls n).isSome && (decide (120 ≤ r) || decide (n < 120))) &&
    (decide (x.2.1 ≠ x.2.2) || names.all (fun n => k.cls n == k.cls r))

/-- The word of a line that no case of R352 refuses. -/
def asmEncode (k : AsmRegs) (x : Instr × List AsmSpan) : Except AsmError Word :=
  if !x.1.wellFormed then .error .illegalOpcode
  else
    match encode x.1 with
    | none => .error .illegalOpcode
    | some w =>
      match decode w with
      | .error _ => .error .illegalOpcode
      | .ok _ => if x.2.all k.accepts then .ok w else .error .illegalRegister

/-- What `movi vD, value` stands for (R351). -/
def asmMovi (d : RegName) (v : Word) : List Instr :=
  [.movl d (v.extractLsb' 0 16)] ++
    (if v.extractLsb' 16 16 = 0 then [] else [.movh d (v.extractLsb' 16 16) false])

/-- All results, or the first refusal. -/
def asmAll {α β : Type} (f : α → Except AsmError β) : List α → Except AsmError (List β)
  | [] => .ok []
  | x :: xs => (f x).bind (fun y => (asmAll f xs).map (fun ys => y :: ys))

/-- The words of an instruction line (R348–R352). -/
def asmInstruction (k : AsmRegs) (m : String) (x : AsmText) : Except AsmError (List Word) :=
  if m = "movi" then
    match x.sfx, x.ops with
    | [], [d, e] => (asmReg d).bind (fun d => (x.imm 32 (-2147483648) 4294967295 e).bind (fun v =>
        asmAll (fun i => asmEncode k (i, [asmOne d])) (asmMovi d v)))
    | _, _ => .error .malformed
  else (asmNamed asmRows m).bind (fun f => (f x).bind (fun i => (asmEncode k i).map (fun w => [w])))

/-! ### Kernels and their descriptors (R353, R354) -/

/-- A kernel between `.kernel` and `.kend`: where its descriptor lies in the image, what stood before it (code bytes and labels,
its own name among them), and its directives. -/
structure AsmKernel where
  start : Nat
  before : List Byte
  named : List (String × Nat)
  width : Nat
  team : Nat
  pair : Bool
  regs : AsmRegs
  argn : Nat
  mode0 : BitVec 16
  scratch : Nat
  stack : Nat
  divstack : Nat
  copyq : Nat
  acc : Nat
  entry : Option String
  handler : Option String
  deriving DecidableEq, Repr

/-- A kernel without directives (R353). -/
def AsmKernel.opened (start : Nat) (before : List Byte) (named : List (String × Nat)) : AsmKernel :=
  { start := start, before := before, named := named, width := 1, team := 0, pair := false,
    regs := { general := 0, affine := 0, uniform := 0 }, argn := 0, mode0 := 0, scratch := 0, stack := 0, divstack := 0,
    copyq := 0, acc := 0, entry := none, handler := none }

/-- The 2,048 bits of a kernel's descriptor (R116, R354). -/
def AsmKernel.bits (k : AsmKernel) (entry handler : Nat) : Nat :=
  k.width + (if k.pair then 1 else 0) * 2 ^ 2 + k.team * 2 ^ 3 + k.regs.general * 2 ^ 8 + k.regs.affine * 2 ^ 16 +
    k.regs.uniform * 2 ^ 24 + k.scratch * 2 ^ 32 + k.stack * 2 ^ 48 + k.divstack * 2 ^ 56 + k.copyq * 2 ^ 64 +
    k.acc * 2 ^ 72 + k.argn * 2 ^ 80 + k.mode0.toNat * 2 ^ 96 + entry / 4 % 2 ^ 47 * 2 ^ 128 + handler / 4 % 2 ^ 47 * 2 ^ 192

/-- The assembler in the middle of a pass: the code area and the data area so far, the labels of this pass and the lines
refused, the latest first. -/
structure Asm where
  base : Nat
  code : List Byte
  data : List Byte
  inData : Bool
  started : Bool
  kernel : Option AsmKernel
  labels : List (String × Nat)
  refused : List (Nat × AsmError)
  deriving DecidableEq, Repr

def Asm.empty : Asm :=
  { base := 0, code := [], data := [], inData := false, started := false, kernel := none, labels := [], refused := [] }

/-- Little-endian bytes. -/
def asmBytes (n v : Nat) : List Byte := (List.range n).map (fun i => BitVec.ofNat 8 (v / 2 ^ (8 * i)))

/-- The next multiple. -/
def asmUp (n k : Nat) : Nat := (n + (k - 1)) / k * k

/-- Address of the next byte. -/
def Asm.here (a : Asm) (env : AsmEnv) : Nat :=
  a.base + (if a.inData then env.dataStart + a.data.length else a.code.length)

def Asm.emit (a : Asm) (b : List Byte) : Asm :=
  if a.inData then { a with data := a.data ++ b } else { a with code := a.code ++ b }

/-- A label put where the next byte goes; the second of a name is refused (R352). -/
def Asm.define (a : Asm) (env : AsmEnv) (l : String) : Except AsmError Asm :=
  if (a.labels.lookup l).isSome then .error (.definedTwice l) else .ok { a with labels := a.labels ++ [(l, a.here env)] }

/-- A label of a kernel as an address of its code. -/
def Asm.inside (a : Asm) (k : AsmKernel) (l : String) : Except AsmError Nat :=
  match (a.labels.drop k.named.length).lookup l with
  | none => .error (.undefinedLabel l)
  | some v => if v % 4 = 0 then .ok v else .error .misaligned

/-- `.kend`: the descriptor is filled, or the kernel is refused whole (R353, R354). -/
def Asm.close (a : Asm) (k : AsmKernel) : Except AsmError Asm :=
  let entry : Except AsmError Nat := match k.entry with | none => .ok (a.base + k.start + 256) | some l => a.inside k l
  let handler : Except AsmError Nat := match k.handler with | none => .ok 0 | some l => a.inside k l
  entry.bind (fun e => handler.bind (fun h =>
    if kernelInvalid (k.bits e h) then .error .badKernel
    else .ok { a with
      kernel := none
      code := a.code.take k.start ++ asmBytes 256 (k.bits e h) ++ a.code.drop (k.start + 256) }))

/-- `.kernel name`: zeros up to the next 256-byte boundary, the place of the descriptor, and the name. -/
def Asm.openKernel (a : Asm) (l : String) : Except AsmError Asm :=
  if a.kernel.isSome then .error .misplaced
  else
    let start := asmUp a.code.length 256
    if (a.labels.lookup l).isSome then .error (.definedTwice l)
    else
      let labels := a.labels ++ [(l, a.base + start)]
      .ok { a with
        inData := false, started := true, labels := labels
        kernel := some (AsmKernel.opened start a.code labels)
        code := a.code ++ List.replicate (start + 256 - a.code.length) 0 }

/-- Bytes with which `.align` pads: zeros, and `nop` words in code from the next word boundary on (R353). -/
def asmPad (inCode : Bool) (addr n : Nat) : List Byte :=
  let odd := if inCode then min n (asmUp addr 4 - addr) else n
  List.replicate odd 0 ++ (List.replicate ((n - odd) / 4) (asmBytes 4 0x01000000)).flatten ++ List.replicate ((n - odd) % 4) 0

/-! ### Directives (R353) -/

/-- One operand with limits. -/
def asmLimit (env : AsmEnv) (here : Nat) (ops : List (List Char)) (hi step : Nat) : Except AsmError Nat :=
  match ops with
  | [e] => (env.within here 0 hi e).bind (fun v => if v.toNat % step = 0 then .ok (v.toNat / step) else .error .misaligned)
  | _ => .error .malformed

/-- Operands of `.regs`, in any order, none of them twice. -/
def asmRegsOf (env : AsmEnv) (here : Nat) (text : List Char) : Except AsmError AsmRegs :=
  let part (w : List Char) : Except AsmError (String × Nat) :=
    let name := String.ofList (w.takeWhile (fun c => c != '='))
    if w.contains '=' ∧ name ∈ ["general", "affine", "uniform"] then
      (env.within here 0 120 ((w.dropWhile (fun c => c != '=')).drop 1)).map (fun v => (name, v.toNat))
    else .error .malformed
  (asmAll part (asmWords text)).bind (fun ps =>
    if !decide (ps.map Prod.fst).Nodup then .error .malformed
    else
      let r : AsmRegs :=
        { general := (ps.lookup "general").getD 0
          affine := (ps.lookup "affine").getD 0
          uniform := (ps.lookup "uniform").getD 0 }
      if 120 < r.general + r.affine + r.uniform then .error .outOfRange else .ok r)

/-- A label as the operand of a directive. -/
def asmLabelOf (ops : List (List Char)) : Except AsmError String :=
  match ops with
  | [l] =>
    match asmTrim l with
    | c :: cs => if asmLetter c && cs.all asmNameChar then .ok (String.ofList (c :: cs)) else .error .malformed
    | [] => .error .malformed
  | _ => .error .malformed

/-- A directive of an open kernel. -/
def asmKernelDirective (env : AsmEnv) (here : Nat) (k : AsmKernel) (d : String) (ops : List (List Char)) (text : List Char) :
    Except AsmError AsmKernel :=
  if d = ".width" then
    (asmLimit env here ops 64 1).bind (fun n =>
      if n = 16 then .ok { k with width := 0 } else if n = 32 then .ok { k with width := 1 }
      else if n = 64 then .ok { k with width := 2 } else .error .outOfRange)
  else if d = ".team" then
    (asmLimit env here ops 32 1).bind (fun n => if n = 0 then .error .outOfRange else .ok { k with team := n - 1 })
  else if d = ".pair" then (if ops.isEmpty then .ok { k with pair := true } else .error .malformed)
  else if d = ".regs" then (asmRegsOf env here text).map (fun r => { k with regs := r })
  else if d = ".args" then (asmLimit env here ops 16 1).map (fun n => { k with argn := n })
  else if d = ".mode" then (asmMode ops).map (fun m => { k with mode0 := m })
  else if d = ".scratch" then (asmLimit env here ops 524288 128).map (fun n => { k with scratch := n })
  else if d = ".stack" then (asmLimit env here ops 63 1).map (fun n => { k with stack := n })
  else if d = ".divstack" then (asmLimit env here ops 63 1).map (fun n => { k with divstack := n })
  else if d = ".copyq" then (asmLimit env here ops 32 1).map (fun n => { k with copyq := n })
  else if d = ".acc" then (asmLimit env here ops 262144 4096).map (fun n => { k with acc := n })
  else if d = ".entry" then (asmLabelOf ops).map (fun l => { k with entry := some l })
  else if d = ".handler" then (asmLabelOf ops).map (fun l => { k with handler := some l })
  else .error (.unknownName d)

/-- Values of `.word`, `.half` and `.byte`: `n` bytes each. -/
def asmValues (env : AsmEnv) (here n : Nat) (ops : List (List Char)) : Except AsmError (List Byte) :=
  if ops.isEmpty then .error .malformed
  else (asmAll (fun e => (env.within here (-(2 ^ (8 * n - 1) : Int)) (2 ^ (8 * n) - 1) e).map (fun v =>
      asmBytes n (v % (2 ^ (8 * n) : Int)).toNat)) ops).map List.flatten

/-- A directive. -/
def Asm.directive (a : Asm) (env : AsmEnv) (d : String) (ops : List (List Char)) (text : List Char) : Except AsmError Asm :=
  let here := a.here env
  if d = ".base" then
    if a.started then .error .misplaced
    else (asmLimit env here ops (2 ^ 49 - 256) 256).map (fun n => { a with base := 256 * n })
  else if d = ".kernel" then (asmLabelOf ops).bind a.openKernel
  else if d = ".kend" then
    match a.kernel with
    | none => .error .misplaced
    | some k => if ops.isEmpty then a.close k else .error .malformed
  else if d = ".data" then
    if a.kernel.isSome then .error .misplaced else if ops.isEmpty then .ok { a with inData := true } else .error .malformed
  else if d = ".word" then (asmValues env here 4 ops).map a.emit
  else if d = ".half" then (asmValues env here 2 ops).map a.emit
  else if d = ".byte" then (asmValues env here 1 ops).map a.emit
  else if d = ".align" then
    (asmLimit env here ops 4096 1).bind (fun n =>
      if (List.range 13).any (fun i => decide (n = 2 ^ i)) then .ok (a.emit (asmPad (!a.inData) here (asmUp here n - here)))
      else .error .outOfRange)
  else
    match a.kernel with
    | none => .error .misplaced
    | some k => (asmKernelDirective env here k d ops text).map (fun k => { a with kernel := some k })

/-! ### Lines, passes and the image -/

/-- The label of a line and what follows it. -/
def asmLabelled (s : List Char) : Option String × List Char :=
  match s with
  | [] => (none, [])
  | c :: _ =>
    match s.dropWhile asmNameChar with
    | ':' :: rest => if asmLetter c then (some (String.ofList (s.takeWhile asmNameChar)), asmTrim rest) else (none, s)
    | _ => (none, s)

/-- What a line without its label does. -/
def Asm.statement (a : Asm) (env : AsmEnv) (s : List Char) : Except AsmError Asm :=
  let m := s.takeWhile (fun c => !asmBlank c)
  let text := asmTrim (s.drop m.length)
  let ops := if text.isEmpty then [] else asmSplit ',' text
  match m with
  | [] => .ok a
  | '.' :: _ => a.directive env (String.ofList m) ops text
  | _ =>
    match a.kernel, (asmSplit '.' m).map String.ofList with
    | some k, base :: sfx =>
      if a.code.length % 4 ≠ 0 then .error .misaligned
      else (asmInstruction k.regs base { sfx := sfx, ops := ops, here := a.here env, env := env }).map (fun ws =>
        a.emit (ws.flatMap (fun w => asmBytes 4 w.toNat)))
    | _, _ => .error .misplaced

/-- A kernel that is refused leaves nothing: no byte, no label and no name. -/
def Asm.drop (a : Asm) (k : AsmKernel) : Asm :=
  { a with kernel := none, code := k.before, labels := k.named.dropLast }

/-- A line of the source: a refused line emits nothing; a kernel refused at its `.kend` emits nothing at all. -/
def Asm.line (env : AsmEnv) (a : Asm) (x : Nat × List Char) : Asm :=
  let (label, s) := asmLabelled (asmTrim (x.2.takeWhile (fun c => c != ';')))
  let r := (match label with | none => Except.ok a | some l => a.define env l).bind (fun a => a.statement env s)
  match r with
  | .ok a => a
  | .error e =>
    let kept := match label with | none => a | some l => (match a.define env l with | .ok a => a | .error _ => a)
    let out := { kept with refused := (x.1, e) :: a.refused }
    match a.kernel with
    | some k => if s.take 5 = ['.', 'k', 'e', 'n', 'd'] then out.drop k else out
    | none => out

/-- One pass over the lines; a kernel still open at the end is refused. -/
def asmPass (env : AsmEnv) (lines : List (Nat × List Char)) : Asm :=
  let a := lines.foldl (Asm.line env) Asm.empty
  match a.kernel with
  | none => a
  | some k => { a.drop k with refused := (lines.length, .misplaced) :: a.refused }

/-- What a pass leaves for the next. -/
def Asm.env (a : Asm) : AsmEnv := { labels := some a.labels, dataStart := asmUp a.code.length 128 }

/-- Passes until the labels stand still. -/
def asmSettle (lines : List (Nat × List Char)) : Nat → AsmEnv → Option Asm
  | 0, _ => none
  | n + 1, env =>
    let a := asmPass env lines
    if a.env = env then some a else asmSettle lines n a.env

/-- The image: the code, and the data area from the first 128-byte boundary after it. -/
def Asm.image (a : Asm) : AsmImage :=
  { base := a.base
    bytes := if a.data.isEmpty then a.code
      else a.code ++ List.replicate (asmUp a.code.length 128 - a.code.length) 0 ++ a.data
    refused := a.refused.reverse }

/-- Lines of a source, numbered from 1. -/
def asmLines (src : List Char) : List (Nat × List Char) :=
  let ls := asmSplit '\n' src
  (List.range ls.length).zip ls |>.map (fun x => (x.1 + 1, x.2))

/-- `osas` on a source (R348–R354); none when the sizes of its `movi` lines and the labels never agree. -/
def assemble (src : List Char) : Option AsmImage :=
  let lines := asmLines src
  (asmSettle lines (lines.length + 4) { labels := none, dataStart := 0 }).map Asm.image

end Sys2Proof.Machine
end

