-- ==== Sys2Proof/Safety.lean ====
section
/-!
DEFINITION. The terms that claims about the package use: what an issuing group must be like, the state that a completed
instruction leaves, what an event comes to, and the invariants of the state.
-/

namespace Sys2Proof.Machine

/-! ### A group that issues -/

/-- Group `g` is the one that issues, on slot `b` (R221). -/
structure Issues (s : State) (g : Group) (b : Bool) : Prop where
  here : s.group? s.cur = some g
  slot : s.curB = b

/-- R224 has nothing to do once slot `b` of the group stands at `pc`: in trap mode, where it does not apply (R296), or where
no rule of it changes a slot or the stack. -/
def Steady (g : Group) (b : Bool) (pc : DWord) : Prop :=
  g.inTrap = true ∨
    ((g.slot b).jpc ≠ some pc ∧
      (((g.slot (!b)).mask = 0 ∧ g.stack = []) ∨
        ((g.slot (!b)).mask ≠ 0 ∧ (g.slot (!b)).pc ≠ pc ∧
          ((g.slot (!b)).jpc ≠ some (g.slot (!b)).pc ∨
            ((g.slot (!b)).parked = true ∧ ∀ t ∈ g.stack.head?, t.join ≠ (g.slot (!b)).jpc)))))

/-- The group has its 128 names, 8 predicates, 8 barrier bits and 4 path counters (R211, R219, R225, R227). -/
def Shaped (g : Group) : Prop :=
  g.regs.length = Group.regCount ∧ g.preds.length = 8 ∧ g.barPend.length = 8 ∧ g.pathCount.length = 4 ∧ g.pathFault.length = 4

/-- Slot `b` of group `g` issues, with lanes, outside a window. -/
structure Issuing (s : State) (g : Group) (b : Bool) : Prop where
  issues : Issues s g b
  lanes : (g.slot b).mask ≠ 0
  window : g.window = none
  shaped : Shaped g

/-- Slot `b` issues, and R224 has nothing to do when it then stands at `pc`. -/
structure Ready (s : State) (g : Group) (b : Bool) (pc : DWord) : Prop extends Issuing s g b where
  steady : Steady g b pc

/-- The address of the next word of a slot (R341). -/
def Group.nextPc (g : Group) (b : Bool) : DWord := (g.slot b).pc + 4

/-- No `trace` of the group is outstanding, so that an instruction that settles need not wait (R202, R271). -/
def NoTrace (g : Group) : Prop := ∀ p ∈ g.producers, p.kind ≠ .trace

/-- Names that are full and not poisoned (R217, R299). -/
def Settled (g : Group) (rs : List RegName) : Prop := ∀ r ∈ rs, (g.reg r).full = true ∧ (g.reg r).poison = false

/-- The lanes in which a guarded instruction of slot `b` acts (R345). -/
def Group.active (g : Group) (b : Bool) : Mask := g.guarded (g.slot b).mask

/-- Lane `l` of the group is among a mask. -/
def Group.lane (g : Group) (m : Mask) (l : Nat) : Prop := l < g.width ∧ hasLane m l = true

/-! ### The state after an instruction -/

/-- The state after an instruction of `n` pass-cycles of slot `b` that leaves the group as `g'`; nothing else changes. -/
def State.after (s : State) (g' : Group) (b : Bool) (n : Nat) : State :=
  { s with
    cycle := s.cycle + n
    groups := s.groups.map (fun x =>
      if x.id = g'.id then { g' with lastB := b, runCycles := g'.runCycles + n, stuck := false } else x) }

/-- The state after an instruction of `n` pass-cycles that leaves the group as `g'`, slot `b` going to `pc` with wait `w`;
nothing else changes. -/
def State.retire (s : State) (g' : Group) (b : Bool) (pc : DWord) (w : Wait) (n : Nat) : State :=
  s.after (g'.setSlot b { g'.slot b with pc := pc, wait := w }) b n

/-- The instruction completes in place: the group is left as `g'` and slot `b` goes to the next word. -/
def Completes (i : Instr) (s : State) (g' : Group) (b : Bool) (n : Nat) : Prop :=
  exec i s = .next (s.retire g' b (g'.nextPc b) .none n)

/-- The instruction completes in one pass-cycle and slot `b` of the group, otherwise as it was, goes to `pc`. -/
def Jumps (i : Instr) (s : State) (g : Group) (b : Bool) (pc : DWord) : Prop :=
  exec i s = .next (s.retire g b pc .none 1)

/-- The state with one name written over. -/
def Group.withReg (g : Group) (r : RegName) (v : RegVal) : Group := g.setReg r { val := v, full := true, poison := false }

/-- `v` holds the results `f` of the active lanes, and what the name read before in the other live lanes. -/
def Holds (g : Group) (b : Bool) (r : RegName) (v : RegVal) (f : Nat → Word) : Prop :=
  ∀ l, l < g.width →
    (hasLane (g.active b) l = true → v.lane l = f l) ∧
    (hasLane (g.active b) l = false → hasLane g.live l = true → v.lane l = g.word r l)

/-- The group enters its handler with a cause (R295), and nothing else changes. -/
def Traps (i : Instr) (s : State) (g : Group) (b : Bool) (t : Trap) : Prop :=
  exec i s = .next (s.setGroup (({ g with lastB := b }).enterTrap b t s.cycle))

/-- The slot waits at issue and nothing else changes (R221). -/
def Waits (i : Instr) (s : State) (g : Group) (b : Bool) (w : Wait) : Prop :=
  exec i s = .next (s.setGroup (g.waits b w))

/-- The instruction completes in one pass-cycle and leaves the group as `g'`, its slots placed by the instruction itself. -/
def Leaves (i : Instr) (s : State) (g' : Group) (b : Bool) : Prop := exec i s = .next (s.after g' b 1)

/-- The instruction completes in one pass-cycle, leaving the group as `g'`, and slot `b` then blocks at the next word with
wait `w`. -/
def Blocks (i : Instr) (s : State) (g' : Group) (b : Bool) (w : Wait) : Prop :=
  exec i s = .next (s.retire g' b (g'.nextPc b) w 1)

/-- Slot `b` with its mask, PC and join PC put in place, not waiting. -/
def Group.place (g : Group) (b : Bool) (pc : DWord) (mask : Mask) (jpc : Option DWord) : Group :=
  g.setSlot b { pc := pc, mask := mask, jpc := jpc, parked := false, wait := .none }

/-- The target of a branch from slot `b`: its own address plus four times the offset (R341). -/
def Group.target (g : Group) (b : Bool) {n : Nat} (off : BitVec n) : DWord := (g.slot b).pc + 4 * off.signExtend 64

/-- A barrier phase of team `t` completes: the phase bit inverts, the count returns to zero, pending bits clear, and the slots
blocked on the barrier become issuable (R225, R368). -/
def Group.released (g : Group) (k : Nat) : Group :=
  { g with
    barPend := g.barPend.set k false
    slotA := if g.slotA.wait = .barrier k then { g.slotA with wait := .none } else g.slotA
    slotB := if g.slotB.wait = .barrier k then { g.slotB with wait := .none } else g.slotB }

/-- The state with barrier `k` of a team changed. -/
def State.withBarrier (s : State) (team k : Nat) (f : Barrier → Barrier) : State :=
  { s with teams := s.teams.map (fun t =>
      if t.id = team then { t with barriers := t.barriers.set k (f (t.barriers.getD k { phase := false, count := 0 })) } else t) }

/-- Groups of the team that have arrived at barrier `k`, group `g` among them, or ended (R225). -/
def State.arrivedWith (s : State) (g : Group) (t : Team) (k : Nat) : Nat :=
  ((s.groups.map (fun x => if x.id = g.id then { x with barPend := x.barPend.set k true } else x)).filter
    (fun x => x.team = t.id && x.barPend.getD k false)).length + t.endedGroups.length

/-! ### Lane-by-lane instructions -/

/-- What a lane-by-lane instruction needs and computes under a type: the spans it reads, its destination span, and the value
of the destination span in a lane from those of the source spans. -/
structure LaneForm where
  types : MType → Bool
  /-- The instruction does not read the type (R382). -/
  free : Bool := false
  srcs : MType → List (RegName × Nat)
  d : RegName
  dn : MType → Nat
  f : Word → MType → List Nat → Nat

/-- Units of the type throughout: sources to one destination, element by element. -/
def unitForm (types : MType → Bool) (d : RegName) (srcs : List RegName) (f : Word → MType → List Nat → Nat) : LaneForm :=
  { types := types, srcs := fun t => srcs.map (fun r => (r, unitNames t)), d := d, dn := unitNames,
    f := fun m t us => (mapUnit t us (fun _ xs => (f m t xs, Flags.none))).1 }

/-- The same with a second operand of one name (R384, R405). -/
def countForm (types : MType → Bool) (d a b : RegName) (f : Word → MType → Nat → Nat → Nat → Nat) : LaneForm :=
  { types := types, srcs := fun t => [(a, unitNames t), (b, 1)], d := d, dn := unitNames,
    f := fun m t us => (mapUnit t [arg us 0] (fun e xs => (f m t (arg us 1) e (arg xs 0), Flags.none))).1 }

/-- One-name operands whatever the type. -/
def wordForm (d : RegName) (srcs : List RegName) (f : Word → List Nat → Nat) : LaneForm :=
  { types := fun _ => true, free := true, srcs := fun _ => srcs.map (fun r => (r, 1)), d := d, dn := fun _ => 1, f := fun m _ us => f m us }

/-- The count of a shift for an element: the whole word, or the element under H types (R398). -/
def shiftCount (t : MType) (k e : Nat) : Nat := if isH t then elemOf t k e else k

/-- The lane-by-lane instructions (R385, R405, R387–R402, R407–R413, R418). -/
def laneForm : Instr → Option LaneForm
  | .add d a b _ _ => some (unitForm isGeneric d [a, b] (fun m t x => (eAdd m t (arg x 0) (arg x 1)).1))
  | .sub d a b _ _ => some (unitForm isGeneric d [a, b] (fun m t x => (eSub m t (arg x 0) (arg x 1)).1))
  | .mul d a b _ _ => some (unitForm isGeneric d [a, b] (fun m t x => (eMul m t (arg x 0) (arg x 1)).1))
  | .mad d a b _ _ _ => some (unitForm isGeneric d [d, a, b] (fun m t x => (eMad m t (arg x 0) (arg x 1) (arg x 2)).1))
  | .min d a b _ _ => some (unitForm isGeneric d [a, b] (fun m t x => (eMin m t (arg x 0) (arg x 1)).1))
  | .max d a b _ _ => some (unitForm isGeneric d [a, b] (fun m t x => (eMax m t (arg x 0) (arg x 1)).1))
  | .abs d a _ => some (unitForm isGeneric d [a] (fun m t x => (eAbs m t (arg x 0)).1))
  | .neg d a _ => some (unitForm isGeneric d [a] (fun m t x => (eNeg m t (arg x 0)).1))
  | .addi d a imm _ => some (unitForm isGeneric d [a] (fun m t x => (eAddi m t imm.toInt (arg x 0)).1))
  | .clamp d a b _ _ _ =>
    some (unitForm isGeneric d [d, a, b] (fun m t x => (eClamp m t (arg x 0) (arg x 1) (arg x 2)).1))
  | .mulh d a b _ _ => some (unitForm isIHL d [a, b] (fun _ t x => (eMulh t (arg x 0) (arg x 1)).1))
  | .rem d a b _ _ => some (unitForm isIHL d [a, b] (fun _ t x => (eRem t (arg x 0) (arg x 1)).1))
  | .and d a b _ _ => some (unitForm isGeneric d [a, b] (fun _ _ x => Nat.land (arg x 0) (arg x 1)))
  | .or d a b _ _ => some (unitForm isGeneric d [a, b] (fun _ _ x => Nat.lor (arg x 0) (arg x 1)))
  | .xor d a b _ _ => some (unitForm isGeneric d [a, b] (fun _ _ x => Nat.xor (arg x 0) (arg x 1)))
  | .andn d a b _ _ => some (unitForm isGeneric d [a, b] (fun _ t x => Nat.land (arg x 0) (notBits t (arg x 1))))
  | .not d a _ => some (unitForm isGeneric d [a] (fun _ t x => notBits t (arg x 0)))
  | .shl d a b _ _ => some (countForm isIHL d a b (fun m t k e x => (eShl m t (shiftCount t k e) x).1))
  | .shr d a b _ _ => some (countForm isIHL d a b (fun _ t k e x => (eShr t (shiftCount t k e) x).1))
  | .rot d a b _ _ => some (countForm isIHL d a b (fun _ t k e x => (eRot t (shiftCount t k e) x).1))
  | .shli d a n _ => some (unitForm isIHL d [a] (fun m t x => (eShl m t n.toNat (arg x 0)).1))
  | .shri d a n _ => some (unitForm isIHL d [a] (fun _ t x => (eShr t n.toNat (arg x 0)).1))
  | .andi d a imm _ => some (unitForm isIHL d [a] (fun _ _ x => Nat.land (arg x 0) imm.toNat))
  | .ori d a imm _ => some (unitForm isIHL d [a] (fun _ _ x => Nat.lor (arg x 0) imm.toNat))
  | .xori d a imm _ => some (unitForm isIHL d [a] (fun _ _ x => Nat.xor (arg x 0) imm.toNat))
  | .bfe d a b _ _ => some (countForm (fun t => isI t || isL t) d a b (fun _ t k _ x => (eBfe t k x).1))
  | .bfi d a b _ _ _ =>
    some { types := fun t => isI t || isL t, srcs := fun t => [(d, unitNames t), (a, unitNames t), (b, 1)], d := d,
           dn := unitNames, f := fun _ t us => (eBfi t (arg us 2) (arg us 0) (arg us 1)).1 }
  | .popc d a _ => some (unitForm isIHL d [a] (fun _ t x => (ePopc t (arg x 0)).1))
  | .clz d a _ => some (unitForm isIHL d [a] (fun _ t x => (eClz t (arg x 0)).1))
  | .ctz d a _ => some (unitForm isIHL d [a] (fun _ t x => (eCtz t (arg x 0)).1))
  | .brev d a _ => some (unitForm isIHL d [a] (fun _ t x => (eBrev t (arg x 0)).1))
  | .perm d a b _ _ _ => some (wordForm d [d, a, b] (fun _ x => permWord (arg x 0) (arg x 1) (arg x 2)))
  | .mov d a _ => some (unitForm isGeneric d [a] (fun _ _ x => arg x 0))
  | .movl d imm => some (wordForm d [] (fun _ _ => imm.toNat))
  | .movh d imm _ => some (wordForm d [d] (fun _ x => imm.toNat * 2 ^ 16 + arg x 0 % 2 ^ 16))
  | .lea d a zx sh _ =>
    some { types := fun _ => true, free := true, srcs := fun _ => [(d, 2), (a, 1)], d := d, dn := fun _ => 2,
           f := fun _ _ us => (arg us 0 + (if zx then arg us 1 else encInt 64 (intOf true 32 (arg us 1))) * 2 ^ sh.toNat) % 2 ^ 64 }
  | .addc d a b _ _ _ =>
    some { types := isI, srcs := fun _ => [(a, 1), (b, 1), (d + 1, 1)], d := d, dn := fun _ => 2,
           f := fun _ _ us => arg us 0 + arg us 1 + arg us 2 % 2 }
  | .subb d a b _ _ _ =>
    some { types := isI, srcs := fun _ => [(a, 1), (b, 1), (d + 1, 1)], d := d, dn := fun _ => 2,
           f := fun _ _ us =>
             let x := (arg us 0 : Int) - arg us 1 - arg us 2 % 2
             encInt 32 x + (if x < 0 then 2 ^ 32 else 0) }
  | .rcp d a _ => some (unitForm isFPD d [a] (fun m t x => (eFn .rcp m t (arg x 0)).1))
  | .rsq d a _ => some (unitForm isFPD d [a] (fun m t x => (eFn .rsq m t (arg x 0)).1))
  | .sqrt d a _ => some (unitForm isFPD d [a] (fun m t x => (eFn .sqrt m t (arg x 0)).1))
  | .exp2 d a _ => some (unitForm isFP d [a] (fun m t x => (eFn .exp2 m t (arg x 0)).1))
  | .log2 d a _ => some (unitForm isFP d [a] (fun m t x => (eFn .log2 m t (arg x 0)).1))
  | .sin d a _ => some (unitForm isFP d [a] (fun m t x => (eFn .sin m t (arg x 0)).1))
  | .cos d a _ => some (unitForm isFP d [a] (fun m t x => (eFn .cos m t (arg x 0)).1))
  | .fract d a _ => some (unitForm isFPD d [a] (fun m t x => (eFract m t (arg x 0)).1))
  | .rnd d a _ => some (unitForm isFPD d [a] (fun m t x => (eRnd m t (arg x 0)).1))
  | .ldexp d a b _ _ =>
    some (countForm isFPD d a b (fun m t k e x =>
      (eLdexp m t (if isP t then intOf true 16 (elemOf t k e) else intOf true 32 k) x).1))
  | .frexpm d a _ => some (unitForm isFPD d [a] (fun m t x => (eFrexpm m t (arg x 0)).1))
  | .frexpe d a _ => some { unitForm isFPD d [a] (fun m t x => (eFrexpe m t (arg x 0)).1) with dn := fun _ => 1 }
  | .copysign d a b _ _ => some (unitForm isFPD d [a, b] (fun _ t x => (eCopysign t (arg x 0) (arg x 1)).1))
  | .dot2 d a b _ _ _ =>
    some { types := isP, srcs := fun t => [(d, unitNames t), (a, unitNames t), (b, unitNames t)], d := d, dn := unitNames,
           f := fun m t us => (dot2Unit m t (arg us 0) (arg us 1) (arg us 2)).1 }
  | .pack d a _ =>
    some { types := fun t => isP t || isH t, srcs := fun _ => [(a, 2)], d := d, dn := fun _ => 1,
           f := fun m t us => packWord m t (arg us 0 % 2 ^ 32) (arg us 0 / 2 ^ 32) }
  | .unpack d a _ =>
    some { types := fun t => isP t || isH t, srcs := fun _ => [(a, 1)], d := d, dn := fun _ => 2,
           f := fun _ t us => unpackPair t (arg us 0) }
  | _ => none

/-- The names of the operands of a lane-by-lane instruction. -/
def LaneForm.names (x : LaneForm) (t : MType) : List RegName :=
  (x.srcs t).flatMap (fun p => spanNames p.1 p.2) ++ spanNames x.d (x.dn t)

/-- Every source of a lane-by-lane instruction is uniform and every live lane is active, so that its result is uniform
(R210, R213). -/
def LaneForm.AllUniform (x : LaneForm) (g : Group) (b : Bool) (t : MType) : Prop :=
  (∀ p ∈ x.srcs t, g.uniformSpan p.1 p.2 = true) ∧ g.live &&& ~~~g.active b = 0

/-- The operands of a lane-by-lane instruction under the type of MODE are there: the type is one of its own, its names are
allocated, full and not poisoned, and its destination may hold any shape, or the result is uniform (R211, R215, R217,
R220, R299). -/
structure LaneForm.Fits (x : LaneForm) (g : Group) (b : Bool) (t : MType) : Prop where
  mode : g.type = t
  type : x.free = true ∨ g.typeOk x.types = true
  srcs : ∀ p ∈ x.srcs t, g.spanOk p.1 p.2 p.2 = true
  dest : g.spanOk x.d (x.dn t) (x.dn t) = true
  names : Settled g (x.names t)
  shape : g.generalSpan x.d (x.dn t) = true ∨ x.AllUniform g b t

/-- The group with a span of names written over. -/
def Group.withRegs (g : Group) (d : RegName) (vs : List RegVal) : Group :=
  vs.zipIdx.foldl (fun g p => g.withReg (d + BitVec.ofNat 7 p.2) p.1) g

/-- Destination span `d` holds, word by word, the values `f` of the active lanes, and in the other live lanes what it held. -/
def HoldsSpan (g : Group) (b : Bool) (d : RegName) (n : Nat) (vs : List RegVal) (f : Nat → Nat) : Prop :=
  vs.length = n ∧ ∀ i v, vs[i]? = some v →
    Holds g b (d + BitVec.ofNat 7 i) v (fun l => BitVec.ofNat 32 (f l / 2 ^ (32 * i)))

/-! ### Instructions whose lanes see other lanes, predicates or tags -/

/-- The unit left when an operation is taken over units in lane order; the identity over none (R380). -/
def laneFold (op : LaneOp) (m : Word) (t : MType) : List Nat → Nat
  | [] => unitOf (elemBits t) (List.replicate (elemCount t) (identity op t))
  | x :: xs => xs.foldl (fun acc y => (mapUnit t [acc, y] (fun _ es => combine op m t (arg es 0) (arg es 1))).1) x

/-- What an instruction needs and computes from the group as a whole: a condition, the spans it reads, its destination span, the
shape that its result has when every live lane takes it, and the value of the destination span in a lane. -/
structure CrossForm where
  ok : Group → Mask → Prop
  srcs : Group → List (RegName × Nat)
  d : RegName
  dn : Group → Nat
  shape : Group → Mask → Shape
  f : Group → Mask → Nat → Nat

/-- A uniform result when a source is uniform. -/
def uniformIf (c : Bool) : Shape := if c then .uniform else .general

/-- The instructions of R372–R381, R394 and R414–R416 with one destination. -/
def crossForm : Instr → Option CrossForm
  | .sel d a neg _ x =>
    some { ok := fun g _ => g.typeOk isGeneric = true
           srcs := fun g => [(d, unitNames g.type), (a, unitNames g.type)], d := d, dn := fun g => unitNames g.type
           shape := fun g m => uniformIf (g.uniformSpan a (unitNames g.type) && (lanesOf g.width m).all (fun l => g.pred x l != neg))
           f := fun g _ l => if g.pred x l != neg then g.unit a (unitNames g.type) l else g.unit d (unitNames g.type) l }
  | .shfl d a b _ _ =>
    some { ok := fun _ _ => True, srcs := fun _ => [(a, 1), (b, 1)], d := d, dn := fun _ => 1
           shape := fun g _ => uniformIf (g.uniformSpan a 1 || g.uniformSpan b 1)
           f := fun g _ l => (g.word a ((g.word b l).toNat % g.width)).toNat }
  | .shflx d a b _ _ =>
    some { ok := fun _ _ => True, srcs := fun _ => [(a, 1), (b, 1)], d := d, dn := fun _ => 1
           shape := fun g _ => uniformIf (g.uniformSpan a 1)
           f := fun g _ l => (g.word a (Nat.xor l ((g.word b l).toNat % g.width))).toNat }
  | .shflu d a b _ _ =>
    some { ok := fun _ _ => True, srcs := fun _ => [(a, 1), (b, 1)], d := d, dn := fun _ => 1
           shape := fun g _ => uniformIf (g.uniformSpan a 1)
           f := fun g _ l => (g.word a (if (g.word b l).toNat ≤ l then l - (g.word b l).toNat else l)).toNat }
  | .shfld d a b _ _ =>
    some { ok := fun _ _ => True, srcs := fun _ => [(a, 1), (b, 1)], d := d, dn := fun _ => 1
           shape := fun g _ => uniformIf (g.uniformSpan a 1)
           f := fun g _ l => (g.word a (if l + (g.word b l).toNat < g.width then l + (g.word b l).toNat else l)).toNat }
  | .ballot d neg x =>
    some { ok := fun _ _ => True, srcs := fun _ => [], d := d, dn := fun g => if g.width = 64 then 2 else 1
           shape := fun _ _ => .uniform
           f := fun g m _ => (maskWhere g.width (fun l => hasLane m l && (g.pred x l != neg))).toNat }
  | .rdfirst d a _ =>
    some { ok := fun _ _ => True, srcs := fun _ => [(a, 1)], d := d, dn := fun _ => 1, shape := fun _ _ => .uniform
           f := fun g m _ => (g.word a (lowest g.width m)).toNat }
  | .rdlane d a b _ _ =>
    some { ok := fun _ _ => True, srcs := fun _ => [(a, 1), (b, 1)], d := d, dn := fun _ => 1, shape := fun _ _ => .uniform
           f := fun g m _ => (g.word a ((g.word b (lowest g.width m)).toNat % g.width)).toNat }
  | .matchLanes d a _ =>
    some { ok := fun _ _ => True, srcs := fun _ => [(a, 1)], d := d, dn := fun g => if g.width = 64 then 2 else 1
           shape := fun g _ => uniformIf (g.uniformSpan a 1)
           f := fun g m l => (maskWhere g.width (fun k => hasLane m k && decide (g.word a k = g.word a l))).toNat }
  | .reduce d a op _ =>
    some { ok := fun g _ => g.typeOk (laneOpOk op) = true, srcs := fun _ => [(a, 1)], d := d, dn := fun _ => 1
           shape := fun _ _ => .uniform
           f := fun g m _ => laneFold op g.mode g.type ((lanesOf g.width m).map (fun l => (g.word a l).toNat)) }
  | .scan d a ex op _ =>
    some { ok := fun g _ => g.typeOk (laneOpOk op) = true, srcs := fun _ => [(a, 1)], d := d, dn := fun _ => 1
           shape := fun _ _ => .general
           f := fun g m l =>
             let below := (lanesOf g.width m).filter (fun k => decide (k < l) || (!ex && decide (k = l)))
             laneFold op g.mode g.type (below.map (fun k => (g.word a k).toNat)) }
  | .shape d a _ =>
    some { ok := fun _ _ => True, srcs := fun _ => [(a, 1)], d := d, dn := fun _ => 1, shape := fun _ _ => .uniform
           f := fun g _ _ => (g.reg a).val.shape.code }
  | .gen d a _ =>
    some { ok := fun _ _ => True, srcs := fun _ => [(a, 1)], d := d, dn := fun _ => 1, shape := fun _ _ => .general
           f := fun g _ l => (g.word a l).toNat }
  | .uni d a _ =>
    some { ok := fun g m => ∀ l ∈ lanesOf g.width m, g.word a l = g.word a (lowest g.width m)
           srcs := fun _ => [(a, 1)], d := d, dn := fun _ => 1, shape := fun _ _ => .uniform
           f := fun g _ l => (g.word a l).toNat }
  | .aff d a b _ _ =>
    some { ok := fun g _ => g.cls d ≠ some .uniform, srcs := fun _ => [(a, 1), (b, 1)], d := d, dn := fun _ => 1
           shape := fun _ _ => .affine
           f := fun g m l => (g.word a (lowest g.width m) + BitVec.ofNat 32 l * g.word b (lowest g.width m)).toNat }
  | .cvt d a src _ =>
    some { ok := fun g _ => (modeType g.mode).isSome = true ∧ modeSr g.mode = false ∧ cvtSrcNames src g.type ≤ 4 ∧
             cvtDstNames src g.type ≤ 4
           srcs := fun g => [(a, cvtSrcNames src g.type)], d := d, dn := fun g => cvtDstNames src g.type
           shape := fun g _ => uniformIf (g.uniformSpan a (cvtSrcNames src g.type))
           f := fun g _ l => (cvtLane g.mode src g.type none (g.unit a (cvtSrcNames src g.type) l)).1 }
  | _ => none

/-- The operands of such an instruction are there, as in LaneForm.Fits. -/
structure CrossForm.Fits (x : CrossForm) (g : Group) (m : Mask) : Prop where
  ok : x.ok g m
  srcs : ∀ p ∈ x.srcs g, g.spanOk p.1 p.2 p.2 = true
  dest : g.spanOk x.d (x.dn g) (x.dn g) = true
  names : Settled g ((x.srcs g).flatMap (fun p => spanNames p.1 p.2) ++ spanNames x.d (x.dn g))
  shape : g.generalSpan x.d (x.dn g) = true ∨
    (g.live &&& ~~~m = 0 ∧ ∃ c, g.cls x.d = some c ∧ (x.shape g m).le c = true)

/-! ### Shapes, producers and completing traps -/

/-- The affine results of R213: destination, base and stride, from operands that are affine and uniform. -/
def affineResult (g : Group) : Instr → Option (RegName × Word × Word)
  | .add d a b _ _ =>
    (match (g.reg a).val, (g.reg b).val with
     | .affine p q, .affine p' q' => some (d, p + p', q + q')
     | .affine p q, .uniform u => some (d, p + u, q)
     | .uniform u, .affine p q => some (d, u + p, q)
     | _, _ => none)
  | .sub d a b _ _ =>
    (match (g.reg a).val, (g.reg b).val with
     | .affine p q, .affine p' q' => some (d, p - p', q - q')
     | .affine p q, .uniform u => some (d, p - u, q)
     | .uniform u, .affine p q => some (d, u - p, -q)
     | _, _ => none)
  | .addi d a imm _ =>
    (match (g.reg a).val with
     | .affine p q => some (d, p + imm.signExtend 32, q)
     | _ => none)
  | .mul d a b _ _ =>
    (match (g.reg a).val, (g.reg b).val with
     | .affine p q, .uniform u => some (d, p * u, q * u)
     | .uniform u, .affine p q => some (d, p * u, q * u)
     | _, _ => none)
  | .shl d a b _ _ =>
    (match (g.reg a).val, (g.reg b).val with
     | .affine p q, .uniform u => some (d, p <<< u.toNat, q <<< u.toNat)
     | _, _ => none)
  | .shli d a n _ =>
    (match (g.reg a).val with
     | .affine p q => some (d, p <<< n.toNat, q <<< n.toNat)
     | _ => none)
  | _ => none

/-- The names of a producer marked empty, each with the tag of the result over what it held (R217). -/
def Group.emptied (g : Group) (p : Producer) : Group :=
  p.result.foldl (fun g0 w =>
    g0.setReg w.name
      { g0.reg w.name with
        full := false
        val := (match w.val.shape with
          | .uniform => .uniform ((g0.reg w.name).val.lane 0)
          | .affine => .affine ((g0.reg w.name).val.lane 0) ((g0.reg w.name).val.lane 1 - (g0.reg w.name).val.lane 0)
          | .general => .ofLanes g.width (g0.reg w.name).val.lane) }) g

/-- The instruction leaves producer `p` outstanding, its names empty, in `n` pass-cycles; nothing else changes (R217). -/
def Pends (i : Instr) (s : State) (g : Group) (b : Bool) (p : Producer) (n : Nat) : Prop :=
  p.id = s.nextId ∧ p.inWindow = false ∧ p.dests = p.result.map (·.name) ∧
    exec i s = .next ({ s with nextId := s.nextId + 1 }.retire
      { g.emptied p with producers := g.producers ++ [p] } b (g.nextPc b) .none n)

/-- What a producer will write into a span: as HoldsSpan. -/
def WritesSpan (g : Group) (b : Bool) (d : RegName) (n : Nat) (p : Producer) (f : Nat → Nat) : Prop :=
  p.result.map (·.name) = spanNames d n ∧ HoldsSpan g b d n (p.result.map (·.val)) f

/-- The group writes its results, leaving `g'`, and then enters its handler: a completing trap (R291, R295). -/
def CompletesAndTraps (i : Instr) (s : State) (g' : Group) (b : Bool) (n : Nat) (t : Trap) : Prop :=
  exec i s = .next ({ s with cycle := s.cycle + n }.setGroup
    (({ g' with runCycles := g'.runCycles + n, stuck := false, lastB := b }).enterTrap b t (s.cycle + n)))

/-- The completing causes and their enables in MODE[21:16] (R290, R342). -/
def completingEnable : Cause → Option Nat
  | .fpInvalid => some 0 | .fpDivZero => some 1 | .fpOverflow => some 2 | .fpUnderflow => some 3 | .fpInexact => some 4
  | .intDivZero => some 5
  | _ => none

/-- A trap of the group leads to its handler: it is outside trap mode, and has one (R295, R296). -/
structure Handled (g : Group) : Prop where
  mode : g.inTrap = false
  base : g.trapBase ≠ 0

/-! ### Lane accesses -/

/-- No group of the package runs a window or holds an anchor, and group `g` has no anchor ticket: no request is held off and no
window rolls back (R266, R273, R277). -/
structure Calm (s : State) (g : Group) : Prop where
  ticket : g.ticket = none
  others : ∀ x ∈ s.groups, x.window = none ∧ x.anchors = []

/-- The state once an access of a group, and the walker before it, have made their requests and the translations have been used
(R25, R239, R248, R258). -/
def State.requested (s : State) (g : Group) (hs : List Hit) (write : Bool) : State :=
  let s1 := if s.hitWalks g hs = [] then s else s.readBy (s.hitWalks g hs)
  (match s1.request g (hitKeys hs) write with | .inl t | .inr t => t).usedHits (s.ctx g) hs

/-- What requests change where no window runs: caches, translations, home pages, and the errors that reads of memory met; a byte
changes only in a line with errors (R24, R25). -/
def Requests (s u : State) : Prop :=
  u = { s with caches := u.caches, tlb := u.tlb, homes := u.homes, symErrs := u.symErrs, poison := u.poison, mem := u.mem,
               draw := u.draw, mgmt := { s.mgmt with life := u.mgmt.life } } ∧
    ∀ a, Memory.get u.mem a ≠ Memory.get s.mem a → ∃ n, (lineOf a, n) ∈ s.symErrs

/-- Nothing of the group is under way that a window would count as not performed (R264). -/
def Quiet (s : State) (g : Group) : Prop := (∀ p ∈ g.producers, p.inWindow = false) ∧ ∀ h ∈ s.homeAtoms, h.group ≠ g.id

/-- The lane loads: address form, destination, address names, names and bytes of an access, offset, sign extension (R423,
R424). -/
def loadForm : Instr → Option (Form × RegName × RegName × Nat × Nat × BitVec 6 × Bool)
  | .ld d a sz off _ => some (.va true, d, a, sz.names, sz.bytes, off, false)
  | .ldb d a sx off _ => some (.va true, d, a, 1, 1, off, sx)
  | .lds d a sz off _ => some (.scratch, d, a, sz.names, sz.bytes, off, false)
  | .ldw d a sz off _ => some (.window, d, a, sz.names, sz.bytes, off, false)
  | _ => none

/-- The lane stores, likewise; the first name is the data (R423, R424). -/
def storeForm : Instr → Option (Form × RegName × RegName × Nat × Nat × BitVec 6)
  | .st d a sz off _ _ => some (.va true, d, a, sz.names, sz.bytes, off)
  | .stb d a off _ _ => some (.va true, d, a, 1, 1, off)
  | .sts d a sz off _ _ => some (.scratch, d, a, sz.names, sz.bytes, off)
  | .stw d a sz off _ _ => some (.window, d, a, sz.names, sz.bytes, off)
  | _ => none

/-- Where the accesses of the active lanes lead, in lane order. -/
def State.targets (s : State) (g : Group) (b : Bool) (f : Form) (a : RegName) (off : BitVec 6) (size : Nat) (k : Access)
    (coh : Bool) : List LaneTarget :=
  (lanesOf g.width (g.active b)).map (laneTarget s (s.ctx g) g f a off size k coh)

/-- The operands of a lane access are there. -/
structure Operands (g : Group) (b : Bool) (spans : List (RegName × Nat)) : Prop where
  active : lanesOf g.width (g.active b) ≠ []
  allocated : ∀ p ∈ spans, g.spanOk p.1 p.2 p.2 = true
  names : Settled g (spans.flatMap (fun p => spanNames p.1 p.2))

/-- The bytes that a space holds from an address upward, as a number (R1). -/
def State.held (s : State) (sp : Space) (a n : Nat) : Nat :=
  leNat ((List.range n).map (fun i => Memory.get (s.spaceCells sp) (a + i)))

/-- The access of lane `l` among the hits. -/
def hitOf (hs : List Hit) (l : Nat) : Option Hit := hs.find? (fun h => h.lane = l)

/-- The group after an instruction of its open window: counted, with the names that the window writes for the first time
(R264). -/
def Group.counted (g : Group) (ds : List RegName) : Group :=
  g.modWindow (fun w => { w with instrs := w.instrs + 1, shadowed := w.shadowed ++ g.newShadows w ds })

/-- The instruction leaves producer `p` outstanding, its names empty, from a state `u` in which translations were used and
messages sent; `f` is what else it does to the group. -/
def PendsFrom (i : Instr) (s u : State) (g : Group) (b : Bool) (p : Producer) (n : Nat) (f : Group → Group) : Prop :=
  p.id = s.nextId ∧ p.dests = p.result.map (·.name) ∧
    exec i s = .next ({ u with nextId := s.nextId + 1 }.retire
      (f { g.emptied p with producers := g.producers ++ [p] }) b (g.nextPc b) .none n)

/-! ### Uniform operands, booths, windows and engines -/

/-- Name `r` holds the uniform value `v`, full and not poisoned. -/
structure Uniform (g : Group) (r : RegName) (v : Word) : Prop where
  cls : (g.cls r).isSome = true
  settled : Settled g [r]
  val : (g.reg r).val = .uniform v

/-- Name `d` can take a uniform result of every live lane. -/
structure Takes (g : Group) (b : Bool) (d : RegName) : Prop where
  cls : (g.cls d).isSome = true
  settled : Settled g [d]
  all : g.live &&& ~~~g.active b = 0

/-- The `n` names from `a` hold the uniform words of a descriptor (R347). -/
structure Descriptor (g : Group) (a : RegName) (n align : Nat) (ws : List Word) : Prop where
  allocated : g.spanOk a n align = true
  settled : Settled g (spanNames a n)
  uniform : g.uniformSpan a n = true
  words : g.descriptor a n = ws

/-- An entry of the window tables is free (R251). -/
def State.entryFree (s : State) (slot : Nat) : Prop := ∀ w, s.wins.find? (fun x => x.slot = slot) = some w → w.openerTeam = none

/-- The generation of an entry of the window tables (R251). -/
def State.entryGen (s : State) (slot : Nat) : BitVec 8 := ((s.wins.find? (fun x => x.slot = slot)).map (·.gen)).getD 0

/-- The state with one entry of the window tables written. -/
def State.withEntry (s : State) (w : WinEntry) : State :=
  { s with wins := s.wins.filter (fun x => x.slot ≠ w.slot) ++ [w] }

/-- No slot, of a resident group or of a saved one, waits for booth `n`. -/
def State.noneAtBooth (s : State) (n : Nat) : Prop :=
  (∀ x ∈ s.groups, x.slotA.wait ≠ .booth n ∧ x.slotB.wait ≠ .booth n) ∧
    ∀ t ∈ s.teams, ∀ x ∈ t.savedGroups, x.slotA.wait ≠ .booth n ∧ x.slotB.wait ≠ .booth n

/-- A path has room for one more operation, and its team for one more (R227, R305). -/
def Room (s : State) (g : Group) (p : Path) : Prop := g.pathCount.getD (pathIndex p) 0 < 65535 ∧ s.teamWork g.team < 256

/-- The instruction gives its engine an operation with the operands `ws` and the lanes' values `lanes`, and raises its path counter;
and a `taskdec` goes on to the task table (R227, R229, R441, R486). Nothing else changes. -/
def Queues (i : Instr) (s : State) (g : Group) (b : Bool) (kind : OpKind) (ws : List Word) (lanes : List (List Word)) (n : Nat) :
    Prop :=
  ∃ o : EngineOp, o.id = s.nextId ∧ o.team = g.team ∧ o.group = g.num ∧ o.core = g.core ∧ o.kind = kind ∧
    o.operands = ws ∧ o.lanes = lanes ∧ (∀ w, encode i = some w → o.word = w) ∧ o.progress = 0 ∧ o.state = .queued ∧
    (∀ t, s.team? g.team = some t → o.launch = t.launch) ∧
    exec i s = .next ({ s with
        nextId := s.nextId + 1
        ops := s.ops ++ [o]
        decs := s.decs ++ (if kind = OpKind.taskdec then
          [({ vf := (s.ctx g).vf, k := (ws.getD 0 0).toNat, n := (ws.getD 1 0).toNat, op := some s.nextId } : TaskDec)] else []) }.retire
      { g with
        pathCount := g.pathCount.set (pathIndex kind.path) (g.pathCount.getD (pathIndex kind.path) 0 + 1) } b (g.nextPc b) .none n)

/-- A trap of the whole slot that writes no register: a descriptor or handle that the instruction refuses (R293). -/
def Refuses (i : Instr) (s : State) (g : Group) (b : Bool) (lanes : Mask) (dest : BitVec 8) : Prop :=
  Traps i s g b { cause := .badHandle, lanes := lanes, dest := dest, flags := 0 }

/-- The samples that a rasterisation writes: the covered samples `cov` go to the active lanes in ascending order, lanes past the
last take none, and the token that follows is written in every live lane (R477). -/
def Rasters (g : Group) (b : Bool) (d t : RegName) (cov : List (Nat × Nat × Nat)) (p : Producer) : Prop :=
  let ls := lanesOf g.width (g.active b)
  let pick (l : Nat) : Nat × Nat × Nat := cov.getD (ls.takeWhile (· ≠ l)).length (0xFFFFFFFF, 0x7F800000, 0)
  p.kind = .raster ∧
    ∃ v0 v1 v2, p.result.map (fun w => (w.name, w.val)) = [(d, v0), (d + 1, v1), (d + 2, v2),
        (t, .uniform (if ls.length < cov.length then BitVec.ofNat 32 ((pick g.width).1 + 1) else 0))] ∧
      Holds g b d v0 (fun l => BitVec.ofNat 32 (pick l).1) ∧ Holds g b (d + 1) v1 (fun l => BitVec.ofNat 32 (pick l).2.1) ∧
      Holds g b (d + 2) v2 (fun l => BitVec.ofNat 32 (pick l).2.2)

/-- General-capable names, those whose values a window keeps in the checkpoint buffer (R211, R264). -/
def Group.generalNames (g : Group) (ds : List RegName) : List RegName :=
  ds.filter (fun r => decide (r.toNat < g.nG ∨ 120 ≤ r.toNat))

/-- The checkpoint buffer of the core has room for the names that an instruction writes in a window that it opens (R264). -/
def ShadowRoom (s : State) (g : Group) (ds : List RegName) : Prop :=
  s.shadowWords g.core + g.width * (g.generalNames ds).length ≤ 65536

/-- The window that an access opens at the PC of its slot, counted as one instruction of it (R262, R264). -/
def Group.opened (g : Group) (b : Bool) (ds : List RegName) (f : Window → Window) : Group :=
  { g with
    rollbacks := if (g.slot b).pc = g.rollPc then g.rollbacks else 0
    narrowed := g.narrowed && decide ((g.slot b).pc = g.rollPc)
    window := some (f { Window.fresh g.checkpoint (g.slot b).pc with
      instrs := 1, shadowed := g.generalNames ds }) }

/-- Every line of the accesses is held by the core of the group, and none is host memory without coherence. -/
def State.direct (s : State) (g : Group) (hs : List Hit) : Prop := ∀ h ∈ hs, h.plain = false ∧ s.readable g h.key = true

/-- The group after an instruction of one pass-cycle of slot `b` that goes on at `pc`. -/
def Group.passed (g : Group) (b : Bool) (pc : DWord) (n : Nat) : Group :=
  ({ g with lastB := b, runCycles := g.runCycles + n, stuck := false }).setSlot b { g.slot b with pc := pc, wait := .none }

/-- The bytes at a texel's address among the accesses, as read in the state (R483). -/
def State.texelAt (s : State) (hs : List Hit) (n va : Nat) : Nat :=
  ((hs.find? (fun h => h.leaf.any (fun p => p.1 = va))).map (fun h => s.held h.space h.addr n)).getD 0

/-! ### Results under INT32, in words -/

/-- Leading zeros of a word (R400). -/
def leadZeros (x : Word) : Nat := ((List.range 32).takeWhile (fun i => !x.getLsbD (31 - i))).length
/-- Trailing zeros of a word (R400). -/
def trailZeros (x : Word) : Nat := ((List.range 32).takeWhile (fun i => !x.getLsbD i)).length

/-- The field of R399 of a word: first bit and number of bits. -/
def fieldOf (k : Word) : Nat × Nat := ((k.extractLsb' 0 8).toNat, min (k.extractLsb' 8 8).toNat (32 - (k.extractLsb' 0 8).toNat))

/-- What the integer instructions compute from the words of a lane under INT32 without saturation (R387–R400), with their
destination and their sources. -/
def int32Result : Instr → Option (RegName × List RegName × (List Word → Word))
  | .add d a b _ _ => some (d, [a, b], fun x => x.getD 0 0 + x.getD 1 0)
  | .sub d a b _ _ => some (d, [a, b], fun x => x.getD 0 0 - x.getD 1 0)
  | .mul d a b _ _ => some (d, [a, b], fun x => x.getD 0 0 * x.getD 1 0)
  | .mad d a b _ _ _ => some (d, [d, a, b], fun x => x.getD 1 0 * x.getD 2 0 + x.getD 0 0)
  | .min d a b _ _ => some (d, [a, b], fun x => if (x.getD 0 0).sle (x.getD 1 0) then x.getD 0 0 else x.getD 1 0)
  | .max d a b _ _ => some (d, [a, b], fun x => if (x.getD 0 0).sle (x.getD 1 0) then x.getD 1 0 else x.getD 0 0)
  | .abs d a _ => some (d, [a], fun x => if (x.getD 0 0).msb then -(x.getD 0 0) else x.getD 0 0)
  | .neg d a _ => some (d, [a], fun x => -(x.getD 0 0))
  | .addi d a imm _ => some (d, [a], fun x => x.getD 0 0 + imm.signExtend 32)
  | .clamp d a b _ _ _ =>
    some (d, [d, a, b], fun x =>
      let h := if (x.getD 0 0).sle (x.getD 1 0) then x.getD 1 0 else x.getD 0 0
      if h.sle (x.getD 2 0) then h else x.getD 2 0)
  | .mulh d a b _ _ =>
    some (d, [a, b], fun x => (((x.getD 0 0).signExtend 64 * (x.getD 1 0).signExtend 64).extractLsb' 32 32 : Word))
  | .rem d a b _ _ => some (d, [a, b], fun x => if x.getD 1 0 = 0 then x.getD 0 0 else (x.getD 0 0).srem (x.getD 1 0))
  | .and d a b _ _ => some (d, [a, b], fun x => x.getD 0 0 &&& x.getD 1 0)
  | .or d a b _ _ => some (d, [a, b], fun x => x.getD 0 0 ||| x.getD 1 0)
  | .xor d a b _ _ => some (d, [a, b], fun x => x.getD 0 0 ^^^ x.getD 1 0)
  | .andn d a b _ _ => some (d, [a, b], fun x => x.getD 0 0 &&& ~~~(x.getD 1 0))
  | .not d a _ => some (d, [a], fun x => ~~~(x.getD 0 0))
  | .shl d a b _ _ => some (d, [a, b], fun x => x.getD 0 0 <<< (x.getD 1 0).toNat)
  | .shr d a b _ _ => some (d, [a, b], fun x => (x.getD 0 0).sshiftRight (x.getD 1 0).toNat)
  | .rot d a b _ _ => some (d, [a, b], fun x => (x.getD 0 0).rotateLeft (x.getD 1 0).toNat)
  | .shli d a n _ => some (d, [a], fun x => x.getD 0 0 <<< n.toNat)
  | .shri d a n _ => some (d, [a], fun x => (x.getD 0 0).sshiftRight n.toNat)
  | .andi d a imm _ => some (d, [a], fun x => x.getD 0 0 &&& imm.setWidth 32)
  | .ori d a imm _ => some (d, [a], fun x => x.getD 0 0 ||| imm.setWidth 32)
  | .xori d a imm _ => some (d, [a], fun x => x.getD 0 0 ^^^ imm.setWidth 32)
  | .bfe d a b _ _ =>
    some (d, [a, b], fun x =>
      let (pos, n) := fieldOf (x.getD 1 0)
      if n = 0 then 0 else ((x.getD 0 0 >>> pos) <<< (32 - n)).sshiftRight (32 - n))
  | .bfi d a b _ _ _ =>
    some (d, [d, a, b], fun x =>
      let (pos, n) := fieldOf (x.getD 2 0)
      let m : Word := ((1#32 <<< n) - 1) <<< pos
      if n = 0 then x.getD 0 0 else (x.getD 0 0 &&& ~~~m) ||| ((x.getD 1 0 <<< pos) &&& m))
  | .popc d a _ => some (d, [a], fun x => BitVec.ofNat 32 ((List.range 32).countP (fun i => (x.getD 0 0).getLsbD i)))
  | .clz d a _ => some (d, [a], fun x => BitVec.ofNat 32 (leadZeros (x.getD 0 0)))
  | .ctz d a _ => some (d, [a], fun x => BitVec.ofNat 32 (trailZeros (x.getD 0 0)))
  | .brev d a _ => some (d, [a], fun x => (x.getD 0 0).reverse)
  | _ => none

/-! ### Events -/

/-- A sparse register file lists each offset once, in rising order. -/
def Rising (m : List (Nat × Word)) : Prop := (m.map (·.1)).Pairwise (· < ·)

/-- Queue `q` of a function that is not STOPPED is enabled, with its context. -/
structure Enabled (s : State) (vf q : Nat) (x : QueueCtx) : Prop where
  here : s.queue? vf q = some x
  rising : Rising s.vfq
  free : vf ∉ s.stopped
  running : s.running = true

/-- The front end of an ACTIVE queue reads record `r` at HEAD (R71, R72). -/
structure HeadRecord (s : State) (vf q : Nat) (x : QueueCtx) (r : Nat) (ls : List Nat) : Prop extends Enabled s vf q x where
  active : s.queueState vf q = 1
  more : s.head vf q ≠ x.tail
  flushed : x.flush = 0
  record : s.hubRead vf (s.queueDev vf q) (s.qGet64 vf q 0 / 4096 * 4096 + 64 * s.head vf q) 64 = .ok r ls

/-- The record at HEAD has the SEQ that is due, its fields are within their limits, and it has a completion slot (R72). -/
structure GoodRecord (s : State) (vf q r : Nat) : Prop where
  seq : bits r 0 32 = (s.accepted vf q + 1) % 2 ^ 32
  op : opKnown (bits r 32 8) = true
  fields : s.recordBad vf r = false
  slot : (bits r 0 32 + 2 ^ 32 - s.acked vf q) % 2 ^ 32 < s.cqSlots vf q

/-- A record is accepted (R72): ACCEPTED and HEAD advance, and it stands last in the queue as `y`, which satisfies `p`. -/
def Accepts (s t : State) (vf q r : Nat) (x : QueueCtx) (p : SubRecord → Prop) : Prop :=
  t.accepted vf q = bits r 0 32 ∧ t.head vf q = (s.head vf q + 1) % s.sqSlots vf q ∧ t.queueState vf q = 1 ∧
    ∃ c y, t.queue? vf q = some c ∧ c.tail = x.tail ∧ c.records = x.records ++ [y] ∧ y.seq = bits r 0 32 ∧ p y

/-- The queue has entered FAULTED with a cause (R68, R72, R80). -/
def FaultsQueue (t : State) (vf q cause : Nat) : Prop := t.queueState vf q = 4 ∧ t.queueCause vf q = cause

/-- Group `x` is group `g` rolled back to the checkpoint of its window `w` (R268): the window and its producers are gone,
the checkpoint's state is back, SPECCOUNT counts it, and a rollback that `counts` adds to those at the PC (R275). -/
structure Group.RolledBack (g : Group) (w : Window) (counts : Bool) (x : Group) : Prop where
  window : x.window = none
  regs : x.regs = w.ckpt.regs
  preds : x.preds = w.ckpt.preds
  mode : x.mode = w.ckpt.mode
  stack : x.stack = w.ckpt.stack
  pcs : ∀ b, (x.slot b).pc = (if b then w.ckpt.slotB.pc else w.ckpt.slotA.pc)
  masks : ∀ b, (x.slot b).mask = (if b then w.ckpt.slotB.mask else w.ckpt.slotA.mask)
  producers : x.producers = g.producers.filter (fun p => !p.inWindow)
  specCount : x.specCount = g.specCount + 1
  rollbacks : x.rollbacks = g.rollbacks + (if counts then 1 else 0)

/-- The event changes the state to `t`; waits at issue are then tried again, and idle teams noted (R139, R221). -/
def Fires (i : Instr) (s t : State) : Prop := exec i s = .next t.wakeRetry.noteIdle

/-! ### Invariants -/

/-- Every byte space is in its canonical form: memory, the scratchpads of the teams and the grids of the bucket stores. -/
def State.spacesOk (s : State) : Prop :=
  Memory.wf s.mem = true ∧ (∀ t ∈ s.teams, Memory.wf t.scratch = true) ∧ (∀ x ∈ s.stores, Memory.wf x.cells = true)

end Sys2Proof.Machine
end

