-- ==== Sys2Proof/Certificates/Slice0/Obligations.lean ====
section
/-!
DEFINITION. The claims about the package, one definition each; OBLIGATIONS.json lists them.
-/

open Sys2Proof Sys2Proof.Machine

/-! ### Lanes, registers and predicates -/

/-- Every lane-by-lane instruction completes, whatever its type, operands and guard: each active lane of the destination
takes the function of its own source values that R387–R413 and R418 give, and no other state changes (R345, R385, R405). -/
def Obligations.LaneInstructionsComplete : Prop :=
  ∀ (i : Instr) (x : LaneForm) (s : State) (g : Group) (b : Bool) (t : MType),
    laneForm i = some x → Ready s g b (g.nextPc b) → x.Fits g b t → modeEnables g.mode = 0 →
    ∃ vs n, Completes i s (g.withRegs x.d vs) b n ∧
      HoldsSpan g b x.d (x.dn t) vs (fun l => x.f g.mode t ((x.srcs t).map (fun p => g.unit p.1 p.2 l)))

/-- Under INT32 without saturation the integer instructions compute what their rules say, in words (R387–R400). -/
def Obligations.Int32ResultsInWords : Prop :=
  ∀ (i : Instr) (d : RegName) (rs : List RegName) (f : List Word → Word) (s : State) (g : Group) (b : Bool) (x : LaneForm),
    int32Result i = some (d, rs, f) → laneForm i = some x → Ready s g b (g.nextPc b) → x.Fits g b .int32 →
    modeType g.mode = some .int32 → modeSat g.mode = false → modeEnables g.mode = 0 →
    ∃ v n, Completes i s (g.withReg d v) b n ∧ Holds g b d v (fun l => f (rs.map (fun r => g.word r l)))

/-- The instructions that read other lanes, predicates or tags complete with the values of R373–R381, R394 and R414–R416,
and no other state changes. -/
def Obligations.LaneExchangesComplete : Prop :=
  ∀ (i : Instr) (x : CrossForm) (s : State) (g : Group) (b : Bool),
    crossForm i = some x → Ready s g b (g.nextPc b) → x.Fits g (g.active b) → modeEnables g.mode = 0 →
    ∃ vs n, Completes i s (g.withRegs x.d vs) b n ∧
      HoldsSpan g b x.d (x.dn g) vs (fun l => x.f g (g.active b) l)

/-- Affine operands give an affine result by base and stride, in two pass-cycles, under INT32 or UINT32 without saturation when
every live lane is active (R208, R213). A lane-by-lane instruction whose sources are all uniform leaves a uniform
destination when every live lane is active, so that it may write a uniform-capable name (R210, R213). -/
def Obligations.ShapesOfResults : Prop :=
  (∀ (i : Instr) (x : LaneForm) (d : RegName) (p q : Word) (s : State) (g : Group) (b : Bool),
     affineResult g i = some (d, p, q) → laneForm i = some x → Ready s g b (g.nextPc b) →
     (modeType g.mode = some .int32 ∨ modeType g.mode = some .uint32) → modeSat g.mode = false →
     (∀ r ∈ x.names .int32, (g.cls r).isSome = true) → Settled g (x.names .int32) →
     (g.cls d = some .affine ∨ g.cls d = some .general) → g.live &&& ~~~g.active b = 0 →
     Completes i s (g.withReg d (.affine p q)) b 2) ∧
  (∀ (i : Instr) (x : LaneForm) (s : State) (g : Group) (b : Bool) (t : MType),
     laneForm i = some x → Ready s g b (g.nextPc b) → x.Fits g b t → x.AllUniform g b t → modeEnables g.mode = 0 →
     ∃ vs n, Completes i s (g.withRegs x.d vs) b n ∧ vs.length = x.dn t ∧ ∀ v ∈ vs, v.shape = .uniform)

/-- When not every live lane is active and the result in every active lane equals the held value, the destination keeps its tag
and its storage, whatever its class (R214, R215). A write whose shape is wider than the class of its destination raises
SHAPE, and no register changes (R215). `wrlane` writes lane j of its destination when the lane is live, and nothing when it is
not (R377). -/
def Obligations.PartialAndWideWrites : Prop :=
  (∀ (d a : RegName) (ta : Bool) (s : State) (g : Group) (b : Bool),
     Ready s g b (g.nextPc b) → modeType g.mode = some .int32 → (g.cls d).isSome = true → (g.cls a).isSome = true →
     Settled g [a, d] → g.live &&& ~~~g.active b ≠ 0 → g.active b ≠ 0 →
     (∀ l ∈ lanesOf g.width (g.active b), g.word a l = g.word d l) →
     (∀ c, g.cls d = some c → (g.reg d).val.shape.le c = true) →
     ∃ n, Completes (.mov d a ta) s g b n) ∧
  (∀ (d a : RegName) (ta : Bool) (s : State) (g : Group) (b : Bool) (c : Shape),
     Ready s g b (g.nextPc b) → modeType g.mode = some .int32 → g.cls d = some c → (g.cls a).isSome = true →
     Settled g [a, d] → g.live &&& ~~~g.active b = 0 → (g.reg a).val.shape.le c = false → Handled g →
     Traps (.mov d a ta) s g b { cause := .shape, lanes := (g.slot b).mask, dest := 0#1 ++ d, flags := 0 }) ∧
  (∀ (d a x : RegName) (ta tb k : Bool) (s : State) (g : Group) (b : Bool) (j : Nat),
    Ready s g b (g.nextPc b) → g.active b ≠ 0 → g.cls d = some .general → (g.cls a).isSome = true → (g.cls x).isSome = true →
    Settled g [d, a, x] → j = (g.word x (lowest g.width (g.active b))).toNat % g.width →
    (hasLane g.live j = true →
      ∃ v n, Completes (.wrlane d a x ta tb k) s (g.withReg d v) b n ∧
        v.lane j = g.word a (lowest g.width (g.active b)) ∧
        ∀ l, l < g.width → l ≠ j → hasLane g.live l = true → v.lane l = g.word d l) ∧
    (hasLane g.live j = false → ∃ n, Completes (.wrlane d a x ta tb k) s g b n))

/-- With no active lane a lane-by-lane instruction takes one pass-cycle and changes nothing else (R208, R346). -/
def Obligations.NoActiveLaneNoEffect : Prop :=
  ∀ (i : Instr) (s : State) (g : Group) (b : Bool), Ready s g b (g.nextPc b) → g.active b = 0 →
    (∀ x t, laneForm i = some x → x.Fits g b t → Completes i s g b 1) ∧
    (∀ x, crossForm i = some x → x.Fits g (g.active b) → Completes i s g b 1)

/-- `cmp`, `class` and `pfold` write the bits of the active lanes of one predicate, and nothing else (R219, R374, R393,
R411). -/
def Obligations.PredicateInstructionsComplete : Prop :=
  ∀ (s : State) (g : Group) (b : Bool), Ready s g b (g.nextPc b) → modeEnables g.mode = 0 → g.active b ≠ 0 →
    (∀ (d a : RegName) (any ta : Bool) (cc : Cond) (x : PredName) (n : Nat),
      n = unitNames g.type → g.typeOk isGeneric = true → (g.typeOk isFloat = true ∨ (cc ≠ .un ∧ cc ≠ .or)) →
      (any = true → g.typeOk (fun t => isH t || isP t) = true) → g.spanOk d n n = true → g.spanOk a n n = true →
      Settled g (spanNames d n ++ spanNames a n) →
      ∃ c, Completes (.cmp d a any cc ta x) s (g.setPred x (g.active b) (fun l =>
        let bits := (List.range (elemCount g.type)).map (fun e =>
          (eCmp g.mode g.type cc (elemOf g.type (g.unit d n l) e) (elemOf g.type (g.unit a n l) e)).1)
        if any then bits.any id else bits.all id)) b c) ∧
    (∀ (sel : SignSel) (a : RegName) (cls : BitVec 6) (ta : Bool) (x : PredName) (n : Nat),
      n = unitNames g.type → g.typeOk isFPD = true → g.spanOk a n n = true → Settled g (spanNames a n) →
      ∃ c, Completes (.fpClass sel a cls ta x) s (g.setPred x (g.active b) (fun l =>
        (List.range (elemCount g.type)).all (fun e => eClass g.type sel cls (elemOf g.type (g.unit a n l) e)))) b c) ∧
    (∀ (pd x : PredName) (neg : Bool) (kind : FoldKind),
      Completes (.pfold pd neg kind x) s (g.setPred pd (g.active b) (fun _ =>
        let qs := (lanesOf g.width (g.active b)).map (fun l => g.pred x l != neg)
        match kind with
        | .and => qs.all id
        | .or => qs.any id
        | .eqv => qs.all id || qs.all (fun q => !q))) b 1)

/-- A `cvt` under stochastic rounding advances SRSEED once and rounds every lane from it; nothing else changes (R332,
R416). -/
def Obligations.StochasticConversionCompletes : Prop :=
  ∀ (d a : RegName) (src : MType) (ta : Bool) (s : State) (g : Group) (b : Bool) (ns nd : Nat),
    Ready s g b (g.nextPc b) → modeEnables g.mode = 0 → g.active b ≠ 0 → (modeType g.mode).isSome = true →
    modeSr g.mode = true → ns = cvtSrcNames src g.type → nd = cvtDstNames src g.type → ns ≤ 4 → nd ≤ 4 →
    g.spanOk a ns ns = true → g.spanOk d nd nd = true → g.generalSpan d nd = true →
    Settled g (spanNames a ns ++ spanNames d nd) →
    ∃ vs n, Completes (.cvt d a src ta) s (({ g with srseed := srNext g.srseed } : Group).withRegs d vs) b n ∧
      HoldsSpan g b d nd vs (fun l => (cvtLane g.mode src g.type
        (some (fun e => srDraw (srNext g.srseed) l (if elemCount g.type = 1 then 0 else e))) (g.unit a ns l)).1)

/-- `div` with no exception enabled leaves its quotients to a producer, its destination empty (R217, R390–R392).
What the rules leave open here is the model's own (log entry 18). -/
def Obligations.DivisionPends : Prop :=
  ∀ (d a x : RegName) (ta tb : Bool) (s : State) (g : Group) (b : Bool) (n : Nat),
    Ready s g b (g.nextPc b) → modeEnables g.mode = 0 → g.active b ≠ 0 → g.typeOk isGeneric = true → n = unitNames g.type →
    g.spanOk d n n = true → g.spanOk a n n = true → g.spanOk x n n = true → g.generalSpan d n = true →
    Settled g (spanNames d n ++ spanNames a n ++ spanNames x n) →
    ∃ p c, p.kind = .div ∧ p.fills = [] ∧ Pends (.div d a x ta tb) s g b p c ∧
      WritesSpan g b d n p (fun l => (mapUnit g.type [g.unit a n l, g.unit x n l]
        (fun _ xs => eDiv g.mode g.type (arg xs 0) (arg xs 1))).1)

/-- Whatever exceptions are enabled, a lane-by-lane instruction writes its results; it then completes, or enters the handler
with a completing cause whose enable is set (R291, R295, R406). -/
def Obligations.CompletingTrapsWriteResults : Prop :=
  ∀ (i : Instr) (x : LaneForm) (s : State) (g : Group) (b : Bool) (t : MType),
    laneForm i = some x → Ready s g b (g.nextPc b) → x.Fits g b t → Handled g →
    ∃ vs n, HoldsSpan g b x.d (x.dn t) vs (fun l => x.f g.mode t ((x.srcs t).map (fun p => g.unit p.1 p.2 l))) ∧
      (Completes i s (g.withRegs x.d vs) b n ∨
        ∃ tr k, CompletesAndTraps i s (g.withRegs x.d vs) b n tr ∧ completingEnable tr.cause = some k ∧
          (modeEnables g.mode).getLsbD k = true ∧ tr.dest = 0#1 ++ x.d)

/-- What decode refuses, in its order, for lane-by-lane instructions: an operand that is not allocated, not aligned or across a
class gives ILLEGAL_REGISTER, then a type that the opcode does not support ILLEGAL_TYPE; no register changes (R211, R220,
R291, R292). A source that is empty makes the instruction wait at issue, or raises EMPTY_READ when its trap bit is set; a
destination that is empty makes it wait, whatever the trap bits (R218). -/
def Obligations.DecodeCausesAndEmptyNames : Prop :=
  (∀ (i : Instr) (x : LaneForm) (s : State) (g : Group) (b : Bool) (t : MType),
     laneForm i = some x → Ready s g b (g.nextPc b) → modeType g.mode = some t → Handled g →
     ((∃ p ∈ (x.d, x.dn t) :: x.srcs t, g.spanOk p.1 p.2 p.2 = false) →
       Traps i s g b { cause := .illegalRegister, lanes := (g.slot b).mask, dest := 0#1 ++ x.d, flags := 0 }) ∧
     ((∀ p ∈ (x.d, x.dn t) :: x.srcs t, g.spanOk p.1 p.2 p.2 = true) → x.free = false → x.types t = false →
       Traps i s g b { cause := .illegalType, lanes := (g.slot b).mask, dest := 0#1 ++ x.d, flags := 0 })) ∧
  (∀ (d a x : RegName) (s : State) (g : Group) (b : Bool),
     Ready s g b (g.nextPc b) → modeType g.mode = some .int32 → (∀ r ∈ [d, a, x], (g.cls r).isSome = true) →
     ((g.reg a).full = false → ∀ tb, (tb = true → (g.reg x).full = true) → Waits (.add d a x false tb) s g b .retry) ∧
     ((g.reg a).full = false → Handled g → ∀ tb,
       Traps (.add d a x true tb) s g b { cause := .emptyRead, lanes := g.active b, dest := 0#1 ++ d, flags := 0 }) ∧
     ((g.reg a).full = true → (g.reg x).full = true → (g.reg d).full = false → ∀ ta tb,
       Waits (.add d a x ta tb) s g b .retry))

/-! ### Control -/

/-- `nop`, `mode`, `modex`, `yield`, `settle` and `join` take one pass-cycle and change what R362–R364 and R366 say, and nothing
else; `sleep n` then blocks its slot for 16 n cycles (R365). `settle` waits for the rays of a `trace` (R202, R366). -/
def Obligations.PlainControlCompletes : Prop :=
  ∀ (s : State) (g : Group) (b : Bool), Ready s g b (g.nextPc b) →
    Completes .nop s g b 1 ∧
    (NoTrace g → Completes .settle s g b 1) ∧
    (¬ NoTrace g → Waits .settle s g b .retry) ∧
    Completes .yield s { g with yields := true } b 1 ∧
    (∀ imm, Completes (.mode imm) s { g with mode := g.mode.extractLsb' 16 16 ++ imm } b 1) ∧
    (∀ imm, Completes (.modex imm) s { g with mode := 0#10 ++ imm ++ g.mode.extractLsb' 0 16 } b 1) ∧
    (∀ off g', g.inTrap = false → g' = g.setSlot b { g.slot b with jpc := some (g.target b off) } → Steady g' b (g'.nextPc b) →
      Completes (.join off) s g' b 1) ∧
    Completes (.sleep 0) s g b 1 ∧
    (∀ n, n ≠ 0 → Blocks (.sleep n) s g b (.sleep (s.cycle + 1 + 16 * n.toNat)))

/-- `bra` moves its slot to the target; `call` also writes the address of the next word into its pair, uniform; `jr` and `ret`
move it to the address that every lane of the mask reads from the pair (R357, R360, R361). `jr` and `ret` trap when two
lanes of the mask read different addresses, or else the address is not a multiple of 4 (R361). -/
def Obligations.JumpsMoveOrTrap : Prop :=
  (∀ (s : State) (g : Group) (b : Bool) (pc : DWord), Ready s g b pc →
     (∀ off, g.target b off = pc → Jumps (.bra off) s g b pc) ∧
     (∀ d off, g.target b off = pc → g.spanOk d 2 2 = true → Settled g [d, d + 1] → g.live &&& ~~~(g.slot b).mask = 0 →
       Jumps (.call d off) s
         (g.withRegs d [.uniform ((g.nextPc b).extractLsb' 0 32), .uniform ((g.nextPc b).extractLsb' 32 32)]) b pc) ∧
     (∀ a ta, g.spanOk a 2 2 = true → Settled g [a, a + 1] → (∀ l ∈ lanesOf g.width (g.slot b).mask, g.pair a l = pc) →
       (lanesOf g.width (g.slot b).mask ≠ []) → pc.extractLsb' 0 2 = 0 →
       Jumps (.jr a ta) s g b pc ∧ Jumps (.ret a ta) s g b pc)) ∧
  (∀ (s : State) (g : Group) (b ta : Bool) (a : RegName), Issuing s g b → Handled g → g.spanOk a 2 2 = true →
     Settled g [a, a + 1] →
     ((∃ l ∈ lanesOf g.width (g.slot b).mask, ∃ m ∈ lanesOf g.width (g.slot b).mask, g.pair a l ≠ g.pair a m) →
       Traps (.jr a ta) s g b { cause := .indirectDivergence, lanes := (g.slot b).mask, dest := 0xFF, flags := 0 } ∧
       Traps (.ret a ta) s g b { cause := .indirectDivergence, lanes := (g.slot b).mask, dest := 0xFF, flags := 0 }) ∧
     (∀ pc, (∀ l ∈ lanesOf g.width (g.slot b).mask, g.pair a l = pc) → lanesOf g.width (g.slot b).mask ≠ [] →
       pc.extractLsb' 0 2 ≠ 0 →
       Traps (.jr a ta) s g b { cause := .misalignedPc, lanes := (g.slot b).mask, dest := 0xFF, flags := 0 } ∧
       Traps (.ret a ta) s g b { cause := .misalignedPc, lanes := (g.slot b).mask, dest := 0xFF, flags := 0 }))

/-- `brc` outside trap mode: it falls through when no lane is taken, moves the slot whole when every lane of the mask is, and
else splits the slot, into the other slot when that is empty and by a push onto the stack when it is not; `brc.u` raises
UNIFORMITY, and a push that the stack has no room for STACK_OVERFLOW (R222, R358). `brn` moves the slot whole when it has an
active lane and none of them holds p xor n, and else falls through; a word of `brn` with u = 1 is refused at decode (R359). -/
def Obligations.BranchesMoveOrSplit : Prop :=
  (∀ (u n : Bool) (p : PredName) (off : BitVec 19) (s : State) (g : Group) (b : Bool) (taken rest : Mask),
     Issuing s g b → g.inTrap = false →
     taken = maskWhere g.width (fun l => hasLane (g.active b) l && (g.pred p l != n)) → rest = (g.slot b).mask &&& ~~~taken →
     (taken = 0 → Steady g b (g.nextPc b) → Completes (.brc u n p off) s g b 1) ∧
     (taken = (g.slot b).mask → Steady g b (g.target b off) → Jumps (.brc u n p off) s g b (g.target b off)) ∧
     (u = true → taken ≠ 0 → taken ≠ (g.slot b).mask → g.trapBase ≠ 0 →
       Traps (.brc u n p off) s g b { cause := .uniformity, lanes := (g.slot b).mask, dest := 0xFF, flags := 0 }) ∧
     (∀ g', u = false → taken ≠ 0 → taken ≠ (g.slot b).mask → rest ≠ 0 → (g.slot (!b)).mask = 0 → (g.slot b).parked = false →
       g' = (g.place b (g.nextPc b) rest (g.slot b).jpc).place (!b) (g.target b off) taken (g.slot b).jpc →
       Steady g' b (g.nextPc b) → Leaves (.brc u n p off) s g' b) ∧
     (∀ g', u = false → taken ≠ 0 → taken ≠ (g.slot b).mask → (g.slot (!b)).mask ≠ 0 → g.stack.length < g.divMax →
       (g.slot b).parked = false →
       g' = ({ g with stack := { mask := rest, resume := g.nextPc b, join := (g.slot b).jpc } :: g.stack } : Group).place b
         (g.target b off) taken (g.slot b).jpc →
       Steady g' b (g.target b off) → Leaves (.brc u n p off) s g' b) ∧
     (u = false → taken ≠ 0 → taken ≠ (g.slot b).mask → (g.slot (!b)).mask ≠ 0 → g.divMax ≤ g.stack.length → g.trapBase ≠ 0 →
       Traps (.brc u n p off) s g b { cause := .stackOverflow, lanes := (g.slot b).mask, dest := 0xFF, flags := 0 })) ∧
  (∀ (n : Bool) (p : PredName) (off : BitVec 19) (s : State) (g : Group) (b : Bool), Issuing s g b → g.inTrap = false →
     (g.active b ≠ 0 → (∀ l ∈ lanesOf g.width (g.active b), g.pred p l = n) → Steady g b (g.target b off) →
       Jumps (.brn n p off) s g b (g.target b off)) ∧
     (g.active b = 0 ∨ (∃ l ∈ lanesOf g.width (g.active b), g.pred p l ≠ n) → Steady g b (g.nextPc b) →
       Completes (.brn n p off) s g b 1)) ∧
  ∀ w : Word, w.extractLsb' 24 8 = 0x06#8 → w.getLsbD 23 = true → decode w = .error .reservedField

/-- Reconvergence at the boundary after an instruction that goes to the next word, outside trap mode (R224): two slots at one PC
merge into A; at its join PC a slot exchanges with the waiting lanes of the stack's top, takes up the lanes that have arrived,
parks while the other slot has the same join PC, or drops the join PC.
What the rules leave open here is the model's own (log entry 12, for the wait of a merged slot). -/
def Obligations.ReconvergenceAtBoundary : Prop :=
  ∀ (s : State) (g : Group) (b : Bool) (x y : Slot) (pc : DWord), Issuing s g b → g.inTrap = false →
    x = g.slot b → y = g.slot (!b) → pc = g.nextPc b →
    (y.mask ≠ 0 → y.pc = pc → g.stack = [] → y.wait = .none →
      Leaves .nop s ((g.place true 0 0 none).place false pc (x.mask ||| y.mask) none) b) ∧
    (∀ t ts, g.stack = t :: ts → x.jpc = some pc → t.join = some pc → t.resume ≠ pc → t.mask ≠ 0 → y.mask ≠ 0 →
      y.pc ≠ pc → y.pc ≠ t.resume → y.jpc ≠ some y.pc →
      Leaves .nop s (({ g with stack := { t with resume := pc, mask := x.mask } :: ts } : Group).place b t.resume t.mask
        (some pc)) b) ∧
    (∀ t, g.stack = [t] → x.jpc = some pc → t.join = some pc → t.resume = pc → y.mask ≠ 0 → y.pc ≠ pc →
      y.jpc ≠ some y.pc → y.jpc ≠ some pc →
      Leaves .nop s (({ g with stack := [] } : Group).place b pc (x.mask ||| t.mask) none) b) ∧
    (g.stack = [] → x.jpc = some pc → y.mask ≠ 0 → y.jpc = some pc → y.pc ≠ pc →
      Leaves .nop s (g.setSlot b { x with pc := pc, parked := true, wait := .none }) b) ∧
    (g.stack = [] → x.jpc = some pc → y.mask = 0 → Leaves .nop s (g.place b pc x.mask none) b)

/-- `stop` ends the active lanes of its slot: lanes that the guard leaves out go on at the next word, the other slot goes on alone,
and the group ends with its last lane, counting as ended in its team (R207, R367). -/
def Obligations.StopEndsActiveLanes : Prop :=
  ∀ (s : State) (g : Group) (b : Bool) (rest : Mask), Issuing s g b → NoTrace g → g.inTrap = false → g.active b ≠ 0 →
    rest = (g.slot b).mask &&& ~~~g.active b →
    (rest ≠ 0 → ∀ g', g' = g.setSlot b { g.slot b with mask := rest, pc := g.nextPc b, wait := .none } →
      Steady g' b (g.nextPc b) → Leaves .stop s g' b) ∧
    (rest = 0 → (g.slot (!b)).mask ≠ 0 → g.stack = [] → (g.slot (!b)).jpc ≠ some (g.slot (!b)).pc →
      Leaves .stop s (g.setSlot b { g.slot b with mask := 0, pc := g.nextPc b, wait := .none }) b) ∧
    (rest = 0 → (g.slot (!b)).mask = 0 → g.stack = [] → ∀ t, s.team? g.team = some t →
      ∃ u t', exec .stop s = .next u ∧ u.group? g.id = none ∧ u.team? g.team = some t' ∧
        t'.endedGroups = t.endedGroups ++ [g.num] ∧ u.mem = s.mem ∧
        (t.kernel.groups ≤ t.endedGroups.length + 1 → t'.state = .ended))

/-- Barriers (R225, R368): `barc` and `bar` count the first arrival of a group in a phase, `bar` and `barw` block while the
group's pending bit is set, and the arrival that completes the phase inverts the phase bit, clears the count and the pending
bits, and releases the waiting slots. `waitp` goes on when its path counter is at most N, waits at issue while it is more,
and raises a pending fault as a suppressing trap whatever N, which returns to none (R370). -/
def Obligations.BarriersAndPathWaits : Prop :=
  (∀ (k : BitVec 3) (s : State) (g : Group) (b : Bool) (t : Team), Ready s g b (g.nextPc b) → NoTrace g → s.team? g.team = some t →
     (g.barPend.getD k.toNat false = false → s.arrivedWith g t k.toNat < t.kernel.groups →
       ∀ u, u = s.withBarrier g.team k.toNat (fun x => { x with count := x.count + 1 }) →
       exec (.barc k) s = .next (u.retire { g with barPend := g.barPend.set k.toNat true } b (g.nextPc b) .none 1) ∧
       exec (.bar k) s = .next
         (u.retire { g with barPend := g.barPend.set k.toNat true } b (g.nextPc b) (.barrier k.toNat) 1)) ∧
     (g.barPend.getD k.toNat false = true → Completes (.barc k) s g b 1 ∧ Blocks (.bar k) s g b (.barrier k.toNat)) ∧
     (g.barPend.getD k.toNat false = true → Blocks (.barw k) s g b (.barrier k.toNat)) ∧
     (g.barPend.getD k.toNat false = false → Completes (.barw k) s g b 1) ∧
     (g.barPend.getD k.toNat false = false → t.kernel.groups ≤ s.arrivedWith g t k.toNat →
       ∀ u, u = { s.withBarrier g.team k.toNat (fun x => { phase := !x.phase, count := 0 }) with
           groups := s.groups.map (fun (y : Group) => if y.team = g.team then y.released k.toNat else y) } →
       exec (.barc k) s = .next (u.retire (g.released k.toNat) b (g.nextPc b) .none 1) ∧
       exec (.bar k) s = .next (u.retire (g.released k.toNat) b (g.nextPc b) .none 1))) ∧
  (∀ (path : Path) (n : BitVec 14) (s : State) (g : Group) (b : Bool) (k c : Nat) (f : BitVec 8), Issuing s g b →
     k = (match path with | .copy => 0 | .matrix => 1 | .render => 2 | .queue => 3) →
     g.pathCount[k]? = some c → g.pathFault[k]? = some f →
     (f = 0 → c ≤ n.toNat → Steady g b (g.nextPc b) → Completes (.waitp path n) s g b 1) ∧
     (f = 0 → n.toNat < c → Waits (.waitp path n) s g b (.path path n.toNat)) ∧
     (∀ cause, Handled g → cause ∈ [Cause.pageFault, .badHandle, .eccUncorrectable] → f = cause.code →
       exec (.waitp path n) s = .next (s.setGroup
         (({ g with pathFault := g.pathFault.set k 0, lastB := b }).enterTrap b
           { cause := cause, lanes := (g.slot b).mask, dest := 0xFF, flags := 0 } s.cycle))))

/-! ### Special registers, traps and the handler -/

/-- `csrr` gives each special register its value under the slot's mask; LANEID is affine, a read of CLOCK latches CLOCKH, and
nothing else changes (R493, R494).
What the rules leave open here is the model's own (log entry 48, for CORE of a pair team). -/
def Obligations.CsrrReadsSpecialRegisters : Prop :=
  ∀ (d : RegName) (s : State) (g : Group) (b : Bool) (t : Team) (l : Launch), Ready s g b (g.nextPc b) →
    s.team? g.team = some t → s.launch? t.launch = some l → Settled g [d] →
    (g.cls d = some .general ∨ g.cls d = some .affine) → g.live &&& ~~~(g.slot b).mask = 0 →
    Completes (.csrr d 0x000) s (g.withReg d (.affine 0 1)) b 1 ∧
    Completes (.csrr d 0x008) s
      { g.withReg d (.uniform (BitVec.ofNat 32 s.cycle)) with clockH := BitVec.ofNat 32 (s.cycle / 2 ^ 32) } b 1 ∧
    (∀ p ∈ ([(0x001, BitVec.ofNat 32 g.num), (0x002, BitVec.ofNat 32 t.index), (0x003, BitVec.ofNat 32 (g.core % 64)),
        (0x004, BitVec.ofNat 32 (g.core / 64)), (0x005, l.seq), (0x009, g.clockH), (0x010, g.mode), (0x011, g.srseed),
        (0x012, g.specCount), (0x018, BitVec.ofNat 32 (g.pathCount.getD 0 0)), (0x019, BitVec.ofNat 32 (g.pathCount.getD 1 0)),
        (0x01A, BitVec.ofNat 32 (g.pathCount.getD 2 0)), (0x01B, BitVec.ofNat 32 (g.pathCount.getD 3 0)),
        (0x020, g.trapCause), (0x021, g.trapPc.extractLsb' 2 30 ++ 0#2), (0x022, g.trapPc.extractLsb' 32 32),
        (0x023, g.trapMask.extractLsb' 0 32), (0x024, g.trapMask.extractLsb' 32 32), (0x025, 0#24 ++ g.trapDest),
        (0x026, g.trapMode), (0x027, g.trapBase.extractLsb' 0 32), (0x028, g.trapBase.extractLsb' 32 32)]
        : List (BitVec 12 × Word)),
      Completes (.csrr d p.1) s (g.withReg d (.uniform p.2)) b 1)

/-- `csrw` writes a uniform value into each register that the mode of the group may write, reserved bits left out (R293, R342,
R493, R495). `csrw TRAPRES` in trap mode writes the lanes of TRAPMASK of the name in TRAPDEST, or the bits of a predicate
(R294). -/
def Obligations.CsrwWritesSpecialRegisters : Prop :=
  (∀ (d : RegName) (k : Bool) (s : State) (g : Group) (b : Bool) (v : Word), Ready s g b (g.nextPc b) → NoTrace g →
     (g.cls d).isSome = true → Settled g [d] → (g.reg d).val = .uniform v →
     Completes (.csrw d 0x010 k) s { g with mode := 0#10 ++ v.extractLsb' 0 22 } b 1 ∧
     Completes (.csrw d 0x011 k) s { g with srseed := v } b 1 ∧
     (v.extractLsb' 0 2 = 0 →
       Completes (.csrw d 0x027 k) s { g with trapBase := g.trapBase.extractLsb' 32 32 ++ v } b 1) ∧
     Completes (.csrw d 0x028 k) s { g with trapBase := 0#15 ++ v.extractLsb' 0 17 ++ g.trapBase.extractLsb' 0 32 } b 1 ∧
     (g.inTrap = true →
       Completes (.csrw d 0x012 k) s { g with specCount := v } b 1 ∧
       Completes (.csrw d 0x021 k) s { g with trapPc := g.trapPc.extractLsb' 32 32 ++ v } b 1 ∧
       Completes (.csrw d 0x022 k) s { g with trapPc := 0#15 ++ v.extractLsb' 0 17 ++ g.trapPc.extractLsb' 0 32 } b 1 ∧
       Completes (.csrw d 0x023 k) s { g with trapMask := g.trapMask.extractLsb' 32 32 ++ v } b 1 ∧
       Completes (.csrw d 0x024 k) s
         (if g.width = 64 then { g with trapMask := v ++ g.trapMask.extractLsb' 0 32 } else g) b 1 ∧
       Completes (.csrw d 0x025 k) s { g with trapDest := v.extractLsb' 0 8 } b 1 ∧
       Completes (.csrw d 0x026 k) s { g with trapMode := v } b 1)) ∧
  (∀ (d : RegName) (k : Bool) (s : State) (g : Group) (b : Bool), Ready s g b (g.nextPc b) → NoTrace g → g.inTrap = true →
     (g.cls d).isSome = true → Settled g [d] →
     (∀ r : RegName, g.trapDest = 0#1 ++ r → g.cls r = some .general → Settled g [r] →
       ∃ v, Completes (.csrw d 0x029 k) s (g.withReg r v) b 1 ∧
         ∀ l, l < g.width → hasLane g.live l = true → v.lane l = (if hasLane g.trapMask l then g.word d l else g.word r l)) ∧
     (∀ p : PredName, g.trapDest = 0x10#5 ++ p →
       Completes (.csrw d 0x029 k) s (g.setPred p (g.trapMask &&& g.live) (fun l => (g.word d l).getLsbD 0)) b 1))

/-- A special register that is absent or may not be written in the mode of the group, `rft`, `save` and `rest` outside trap mode,
and a word that is no instruction raise ILLEGAL_OPCODE, and no register changes (R340, R344, R493, R497, R498). -/
def Obligations.AbsentRegistersAreIllegal : Prop :=
  ∀ (d a : RegName) (k ta next : Bool) (s : State) (g : Group) (b : Bool) (t : Trap), Issuing s g b → Handled g →
    t = { cause := .illegalOpcode, lanes := (g.slot b).mask, dest := 0xFF, flags := 0 } →
    (∀ n : BitVec 12, n ∉ ([0x000, 0x001, 0x002, 0x003, 0x004, 0x005, 0x008, 0x009, 0x010, 0x011, 0x012, 0x018, 0x019, 0x01A,
        0x01B, 0x020, 0x021, 0x022, 0x023, 0x024, 0x025, 0x026, 0x027, 0x028] : List (BitVec 12)) →
      Traps (.csrr d n) s g b t) ∧
    (∀ n : BitVec 12, n ∉ ([0x010, 0x011, 0x027, 0x028] : List (BitVec 12)) → Traps (.csrw d n k) s g b t) ∧
    Traps (.rft next) s g b t ∧ Traps (.save a ta) s g b t ∧ Traps (.rest a ta) s g b t ∧
    ∀ w, Traps (.illegalOpcode w) s g b t

/-- `trap n` enters the handler: the trap registers take the cause, the address of the word, the lanes, no destination and MODE;
MODE becomes 0, and the slot goes to TRAPBASE with its mask (R293, R295, R496). -/
def Obligations.SoftwareTrapEntersHandler : Prop :=
  ∀ (n : BitVec 16) (s : State) (g : Group) (b : Bool), Issuing s g b → NoTrace g → Handled g →
    CompletesAndTraps (.trap n) s g b 1 { cause := .software, lanes := (g.slot b).mask, dest := 0xFF, flags := 0 } ∧
    ∃ u h, exec (.trap n) s = .next u ∧ u.group? g.id = some h ∧
      h.trapCause = (if b then 0x111#32 else 0x11#32) ∧ h.trapPc = (g.slot b).pc &&& 0x1FFFFFFFFFFFC#64 ∧
      h.trapMask = (g.slot b).mask ∧ h.trapDest = 0xFF ∧ h.trapMode = g.mode ∧ h.mode = 0 ∧ h.trapB = some b ∧
      (h.slot b).pc = g.trapBase ∧ (h.slot b).mask = (g.slot b).mask ∧ h.slot (!b) = g.slot (!b) ∧
      h.regs = g.regs ∧ h.preds = g.preds ∧ h.stack = g.stack ∧ u.mem = s.mem

/-- A trap without a handler halts the group with the trap's code, and any trap in trap mode with DOUBLE: its lanes end and its
launch fails with that cause, its group number and the PC (R76, R295–R297). In trap mode `join`, `brc` and `brn` without u,
a divergent `jr`, and `rft` to an address that is not a multiple of 4 halt the group with DOUBLE (R296, R298).
What the rules leave open here is the model's own (log entry 30, for brc and brn). -/
def Obligations.HaltsAndDoubleTraps : Prop :=
  (∀ (n : BitVec 16) (s : State) (g : Group) (b : Bool) (t : Team) (l : Launch) (c : Nat), Issuing s g b → NoTrace g →
     s.team? g.team = some t → s.launch? t.launch = some l → l.cause = none →
     ((g.inTrap = false ∧ g.trapBase = 0 ∧ c = 0x11) ∨ (g.inTrap = true ∧ c = 0x17)) →
     ∃ u l', exec (.trap n) s = .next u ∧ u.group? g.id = none ∧ u.launch? t.launch = some l' ∧ l'.cause = some c ∧
       l'.faultGroup = g.num ∧ l'.faultPc = (g.slot b).pc ∧ l'.aborted = true ∧ u.mem = s.mem) ∧
  (∀ (s : State) (g : Group) (b : Bool) (t : Team) (l : Launch) (i : Instr), Issuing s g b → g.inTrap = true →
     s.team? g.team = some t → s.launch? t.launch = some l → l.cause = none →
     ((∃ off, i = .join off) ∨ (∃ n p off, i = .brc false n p off) ∨ (∃ n p off, i = .brn n p off) ∨
       (∃ a ta, (i = .jr a ta ∨ i = .ret a ta) ∧ g.spanOk a 2 2 = true ∧ Settled g [a, a + 1] ∧
         ∃ j ∈ lanesOf g.width (g.slot b).mask, ∃ m ∈ lanesOf g.width (g.slot b).mask, g.pair a j ≠ g.pair a m) ∨
       (∃ next, i = .rft next ∧ NoTrace g ∧ g.trapPc.extractLsb' 0 2 ≠ 0)) →
     ∃ u l', exec i s = .next u ∧ u.group? g.id = none ∧ u.launch? t.launch = some l' ∧ l'.cause = some 0x17 ∧
       l'.faultPc = (g.slot b).pc)

/-- `rft` in trap mode gives MODE back from TRAPMODE and resumes the slot at TRAPPC, or at TRAPPC + 4, with its mask; the other
slot thaws (R298, R497). -/
def Obligations.RftReturnsFromHandler : Prop :=
  ∀ (next : Bool) (s : State) (g : Group) (b : Bool) (pc : DWord) (g' : Group), Issuing s g b → NoTrace g → g.inTrap = true →
    pc = (if next then g.trapPc + 4 else g.trapPc) → pc.extractLsb' 0 2 = 0 →
    g' = ({ g with mode := 0#10 ++ g.trapMode.extractLsb' 0 22, trapB := none } : Group).setSlot b
      { g.slot b with pc := pc, wait := .none } → Steady g' b pc →
    Leaves (.rft next) s g' b

/-! ### Loads, stores and atomics -/

/-- A lane load whose lanes all lead to bytes, every line of them readable, leaves to a producer the bytes at each lane's
address, extended as its size says, and changes nothing else but for the requests of the access (R262, R423–R425, R299).
What the rules leave open here is the model's own (log entry 18). -/
def Obligations.ReadableLoadsPend : Prop :=
  ∀ (i : Instr) (f : Form) (d a : RegName) (n bytes : Nat) (off : BitVec 6) (sx : Bool) (s u : State) (g : Group) (b : Bool)
    (hs : List Hit),
    loadForm i = some (f, d, a, n, bytes, off, sx) → Ready s g b (g.nextPc b) → Calm s g →
    Operands g b [(d, n), (a, f.names)] → g.generalSpan d n = true →
    s.targets g b f a off bytes .read false = hs.map .hit →
    (∀ h ∈ hs, h.plain = false ∧ s.readable g h.key = true) → u = s.requested g hs false →
    ∃ p c, p.kind = .load ∧ p.inWindow = false ∧ p.fills = [] ∧ PendsFrom i s u g b p c id ∧
      (∀ w ∈ p.result, w.poison = hs.any u.poisoned) ∧
      WritesSpan g b d n p (fun l =>
        match hitOf hs l with
        | some h =>
          let x := u.held h.space h.addr bytes
          if sx = true ∧ 128 ≤ x then x + 2 ^ 32 - 256 else x
        | none => 0)

/-- A lane load that reaches a line its core does not hold, or host memory without coherence, opens a run-ahead window at its
PC, notes the lines it read, and leaves its values to a producer of the window (R262, R264, R265).
What the rules leave open here is the model's own (log entries 19 and 21). -/
def Obligations.RemoteLoadsOpenWindows : Prop :=
  ∀ (i : Instr) (f : Form) (d a : RegName) (n bytes : Nat) (off : BitVec 6) (sx : Bool) (s u : State) (g : Group) (b : Bool)
    (hs : List Hit),
    loadForm i = some (f, d, a, n, bytes, off, sx) → Ready s g b (g.nextPc b) → Calm s g →
    Operands g b [(d, n), (a, f.names)] → g.generalSpan d n = true → ShadowRoom s g (spanNames d n) →
    s.targets g b f a off bytes .read false = hs.map .hit →
    (∃ h ∈ hs, h.plain = true ∨ s.readable g h.key = false) → u = s.requested g hs false →
    ∃ p c st, p.kind = .load ∧ p.inWindow = true ∧ (Quiet s g → st = false) ∧
      PendsFrom i s u g b p c (fun x => { x with
        rollbacks := if (g.slot b).pc = g.rollPc then g.rollbacks else 0
        narrowed := g.narrowed && decide ((g.slot b).pc = g.rollPc)
        window := some { Window.fresh g.checkpoint (g.slot b).pc with
          instrs := 1, shadowed := g.generalNames (spanNames d n), reads := hitKeys hs, stalled := st } }) ∧
      WritesSpan g b d n p (fun l =>
        match hitOf hs l with
        | some h =>
          let x := u.held h.space h.addr bytes
          if sx = true ∧ 128 ≤ x then x + 2 ^ 32 - 256 else x
        | none => 0)

/-- A lane store whose lanes all lead to bytes opens a window that queues one write a lane, of the low bytes of its data to the
address of the lane, and asks for the lines its core does not own; no byte changes before the window commits (R264, R265,
R425). -/
def Obligations.StoresQueueInWindow : Prop :=
  ∀ (i : Instr) (f : Form) (d a : RegName) (n bytes : Nat) (off : BitVec 6) (s u : State) (g : Group) (b : Bool) (hs : List Hit),
    storeForm i = some (f, d, a, n, bytes, off) → Ready s g b (g.nextPc b) → Calm s g →
    Operands g b [(d, n), (a, f.names)] → s.targets g b f a off bytes .write false = hs.map .hit →
    u = (s.requested g hs true).requestOwn g.core (hitKeys hs) →
    ∃ c st, (Quiet s g → st = false) ∧ exec i s = .next (u.retire { g with
        rollbacks := if (g.slot b).pc = g.rollPc then g.rollbacks else 0
        narrowed := g.narrowed && decide ((g.slot b).pc = g.rollPc)
        window := some { Window.fresh g.checkpoint (g.slot b).pc with
          instrs := 1, writes := hitKeys hs, hostStores := (hs.filter (·.plain)).length, stalled := st,
          stores := [hs.map (fun h =>
            { space := h.space, addr := h.addr, data := toLe bytes (g.unit d n h.lane), keep := [] })] } }
      b (g.nextPc b) .none c)

/-- A load, store or atomic whose lanes all lead to open scratchpad windows sends its active messages, after which the group
issues nothing until they have executed; a result is left to a producer (R252, R271). -/
def Obligations.WindowAccessesSendMessages : Prop :=
  ∀ (a d : RegName) (s : State) (g : Group) (b : Bool) (ws : List (Nat × Nat × Nat)), Ready s g b (g.nextPc b) → ws ≠ [] →
    (∀ (i : Instr) (f : Form) (n bytes : Nat) (off : BitVec 6) (sx : Bool), loadForm i = some (f, d, a, n, bytes, off, sx) →
      Operands g b [(d, n), (a, f.names)] → g.generalSpan d n = true →
      s.targets g b f a off bytes .read false = ws.map (fun w => .win w.1 w.2.1 w.2.2) →
      ∃ p c, p.kind = .load ∧ p.inWindow = false ∧ p.result.map (·.name) = spanNames d n ∧
        PendsFrom i s { s with msgs := s.msgs ++ messagesOf s g (some s.nextId) (.load sx) bytes (fun _ => (0, 0)) ws } g b p c
          (fun x => { x with block := .message })) ∧
    (∀ (i : Instr) (f : Form) (n bytes : Nat) (off : BitVec 6), storeForm i = some (f, d, a, n, bytes, off) →
      Operands g b [(d, n), (a, f.names)] →
      s.targets g b f a off bytes .write false = ws.map (fun w => .win w.1 w.2.1 w.2.2) →
      ∃ c, exec i s = .next
        ({ s with msgs := s.msgs ++ messagesOf s g none .store bytes (fun l => (g.unit d n l, 0)) ws }.retire
          { g with block := .message } b (g.nextPc b) .none c)) ∧
    (∀ (op : AtomOp) (ta w64 : Bool), Operands g b [(d, atomSpan op w64), (a, 1)] → g.generalSpan d (atomNames w64) = true →
      s.targets g b .window a 0 (4 * atomNames w64) .write false = ws.map (fun w => .win w.1 w.2.1 w.2.2) →
      ∃ p c, p.kind = .load ∧ p.inWindow = false ∧ p.result.map (·.name) = spanNames d (atomNames w64) ∧
        PendsFrom (.atoms d a true op ta w64) s
          { s with msgs := s.msgs ++ messagesOf s g (some s.nextId) (.atom op) (4 * atomNames w64) (atomOperands g d op w64) ws }
          g b p c (fun x => { x with block := .message }))

/-- `ldone` leaves to a producer, uniform, the bytes at the address that its uniform pair gives (R427). -/
def Obligations.UniformLoadPends : Prop :=
  ∀ (d a : RegName) (sz : AccSize) (off : BitVec 6) (ta : Bool) (s u : State) (g : Group) (b : Bool) (h : Hit) (c : Shape),
    Ready s g b (g.nextPc b) → Calm s g → Operands g b [(d, sz.names), (a, 2)] → g.uniformSpan a 2 = true →
    g.live &&& ~~~g.active b = 0 → g.cls d = some c →
    laneTarget s (s.ctx g) g (.va false) a off sz.bytes .read false (lowest g.width (g.active b)) = .hit h →
    h.plain = false → s.readable g h.key = true → u = s.requested g [h] false →
    ∃ p, p.kind = .load ∧ p.inWindow = false ∧
      PendsFrom (.ldone d a sz off ta) s u g b p (if sz.bytes = 8 then 2 else if sz.bytes = 16 then 4 else 1) id ∧
      p.result.map (·.name) = spanNames d sz.names ∧
      p.result.map (·.val) = (wordsOf sz.names (u.held h.space h.addr sz.bytes)).map .uniform

/-- A speculative atomic opens a window: each lane, in lane order, reads what the lanes before it wrote, writes its new value
into the store queue, and leaves the old one to a producer; the lines are held (R273, R429–R432). The lanes of an atomic in
order: lane by lane the old value is read through the writes before it, and the new value is queued unless the line is
poisoned (R431, R434). -/
def Obligations.SpeculativeAtomicsPend : Prop :=
  (∀ (i : Instr) (f : Form) (d a : RegName) (op : AtomOp) (w64 ta : Bool) (coh : Bool) (s u : State) (g : Group) (b : Bool)
     (hs : List Hit) (vs : List (Nat × Nat)) (qs : List QWrite),
     ((i = .atom d a false op ta w64 ∧ f = .va false ∧ coh = true) ∨ (i = .atoms d a false op ta w64 ∧ f = .scratch ∧ coh = false)) →
     Ready s g b (g.nextPc b) → Calm s g → Operands g b [(d, atomSpan op w64), (a, f.names)] →
     g.generalSpan d (atomNames w64) = true → ShadowRoom s g (spanNames d (atomNames w64)) →
     s.targets g b f a 0 (4 * atomNames w64) .write coh = hs.map .hit →
     (vs, qs) = atomLanes (s.requested g hs true) (4 * atomNames w64)
       (fun l old => atomNew op w64 old (atomOperands g d op w64 l).1 (atomOperands g d op w64 l).2) [] hs →
     u = (s.requested g hs true).requestOwn g.core (hitKeys hs) →
     ∃ p c w, p.kind = .load ∧ p.inWindow = true ∧ w.ckpt = g.checkpoint ∧ w.pc = (g.slot b).pc ∧ w.instrs = 1 ∧
       w.shadowed = g.generalNames (spanNames d (atomNames w64)) ∧ (Quiet s g → w.stalled = false) ∧ w.reads = hitKeys hs ∧ w.writes = hitKeys hs ∧ w.atoms = (hitKeys hs).filter (fun k => k.space = .mem) ∧
       w.stores = (if qs = [] then [] else [qs]) ∧
       PendsFrom i s u g b p c (fun x => { x with
         rollbacks := if (g.slot b).pc = g.rollPc then g.rollbacks else 0
         narrowed := g.narrowed && decide ((g.slot b).pc = g.rollPc)
         window := some w }) ∧
       WritesSpan g b d (atomNames w64) p (fun l => ((vs.find? (fun v => v.1 = l)).map (·.2)).getD 0)) ∧
  (∀ (s : State) (bytes : Nat) (f : Nat → Nat → Nat) (qs qs' : List QWrite) (h : Hit) (hs : List Hit) (old : Nat)
     (rest : List (Nat × Nat) × List QWrite),
     old = s.peek qs h.space h.addr bytes →
     qs' = (if s.poisoned h then qs
       else qs ++ [{ space := h.space, addr := h.addr, data := toLe bytes (f h.lane old), keep := [] }]) →
     rest = atomLanes s bytes f qs' hs →
     atomLanes s bytes f qs (h :: hs) = ((h.lane, old) :: rest.1, rest.2))

/-- A home-performed `atom` or `red` sends its lanes to their homes and goes on in a new window whose checkpoint lies after it;
no byte changes until the lanes are performed (R432, R433).
What the rules leave open here is the model's own (log entry 21). -/
def Obligations.HomeAtomicsAreSent : Prop :=
  ∀ (i : Instr) (d a : RegName) (op : AtomOp) (w64 ta result : Bool) (s u : State) (g : Group) (b : Bool) (hs : List Hit) (m : Nat),
    ((i = .atom d a true op ta w64 ∧ result = true ∧ m = atomSpan op w64) ∨
      (i = .red d a op ta w64 ∧ result = false ∧ m = atomNames w64)) →
    Ready s g b (g.nextPc b) → NoTrace g → Calm s g → Operands g b [(d, m), (a, 2)] →
    (result = true → g.generalSpan d (atomNames w64) = true ∧ ShadowRoom s g (spanNames d (atomNames w64))) →
    s.targets g b (.va false) a 0 (4 * atomNames w64) .write true = hs.map .hit →
    u = (if s.hitWalks g hs = [] then s else s.readBy (s.hitWalks g hs)).usedHits (s.ctx g) hs →
    ∃ t x w h, exec i s = .next t ∧ t.homeAtoms = s.homeAtoms ++ [h] ∧ h.group = g.id ∧ h.op = op ∧ h.w64 = w64 ∧
      h.producer = (if result then some s.nextId else none) ∧
      h.lanes = hs.map (fun h => (h.lane, h.addr, atomOperands g d op w64 h.lane)) ∧
      t.group? g.id = some x ∧ x.homeOut = g.homeOut + hs.length ∧ x.window = some w ∧ w.pc = g.nextPc b ∧
      (w.ckpt.slotA = x.slotA ∧ w.ckpt.slotB = x.slotB) ∧ w.stores = [] ∧ (x.slot b).pc = g.nextPc b ∧
      x.preds = g.preds ∧ x.mode = g.mode ∧ t.mem = u.mem ∧ t.teams = s.teams ∧
      (result = false → x.regs = g.regs ∧ x.producers = g.producers) ∧
      (result = true → ∃ p, x.producers = g.producers ++ [p] ∧ p.id = s.nextId ∧ p.inWindow = false ∧
        p.result.map (·.name) = spanNames d (atomNames w64))

/-- `pref` writes no register and raises no trap, no group, team or window changes, and no byte but of a line with memory errors
(R25, R428). A translation that is used changes the caches of translations and the home pages known from them alone (R239).
The requests of an access change caches, translations and what memory errors do (R25, R248).
What the rules leave open here is the model's own (log entries 7 and 13). -/
def Obligations.PrefetchAndTranslationUse : Prop :=
  (∀ (a : RegName) (sz : AccSize) (off : BitVec 6) (ta : Bool) (s : State) (g : Group) (b : Bool),
     Ready s g b (g.nextPc b) → Operands g b [(a, 2)] →
     ∃ t c, exec (.pref a sz off ta) s = .next t ∧ t.groups = (s.retire g b (g.nextPc b) .none c).groups ∧
       t.teams = s.teams ∧ t.cycle = s.cycle + c ∧
       ∀ x, Memory.get t.mem x ≠ Memory.get s.mem x → ∃ n, (lineOf x, n) ∈ s.symErrs) ∧
  (∀ (s u : State) (c : Ctx) (hs : List Hit), u = s.usedHits c hs → u = { s with tlb := u.tlb, homes := u.homes }) ∧
  (∀ (s : State) (g : Group) (hs : List Hit) (write : Bool), Calm s g → Requests s (s.requested g hs write))

/-- A cause in a lane of an access stops the whole instruction before any lane acts: the cause that is first in the order of
R292 is reported with exactly its lanes (R242, R291–R293, R425). Replayable faults park the group, with its slot at the
instruction: no register changes, and each page waits to be posted or joins its record (R242, R243). -/
def Obligations.AccessFaults : Prop :=
  (∀ (i : Instr) (f : Form) (d a : RegName) (n bytes : Nat) (off : BitVec 6) (s : State) (g : Group) (b : Bool) (k : Access)
     (dest : BitVec 8) (cause : Cause),
     ((∃ sx, loadForm i = some (f, d, a, n, bytes, off, sx) ∧ k = .read ∧ dest = 0#1 ++ d ∧ g.generalSpan d n = true) ∨
       (storeForm i = some (f, d, a, n, bytes, off) ∧ k = .write ∧ dest = 0xFF)) →
     Issuing s g b → Handled g → Operands g b [(d, n), (a, f.names)] →
     (∃ l, LaneTarget.cause l cause ∈ s.targets g b f a off bytes k false) →
     (∀ l x, LaneTarget.cause l x ∈ s.targets g b f a off bytes k false → x = cause ∨ cause.rank < x.rank) →
     Traps i s g b { cause := cause, dest := dest, flags := 0, lanes := maskWhere g.width (fun l =>
       (s.targets g b f a off bytes k false).any (fun t =>
         match t with | .cause m x => decide (m = l ∧ x = cause) | _ => false)) }) ∧
  (∀ (i : Instr) (f : Form) (d a : RegName) (n bytes : Nat) (off : BitVec 6) (s : State) (g : Group) (b : Bool) (k : Access)
     (ps : List (Nat × Nat)),
     ((∃ sx, loadForm i = some (f, d, a, n, bytes, off, sx) ∧ k = .read ∧ g.generalSpan d n = true) ∨
       (storeForm i = some (f, d, a, n, bytes, off) ∧ k = .write)) →
     Issuing s g b → Operands g b [(d, n), (a, f.names)] → ps ≠ [] →
     (∀ t ∈ s.targets g b f a off bytes k false,
       (∃ h, t = .hit h) ∨ (∃ l w o, t = .win l w o) ∨ ∃ p ∈ ps, t = .park (.page p.1) p.2) →
     ps = (s.targets g b f a off bytes k false).filterMap (fun t => match t with | .park (.page n) va => some (n, va) | _ => none) →
     ∃ t x, exec i s = .next t ∧ t.group? g.id = some x ∧
       x = { g with block := .fault, parkedOn := (ps.map (fun p => Parked.page p.1)).eraseDups } ∧ t.mem = s.mem ∧
       ∀ p ∈ ps, ∃ r ∈ t.faults, r.vf = (s.ctx g).vf ∧ r.page = p.1 ∧ FaultAgent.group g.id ∈ r.agents)

/-! ### Synchronisation, matrix and engine instructions -/

/-- The synchronising instructions on uniform operands: `wopen` takes the lowest free entry of the core that holds the offset, or
gives all ones; `wclose` frees an entry of its own team once nothing sent under it is outstanding; `fence` blocks the group while
the work of its scope is outstanding; `ticket` draws NEXT and `serve` raises SERVING of a booth; `waitt` goes on or waits by
SERVING; `waitc` goes on or waits by the word at its address (R251, R286, R435–R440).
What the rules leave open here is the model's own (log entry 31). -/
def Obligations.SynchronisationCompletes : Prop :=
  ∀ (s : State) (g : Group) (b : Bool) (a d : RegName) (ta : Bool) (v : Word),
    Ready s g b (g.nextPc b) → NoTrace g → g.active b ≠ 0 →
    (∀ (sw : Bool) (t : Team) (core e : Nat), Uniform g a v → Takes g b d → s.team? g.team = some t → v.toNat % 128 = 0 →
      v.toNat < 128 * t.kernel.scratch →
      core = (if t.pair = true ∧ 128 * ((t.kernel.scratch + 1) / 2) ≤ v.toNat then t.core + 1 else t.core) → e < 64 →
      s.entryFree (64 * core + e) → (∀ f, f < e → ¬ s.entryFree (64 * core + f)) →
      exec (.wopen d a sw ta) s = .next ((s.withEntry
          { slot := 64 * core + e, openerTeam := some g.team, offset := v.toNat, sw := sw,
            gen := s.entryGen (64 * core + e) }).retire
        (g.withReg d (.uniform (0#16 ++ BitVec.ofNat 2 (core % 4) ++ BitVec.ofNat 6 e ++ s.entryGen (64 * core + e)))) b
        (g.nextPc b) .none 1)) ∧
    (∀ (sw : Bool) (t : Team) (core : Nat), Uniform g a v → Takes g b d → s.team? g.team = some t → v.toNat % 128 = 0 →
      v.toNat < 128 * t.kernel.scratch →
      core = (if t.pair = true ∧ 128 * ((t.kernel.scratch + 1) / 2) ≤ v.toNat then t.core + 1 else t.core) →
      (∀ f, f < 64 → ¬ s.entryFree (64 * core + f)) →
      Completes (.wopen d a sw ta) s (g.withReg d (.uniform 0xFFFFFFFF)) b 1) ∧
    (∀ w, Uniform g a v → s.window? (s.ctx g) v.toNat = some w → w.openerTeam = some g.team →
      ((∀ m ∈ s.msgs, m.slot ≠ w.slot) →
        exec (.wclose a ta) s = .next ((s.withEntry { w with openerTeam := none, gen := w.gen + 1 }).retire g b (g.nextPc b)
          .none 1)) ∧
      ((∃ m ∈ s.msgs, m.slot = w.slot) → Waits (.wclose a ta) s g b .retry)) ∧
    (∀ sc x, x = fenceScope (s.pmode (s.ctx g).vf) sc →
      ((x = .fabric → g.xstOut = 0) ∧ (x = .fabric ∨ x = .device ∨ x = .package → g.hostOut = 0 ∧ g.presents = 0) →
        Completes (.fence sc) s { g with block := .none } b 1) ∧
      (((x = .fabric ∧ g.xstOut ≠ 0) ∨ ((x = .fabric ∨ x = .device ∨ x = .package) ∧ (g.hostOut ≠ 0 ∨ g.presents ≠ 0))) →
        Completes (.fence sc) s { g with block := .fence x } b 1)) ∧
    (∀ n, Uniform g a v → v.toNat < 16 * bits (s.boothallot (s.ctx g).vf) 0 9 →
      n = 16 * bits (s.boothallot (s.ctx g).vf) 16 8 + v.toNat →
      (Takes g b d →
        ∃ u : State, u = { s with booths := u.booths } ∧ u.booth n = { s.booth n with next := (s.booth n).next + 1 } ∧
          (∀ m, m ≠ n → u.booth m = s.booth m) ∧
          exec (.ticket d a ta) s = .next (u.retire (g.withReg d (.uniform (s.booth n).next)) b (g.nextPc b) .none 1)) ∧
      (s.noneAtBooth n →
        ∃ u : State, u = { s with booths := u.booths } ∧ u.booth n = { s.booth n with serving := (s.booth n).serving + 1 } ∧
          (∀ m, m ≠ n → u.booth m = s.booth m) ∧ exec (.serve a ta) s = .next (u.retire g b (g.nextPc b) .none 1)) ∧
      (∃ u, exec (.serve a ta) s = .next u ∧ u.booth n = { s.booth n with serving := (s.booth n).serving + 1 } ∧
        ∀ x ∈ u.groups, x.slotA.wait ≠ .booth n ∧ x.slotB.wait ≠ .booth n) ∧
      (∀ (x : RegName) (tb : Bool) (w : Word), Uniform g x w →
        (((s.booth n).serving - w).toNat < 2 ^ 31 → Completes (.waitt a x ta tb) s g b 1) ∧
        (2 ^ 31 ≤ ((s.booth n).serving - w).toNat → Waits (.waitt a x ta tb) s g b (.booth n)))) ∧
    (∀ (x : RegName) (tb : Bool) (w : Word) (h : Hit) (u : State), Calm s g → g.spanOk a 2 2 = true → Settled g [a, a + 1] →
      g.uniformSpan a 2 = true → Uniform g x w →
      laneTarget s (s.ctx g) g (.va false) a 0 4 .read true (lowest g.width (g.active b)) = .hit h →
      u = s.requested g [h] false →
      (u.held h.space h.addr 4 ≠ w.toNat → exec (.waitc a x ta tb) s = .next (u.retire g b (g.nextPc b) .none 1)) ∧
      (u.held h.space h.addr 4 = w.toNat →
        exec (.waitc a x ta tb) s = .next (u.modGroup g.id (fun y => y.waits b
          (.monitor (lineOf h.addr) (u.monitorFree (some g.core) (lineOf h.addr)) h.addr w.toNat u.cycle)))))

/-- `mcfg` takes up a tile configuration whose reserved bits are zero, and refuses another; on uniform operands in range and tiles
at rest, `mwr`, `mclr` and `mcvt` write the words that R456–R458 give of one tile, and `mrd` leaves its fragment to a
producer (R443–R446, R455). An operation on a tile that others are to reach first arrives and waits (R444). A word written to a tile reads back and leaves the other words alone. -/
def Obligations.MatrixMovesComplete : Prop :=
  ∀ (s : State) (g : Group) (b : Bool), Ready s g b (g.nextPc b) → g.active b ≠ 0 →
    (∀ (a : RegName) (ta : Bool) (w0 w1 w2 : Word), Descriptor g a 3 1 [w0, w1, w2] →
      (w0.extractLsb' 12 20 = 0 → Completes (.mcfg a ta) s { g with tileCfg := w2 ++ w1 ++ w0 } b 1) ∧
      (w0.extractLsb' 12 20 ≠ 0 → Handled g → Refuses (.mcfg a ta) s g b (g.slot b).mask 0xFF)) ∧
    (∀ (d a x : RegName) (ta tb k : Bool) (tile row : Word) (t : Team) (n : Nat), Uniform g a tile → Uniform g x row →
      s.team? g.team = some t → tile.toNat < t.kernel.acc → row.toNat < 32 → (g.width = 64 → row.toNat % 2 = 0) →
      s.tileBusy g tile.toNat = false → n = (if g.width = 16 then 2 else 1) → g.spanOk d n n = true →
      Settled g (spanNames d n) →
      exec (.mwr d a x ta tb k) s = .next ((s.modTeam g.team (fun t => t.setAcc tile.toNat
          ((List.range n).flatMap (fun i => (lanesOf g.width (g.active b)).map (fun l =>
            (fragmentWord g.width row.toNat l i, g.word (d + BitVec.ofNat 7 i) l)))))).retire g b (g.nextPc b) .none
        (max 4 (popLanes g.width (g.active b)) * n)) ∧
      (g.generalSpan d n = true →
        ∃ p c, p.kind = .mrd ∧ Pends (.mrd d a x ta tb) s g b p c ∧
          WritesSpan g b d n p (fun l => natOfWords ((List.range n).map (fun i =>
            t.accWord tile.toNat (fragmentWord g.width row.toNat l i)))))) ∧
    (∀ (a : RegName) (ta : Bool) (tile : Word) (t : Team), Uniform g a tile → s.team? g.team = some t →
      tile.toNat < t.kernel.acc → s.tileBusy g tile.toNat = false →
      exec (.mclr a ta) s = .next ((s.modTeam g.team (fun t => t.setAcc tile.toNat
        ((List.range 1024).map (fun i => (i, 0))))).retire g b (g.nextPc b) .none 1)) ∧
    (∀ (a : RegName) (ta : Bool) (tile : Word), Uniform g a tile → tile.toNat < s.accOf g → s.tileBusy g tile.toNat = true →
      exec (.mclr a ta) s = .next ((s.tileArrives g tile.toNat (.write ((List.range 1024).map (fun i => (i, 0))))).retire g b
        (g.nextPc b) .none 1)) ∧
    (∀ (d a : RegName) (ta : Bool) (ty : TileType) (dst src : Word) (t : Team), Uniform g d dst → Uniform g a src →
      s.team? g.team = some t → dst.toNat < t.kernel.acc → src.toNat < t.kernel.acc → s.tileBusy g dst.toNat = false →
      s.tileBusy g src.toNat = false →
      exec (.mcvt d a ty ta) s = .next ((s.modTeam g.team (fun t' => t'.setAcc dst.toNat
        (tileConvert g.mode ty (fun i => t.accWord src.toNat i)))).retire g b (g.nextPc b) .none 1)) ∧
    (∀ (t : Team) (tile i k j : Nat) (v : Word), (t.acc.map (·.1)).Pairwise (· < ·) → i < 1024 → j < 1024 →
      (t.setAcc tile [(i, v)]).accWord k j = (if k = tile ∧ j = i then v else t.accWord k j) ∧
        ((t.setAcc tile [(i, v)]).acc.map (·.1)).Pairwise (· < ·))

/-- Every engine instruction with a good descriptor or handle, while its path and its team have room, gives its engine an operation
with the operands it captured and raises its path counter, and goes on at once; with a bad one it raises BAD_HANDLE and gives its
engine nothing (R227–R229, R283, R347, R441, R450, R463, R472, R473, R480, R486, R487).
What the rules leave open here is the model's own (log entry 24, for a misaligned address of enq). -/
def Obligations.EngineInstructionsQueue : Prop :=
  ∀ (s : State) (g : Group) (b ta : Bool) (a : RegName) (ws : List Word), Ready s g b (g.nextPc b) →
    (Descriptor g a 10 1 ws → ∀ all, all = ws ++ wordsOf 3 g.tileCfg.toNat →
      (Room s g .matrix → mmaBad (mmaArgs all) (dw ws 4) false (s.accOf g) (s.ctx g).bytes = false →
        Queues (.mma a ta) s g b .mma all [] 1) ∧
      (Room s g .matrix → mmaBad (mmaArgs all) (dw ws 4) true (s.accOf g) (s.ctx g).bytes = false →
        Queues (.mloop a ta) s g b .mloop all [] 1) ∧
      (Handled g → mmaBad (mmaArgs all) (dw ws 4) true (s.accOf g) (s.ctx g).bytes = true →
        Refuses (.mma a ta) s g b (g.slot b).mask 0xFF ∧ Refuses (.mloop a ta) s g b (g.slot b).mask 0xFF)) ∧
    (Descriptor g a 6 1 ws → Room s g .copy → g.pathCount.getD 0 0 < s.copyqOf g →
      copyBad (copyArgs false ws) false (dw ws 5) (s.taskCount (s.ctx g).vf) (s.ctx g).bytes (s.copyqOf g) = false →
      Queues (.copy a ta) s g b .copy ws [] 1) ∧
    (Descriptor g a 9 1 ws → Room s g .copy → g.pathCount.getD 0 0 < s.copyqOf g →
      copyBad (copyArgs true ws) true (dw ws 8) (s.taskCount (s.ctx g).vf) (s.ctx g).bytes (s.copyqOf g) = false →
      Queues (.copyt a ta) s g b .copyt ws [] 1) ∧
    (Descriptor g a 3 1 ws →
      (Room s g .render → dq ws 0 % 16 = 0 → dw ws 2 ≤ 3 → Queues (.bin a ta) s g b .bin ws [] 1) ∧
      (Handled g → (dq ws 0 % 16 ≠ 0 ∨ 3 < dw ws 2) → Refuses (.bin a ta) s g b (g.slot b).mask 0xFF)) ∧
    (∀ x, s.ownedStore g.team = some x →
      (Descriptor g a 4 1 ws → Room s g .render → dq ws 0 % 16 = 0 → dw ws 2 < 2 ^ 17 → dw ws 3 % 8 = 0 →
        dw ws 3 + 8 ≤ (s.ctx g).bytes → x.grids.length + s.dicesOf g.team < 256 → Queues (.dice a ta) s g b .dice ws [] 1) ∧
      (Descriptor g a 6 1 ws → Room s g .render → ∀ al, al = (if bits (dw ws 3) 0 1 = 0 then 8 else 4) → dq ws 0 % al = 0 →
        dw ws 2 % al = 0 → bits (dw ws 3) 1 31 = 0 → dq ws 4 % 128 = 0 → Queues (.resolve a ta) s g b .resolve ws [] 1)) ∧
    (s.ownedStore g.team = none → Handled g →
      (Descriptor g a 4 1 ws →
        Traps (.dice a ta) s g b { cause := .bucketOwner, lanes := (g.slot b).mask, dest := 0xFF, flags := 0 }) ∧
      (Descriptor g a 6 1 ws →
        Traps (.resolve a ta) s g b { cause := .bucketOwner, lanes := (g.slot b).mask, dest := 0xFF, flags := 0 })) ∧
    (Descriptor g a 2 2 ws → Room s g .queue → Queues (.enq a ta) s g b .enq ws [] 1) ∧
    (∀ (d : RegName) (k : Bool) (t : Team) (l : Launch), s.team? g.team = some t → s.launch? t.launch = some l →
      g.active b ≠ 0 → (g.cls d).isSome = true →
      (g.cls a).isSome = true → Settled g [d, a] → Room s g .queue →
      (∀ y ∈ lanesOf g.width (g.active b), ∃ q, l.queues[(g.word a y).toNat]? = some q ∧ d.toNat + q.pay ≤ 128 ∧
        (∀ r ∈ spanNames d q.pay, (g.cls r).isSome = true) ∧ Settled g (spanNames d q.pay)) →
      Queues (.regroup d a ta k) s g b .regroup [] ((lanesOf g.width (g.active b)).map (fun y =>
          BitVec.ofNat 32 y :: g.word a y ::
            (spanNames d ((l.queues[(g.word a y).toNat]?.map (·.pay)).getD 0)).map (fun r => g.word r y)))
        (max 4 (popLanes g.width (g.active b)))) ∧
    (∀ (n : BitVec 8) (k : Word), Uniform g a k → g.active b ≠ 0 →
      (Room s g .queue → k.toNat < s.taskCount (s.ctx g).vf →
        Queues (.taskdec a n ta) s g b .taskdec [k, n.setWidth 32] [] 1) ∧
      (Handled g → s.taskCount (s.ctx g).vf ≤ k.toNat → Refuses (.taskdec a n ta) s g b (g.active b) 0xFF))

/-! ### Rendering, rays, textures and frames -/

/-- With an owned bucket: `rast5` and `rast3` leave to a producer the samples that their patch covers from the token on, and the next
token; `gld` leaves the bytes of its grids; `gst` and `swr` queue their writes in a window. Without one each raises BUCKET_OWNER
(R469, R475–R479).
What the rules leave open here is the model's own (log entries 18 and 26, for the token and the layers). -/
def Obligations.BucketAccessesComplete : Prop :=
  ∀ (s : State) (g : Group) (b ta tb : Bool) (a d : RegName), Ready s g b (g.nextPc b) → g.active b ≠ 0 →
    (∀ (x : Store) (fr : Frame), s.ownedStore g.team = some x → s.storeFrame x = some fr →
      (∀ (t : RegName) (tok : Word), Uniform g t tok → t ∉ spanNames d 3 → g.spanOk d 3 1 = true →
        g.generalSpan d 3 = true → Settled g (spanNames d 3) →
        (∀ ws, Descriptor g a 9 1 ws →
          ∃ p c, Pends (.rast3 d a t ta tb) s g b p c ∧
            Rasters g b d t (if ws.all (fun w => f32finite w.toNat) then
              coveredToken (x.region fr.desc) (rast3Corners ws) tok.toNat else []) p) ∧
        (∀ (av : Word) (gr : Grid) (m : Nat) (hs : List Hit) (u : State), Uniform g a av → Calm s g →
          x.grid? (av.toNat / 2 ^ 16) = some gr → m = av.toNat % 2 ^ 10 → av.toNat / 2 ^ 10 % 2 ^ 6 = 0 → m < gr.nu * gr.nv →
          ([(m % gr.nu, m / gr.nu), (m % gr.nu + 1, m / gr.nu), (m % gr.nu + 1, m / gr.nu + 1), (m % gr.nu, m / gr.nu + 1)].flatMap
            (fun q => vertexParts gr.nu q.1 q.2)).map (fun (o : Nat) => s.gridTarget (s.ctx g) x 0 gr.handle o 16 .read) =
            hs.map .hit →
          s.direct g hs → u = s.requested g hs false →
          ∃ p c, p.inWindow = false ∧ PendsFrom (.rast5 d a t ta tb) s u g b p c id ∧
            ∀ parts cs, parts = hs.map (fun h => u.held h.space h.addr 16) →
              cs = (List.range 4).map (fun i => cornerOf (parts.getD (3 * i) 0 + 2 ^ 128 * parts.getD (3 * i + 1) 0 +
                2 ^ 256 * parts.getD (3 * i + 2) 0)) →
              Rasters g b d t (if cs.all (·.2) then coveredToken (x.region fr.desc) (cs.map (·.1)) tok.toNat else []) p)) ∧
      (∀ (sz : AccSize) (off : BitVec 6) (ls : List Nat) (hs : List Hit) (u : State), Calm s g → ls = lanesOf g.width (g.active b) →
        Operands g b [(d, sz.names), (a, 1)] →
        (g.generalSpan d sz.names = true →
          ls.map (fun l => s.gridTarget (s.ctx g) x l ((g.word a l).toNat / 2 ^ 16)
            (((g.word a l).toNat % 2 ^ 16 : Nat) + off.toInt * sz.bytes) sz.bytes .read) = hs.map .hit →
          s.direct g hs → u = s.requested g hs false →
          ∃ p c, p.kind = .load ∧ p.inWindow = false ∧ p.grids = (ls.map (fun l => (g.word a l).toNat / 2 ^ 16)).eraseDups ∧
            PendsFrom (.gld d a sz off ta) s u g b p c id ∧
            WritesSpan g b d sz.names p (fun l => match hitOf hs l with
              | some h => u.held h.space h.addr sz.bytes
              | none => 0)) ∧
        (ls.map (fun l => s.gridTarget (s.ctx g) x l ((g.word a l).toNat / 2 ^ 16)
            (((g.word a l).toNat % 2 ^ 16 : Nat) + off.toInt * sz.bytes) sz.bytes .write) = hs.map .hit →
          u = (s.requested g hs true).requestOwn g.core (hitKeys hs) →
          ∃ c st, (Quiet s g → st = false) ∧ exec (.gst d a sz off ta tb) s = .next (u.retire (g.opened b [] (fun w => { w with
            stalled := st, writes := hitKeys hs, hostStores := (hs.filter (·.plain)).length
            grids := (ls.map (fun l => (g.word a l).toNat / 2 ^ 16)).eraseDups
            stores := [hs.map (fun h =>
              { space := h.space, addr := h.addr, data := toLe sz.bytes (g.unit d sz.names h.lane)
                keep := (List.range sz.bytes).map (fun i => gridKeep ((gridOffset (g.word a h.lane) off sz.bytes).toNat + i)) })] }))
            b (g.nextPc b) .none c))) ∧
      (∀ (k : Bool) (ls : List Nat), g.spanOk d 4 4 = true → g.spanOk a 2 2 = true → Settled g (spanNames d 4 ++ spanNames a 2) →
        ls = (lanesOf g.width (g.active b)).filter (fun l => decide (g.word d l ≠ 0xFFFFFFFF)) →
        (ls ≠ [] → (∀ l ∈ ls, (g.word d l).toNat < (x.region fr.desc).size) →
          ((∀ l ∈ ls, 0x3C00 ≤ (g.word (d + 3) l).toNat / 2 ^ 16) ∨
            s.recordFault x fr.desc (((s.team? g.team).map (·.launch)).getD 0) = none) →
          ∃ st, (Quiet s g → st = false) ∧
          exec (.swr d a ta k) s = .next (s.retire (g.opened b [] (fun w => { w with
            stalled := st
            samples := ls.map (fun l => { id := (g.word d l).toNat, depth := g.word (d + 1) l, rg := g.word (d + 2) l,
                                          ba := g.word (d + 3) l, key := g.pair a l }) }))
            b (g.nextPc b) .none (max 4 (popLanes g.width (g.active b))))) ∧
        (ls = [] → Completes (.swr d a ta k) s g b (max 4 (popLanes g.width (g.active b)))) ∧
        (∀ c, Handled g → (∀ l ∈ ls, (g.word d l).toNat < (x.region fr.desc).size) →
          (∃ l ∈ ls, (g.word (d + 3) l).toNat / 2 ^ 16 < 0x3C00) →
          s.recordFault x fr.desc (((s.team? g.team).map (·.launch)).getD 0) = some c →
          Traps (.swr d a ta k) s g b { cause := c, lanes := g.active b, dest := 0xFF, flags := 0 }) ∧
        (∀ out, Handled g → out ≠ 0 →
          out = maskWhere g.width (fun l => decide (l ∈ ls ∧ (x.region fr.desc).size ≤ (g.word d l).toNat)) →
          Traps (.swr d a ta k) s g b { cause := .bucketOwner, lanes := out, dest := 0xFF, flags := 0 }))) ∧
    (s.ownedStore g.team = none → Handled g →
      (∀ (sz : AccSize) (off : BitVec 6) (k : Bool), Operands g b [(d, sz.names), (a, 1)] →
        Traps (.gst d a sz off ta k) s g b { cause := .bucketOwner, lanes := g.active b, dest := 0xFF, flags := 0 } ∧
        (g.generalSpan d sz.names = true →
          Traps (.gld d a sz off ta) s g b { cause := .bucketOwner, lanes := g.active b, dest := 0#1 ++ d, flags := 0 })))

/-- `trace` leaves to a producer the rays of its active lanes, captured with their words; `sample` and `sampleg` leave the colour that
the texels at their coordinates give, of level 0 or mixed from two levels of detail (R202, R481–R485).
What the rules leave open here is the model's own (log entry 18). -/
def Obligations.RaysAndTexturesPend : Prop :=
  ∀ (s : State) (g : Group) (b ta tb : Bool) (a x d : RegName) (ls : List Nat), Ready s g b (g.nextPc b) →
    ls = lanesOf g.width (g.active b) → ls ≠ [] →
    (g.spanOk d 6 2 = true → g.spanOk a 8 4 = true → g.spanOk x 2 2 = true → g.generalSpan d 6 = true →
      Settled g (spanNames a 8 ++ spanNames x 2 ++ spanNames d 6) → (∀ l ∈ ls, bits (g.word x l).toNat 1 5 = 0) →
      s.raysOf g.core + ls.length ≤ 4096 →
      ∃ p c, p.kind = .trace ∧ p.inWindow = false ∧ p.result.map (·.name) = spanNames d 6 ∧
        p.rays = ls.map (fun l => LaneRay.start l
          ((spanNames a 8).map (fun r => g.word r l) ++ [g.word x l, g.word (x + 1) l])) ∧
        PendsFrom (.trace d a x ta tb) s (s.takeRays g.core ls.length) g b p c id) ∧
    (∀ (va : DWord) (d0 d1 : Hit) (tex : Texture), g.spanOk d 4 4 = true → g.spanOk x 2 2 = true → g.generalSpan d 4 = true →
      g.uniformSpan x 2 = true → g.pair x 0 = va → va.toNat % 32 = 0 → Calm s g →
      s.resolveVa (s.ctx g) 0 va 16 .read false false = .hit d0 →
      s.resolveVa (s.ctx g) 0 (va + 16) 16 .read false false = .hit d1 →
      textureOf (s.held d0.space d0.addr 16 + 2 ^ 128 * s.held d1.space d1.addr 16) = some tex →
      (∀ (foot : Nat → Footprint) (hs : List Hit) (u : State), g.spanOk a 2 2 = true →
        Settled g (spanNames a 2 ++ spanNames x 2 ++ spanNames d 4) →
        foot = (fun l => tex.footprint 0 (g.word a l).toNat (g.word (a + 1) l).toNat) →
        ls.flatMap (fun l => (tex.reads 0 (foot l)).map (fun v =>
          s.resolveVa (s.ctx g) l (BitVec.ofNat 64 v) tex.bytes .read false false)) = hs.map .hit →
        s.direct g (d0 :: d1 :: hs) → u = s.requested g (d0 :: d1 :: hs) false →
        ∃ p c, p.kind = .sample ∧ p.inWindow = false ∧ PendsFrom (.sample d a x ta tb) s u g b p c id ∧
          WritesSpan g b d 4 p (fun l => natOfWords ((tex.colour 0 (foot l) (u.texelAt hs tex.bytes)).map (BitVec.ofNat 32)))) ∧
      (∀ (lev : Nat → Nat × Nat × Nat) (foot : Nat → Nat → Footprint) (hs : List Hit) (u : State), g.spanOk a 3 2 = true →
        Settled g (spanNames a 3 ++ spanNames x 2 ++ spanNames d 4) →
        lev = (fun l => tex.lod (g.word (a + 2) l).toNat) →
        foot = (fun l k => tex.footprint k (g.word a l).toNat (g.word (a + 1) l).toNat) →
        ls.flatMap (fun l => (tex.reads (lev l).1 (foot l (lev l).1) ++ tex.reads (lev l).2.1 (foot l (lev l).2.1)).map (fun v =>
          s.resolveVa (s.ctx g) l (BitVec.ofNat 64 v) tex.bytes .read false false)) = hs.map .hit →
        s.direct g (d0 :: d1 :: hs) → u = s.requested g (d0 :: d1 :: hs) false →
        ∃ p c, p.kind = .sample ∧ p.inWindow = false ∧ PendsFrom (.sampleg d a x ta tb) s u g b p c id ∧
          WritesSpan g b d 4 p (fun l => natOfWords ((mixColour (lev l).2.2
            (tex.colour (lev l).1 (foot l (lev l).1) (u.texelAt hs tex.bytes))
            (tex.colour (lev l).2.1 (foot l (lev l).2.1) (u.texelAt hs tex.bytes))).map (BitVec.ofNat 32)))))

/-- The `bkt` instructions on a frame of their function: `bkt.open` captures a valid descriptor in the lowest free slot and zeroes the bin
directory and the pool headers; `bkt.seal` blocks its slot until the seal takes effect; `bkt.claim` gives the head of the deque of
its die, or says that there is none; `bkt.close` frees a slot none of whose buckets is owned; `bkt.free` releases a grid
(R135, R150–R152, R174, R470, R471).
What the rules leave open here is the model's own (log entry 25). -/
def Obligations.BucketInstructionsComplete : Prop :=
  ∀ (s : State) (g : Group) (b ta : Bool) (a d : RegName) (c : Ctx), Ready s g b (g.nextPc b) → NoTrace g → c = s.ctx g →
    (∀ (ws : List Word) (va desc h : Nat) (ps qs : List (Nat × Nat × Bool)), Descriptor g a 2 2 ws → (g.cls d).isSome = true →
      Settled g [d] → va = dq ws 0 → va % 64 = 0 → s.opRange c.core c.vf c.dev false va 64 = .ok ps →
      desc = leNat (s.readPieces ps) → s.poisonedPieces ps = false → (∀ x ∈ s.groups, x.window = none) →
      s.locks = [] → fdValid desc = true →
      (s.freeFrame c.vf c.dev = none →
        ∃ t, exec (.bktOpen d a ta) s = .next t ∧ t.frames = s.frames ∧
          (∀ x, Memory.get t.mem x ≠ Memory.get s.mem x → ∃ n, (lineOf x, n) ∈ s.symErrs) ∧
          t.group? g.id = some ((g.withReg d (.uniform 0xFFFFFFFF)).passed b (g.nextPc b) 1)) ∧
      (s.freeFrame c.vf c.dev = some h → s.openPieces c (openStores desc) = .ok qs → (g.slot (!b)).wait = .none →
        ∃ t f, exec (.bktOpen d a ta) s = .next t ∧ t.frames = s.frames ++ [f] ∧
          (f.vf, f.dev, f.h, f.st, f.desc, f.sealing) = (c.vf, c.dev, h, .opened, desc, none) ∧
          t.group? g.id = some ((g.withReg d (.uniform (BitVec.ofNat 32 h))).passed b (g.nextPc b) 1) ∧
          (∀ q ∈ qs, ∀ i, i < q.2.1 → Memory.get t.mem (q.1 + i) = 0) ∧
          ∀ x, (∀ q ∈ qs, x < q.1 ∨ q.1 + q.2.1 ≤ x) → Memory.get t.mem x ≠ Memory.get s.mem x →
            ∃ n, (lineOf x, n) ∈ s.symErrs)) ∧
    (∀ (h : Word) (f : Frame), Descriptor g a 1 1 [h] → h.toNat ≤ 3 → s.frame? c.vf c.dev h.toNat = some f → f.vf = c.vf →
      f.dev = c.dev → f.h = h.toNat →
      (f.st = .opened → f.sealing = none →
        exec (.bktSeal a ta) s = .next ((s.setFrame { f with sealing := some (s.binsOn c.vf c.dev h.toNat) }).retire g b
          (g.nextPc b) (.seal c.vf c.dev h.toNat) 1)) ∧
      (f.st ≠ .opened → Handled g → Refuses (.bktSeal a ta) s g b (g.slot b).mask 0xFF) ∧
      ((g.cls d).isSome = true → Settled g [d] →
        (f.sealing = none → (∀ x ∈ f.buckets, ∀ t, x ≠ .owned t) →
          ∃ t, exec (.bktClose d a ta) s = .next t ∧ t.frame? c.vf c.dev h.toNat = none ∧ t.mem = s.mem ∧
            ((∀ q ∈ f.deques, q.claims = []) →
              t.group? g.id = some ((g.withReg d (.uniform 1)).passed b (g.nextPc b) 1))) ∧
        (f.sealing = none → (∃ t, .owned t ∈ f.buckets) → Completes (.bktClose d a ta) s (g.withReg d (.uniform 0)) b 1) ∧
        (∀ t, s.team? g.team = some t → t.id = g.team → (f.deque (t.core / 64)).asks = [] →
          (f.st = .opened → Completes (.bktClaim d a ta) s (g.withReg d (.uniform 0xFFFFFFFE)) b 1) ∧
          (f.st = .done → Completes (.bktClaim d a ta) s (g.withReg d (.uniform 0xFFFFFFFF)) b 1) ∧
          (f.st = .sealed → (∃ x ∈ s.stores, x.team = t.id ∨ x.core = t.core) →
            Completes (.bktClaim d a ta) s (g.withReg d (.uniform 0xFFFFFFFE)) b 1) ∧
          (f.st = .sealed → (∀ x ∈ s.stores, x.team ≠ t.id ∧ x.core ≠ t.core) →
            (∀ i rest, (f.deque (t.core / 64)).buckets = i :: rest →
              ∃ u x, exec (.bktClaim d a ta) s = .next u ∧ u.ownedStore g.team = some x ∧ x.core = t.core ∧ x.bucket = i ∧
                x.h = h.toNat ∧ (x.bx, x.by_) = (fdBuckets f.desc).getD i (0, 0) ∧ x.grids = [] ∧ u.mem = s.mem ∧
                u.group? g.id = some ((g.withReg d (.uniform (BitVec.ofNat 32 (x.by_ * 65536 + x.bx)))).passed b (g.nextPc b) 1)) ∧
            ((f.deque (t.core / 64)).buckets = [] → f.exhausted = true →
              Completes (.bktClaim d a ta) s (g.withReg d (.uniform 0xFFFFFFFF)) b 1) ∧
            ((f.deque (t.core / 64)).buckets = [] → f.exhausted = false → ∀ q, q = f.deque (t.core / 64) →
              exec (.bktClaim d a ta) s = .next ((s.setFrame (f.setDeque { q with asks := [.claim g.id b] })).retire g b
                (g.nextPc b) (.claim d) 1)))) ∧
        (∀ t q, s.team? g.team = some t → q = f.deque (t.core / 64) → q.asks ≠ [] →
          exec (.bktClaim d a ta) s = .next ((s.setFrame (f.setDeque { q with asks := q.asks ++ [.claim g.id b] })).retire g b
            (g.nextPc b) (.claim d) 1)))) ∧
    (∀ (h : Word) (x : Store) (gr : Grid), Descriptor g a 1 1 [h] → s.ownedStore g.team = some x →
      x.grid? h.toNat = some gr →
      (s.gridBusy g.team h.toNat = false →
        exec (.bktFree a ta) s = .next ((s.setStore (x.release gr)).retire g b (g.nextPc b) .none 1)) ∧
      (s.gridBusy g.team h.toNat = true → Waits (.bktFree a ta) s g b .retry)) ∧
    (∀ (h : Word), Descriptor g a 1 1 [h] → Handled g → s.ownedStore g.team = none →
      Refuses (.bktFree a ta) s g b (g.slot b).mask 0xFF)

/-- `xst` sends one message of the words of the lanes of its data and counts it as unacknowledged; `present` hands the VA of its record
to the display engine; in trap mode `save` stores the image of the registers, 16 bytes at a time, and `rest` takes the registers
v0–v119 from an image whose tags fit (R29, R489, R490, R492, R498).
What the rules leave open here is the model's own (log entry 29). -/
def Obligations.SystemInstructionsComplete : Prop :=
  ∀ (s : State) (g : Group) (b ta : Bool) (a d : RegName) (c : Ctx), Ready s g b (g.nextPc b) → NoTrace g → c = s.ctx g →
    (∀ (x : RegName) (tb k : Bool) (va : DWord) (len : Word) (pa canon e addr sz seq : Nat) (t : Team),
      Descriptor g a 2 2 [va.extractLsb' 0 32, va.extractLsb' 32 32] → Uniform g x len → (g.cls d).isSome = true →
      Settled g [d] → g.active b ≠ 0 → s.team? g.team = some t → g.xstOut < 64 →
      len.toNat % 4 = 0 → 4 ≤ len.toNat → len.toNat ≤ 128 → len.toNat ≤ 4 * g.width → va.toNat % 4 = 0 →
      va.toNat % 128 + len.toNat ≤ 128 → va.toNat < 2 ^ 49 → va.toNat / 2 ^ 40 ≠ 0x1FF →
      s.translate (some c.core) (some c.die) c.vf c.dev va.toNat .peer = .ok pa canon e addr sz →
      seq = s.nextSeq (pa / 2 ^ 42 % 2 ^ 6) → (∀ y ∈ s.groups, y.window = none) →
      ∃ (u : State) (m : FabMsg), exec (.xst d a x ta tb k) s = .next (u.retire { g with xstOut := g.xstOut + 1 } b (g.nextPc b) .none
          (max 4 (len.toNat / 4))) ∧
        u.groups = s.groups ∧ u.fabWaiting = s.fabWaiting ++ [m] ∧ m.dst = pa / 2 ^ 42 % 2 ^ 6 ∧
        m.payload = (List.range (len.toNat / 4)).map (g.word d) ∧
        m.header = 0#384 ++ (BitVec.ofNat 49 (pa % 2 ^ 34) ++ 0#2 ++ BitVec.ofNat 5 (len.toNat / 4 - 1) ++
          BitVec.ofNat 8 (pa / 2 ^ 34) ++ BitVec.ofNat 16 seq ++ BitVec.ofNat 6 s.device ++ BitVec.ofNat 6 (pa / 2 ^ 42) ++
          BitVec.ofNat 9 c.vf ++ 1#4 ++ 0#23) ∧
        u.nextSeq m.dst = (seq + 1) % 65536 ∧
        u.fabUnacked = s.fabUnacked ++ [{ dst := m.dst, seq := seq, launch := t.launch, team := g.team, group := g.num }]) ∧
    (∀ (va : DWord) (t : Team), Descriptor g a 2 2 [va.extractLsb' 0 32, va.extractLsb' 32 32] → s.team? g.team = some t →
      exec (.present a ta) s = .next (({ s with presents := s.presents ++
          [({ vf := c.vf, dev := c.dev, va := va.toNat, group := g.id, source := (t.launch, g.team, g.num) } : PresentReq)] } : State).retire
        { g with presents := g.presents + 1 } b (g.nextPc b) .none 1)) ∧
    (∀ (ws : List Word) (hs : List Hit) (u : State), Descriptor g a 2 2 ws → g.inTrap = true → dq ws 0 % 128 = 0 → Calm s g →
      (∀ r ∈ g.regs, r.full = true) → g.producers = [] →
      (imageTargets s c (g.pair a 0) .write (g.imageBytes / 16) = hs.map .hit → u = s.requested g hs true →
        (g.slot (!b)).wait = .none → hs.Pairwise (fun x y => x.space ≠ y.space ∨ x.addr + 16 ≤ y.addr ∨ y.addr + 16 ≤ x.addr) →
        ∃ t, exec (.save a ta) s = .next t ∧
          t.group? g.id = some (({ g with hostOut := g.hostOut + (hs.filter (·.plain)).length } : Group).passed b (g.nextPc b) hs.length) ∧
          (∀ i h, hs[i]? = some h → t.held h.space h.addr 16 = leNat ((g.image.drop (16 * i)).take 16)) ∧
          ∀ x, (∀ h ∈ hs, h.space ≠ .mem ∨ x < h.addr ∨ h.addr + 16 ≤ x) → Memory.get t.mem x = Memory.get u.mem x) ∧
      (∀ img, imageTargets s c (g.pair a 0) .read (g.imageBytes / 16) = hs.map .hit → u = s.requested g hs false →
        img = hs.flatMap (fun h => toLe 16 (u.held h.space h.addr 16)) →
        (g.tagsFit (leNat (img.take 64)) 120 = true →
          exec (.rest a ta) s = .next (u.retire (g.loadImage img (hs.any u.poisoned)) b (g.nextPc b) .none hs.length)) ∧
        (g.tagsFit (leNat (img.take 64)) 120 = false →
          exec (.rest a ta) s = .next (u.haltGroup { g with lastB := b } .double (g.slot b).pc))))

/-! ### Events -/

/-- Events of group `n`. The watchdog halts a group 65,536 cycles after its trap (R297); a sleep that is over frees its slot (R365);
1,024 pass-cycles in a row make the group yield (R128); a producer writes its names and marks them full, once (R217); a `trace`
reads for one ray at a time and ends with the results of its rays (R199–R202); a window whose accesses have performed commits its stores in order and releases its
operations (R267, R272); anchors are granted in ticket order (R277); an anchor or a hold that lasts too long rolls its window
back to the checkpoint (R268, R273, R277); fences hear of stores to the host (R286); a faulty fetch traps or parks (R242).
What the rules leave open here is the model's own (log entries 15, 18 and 21). -/
def Obligations.GroupEventsFire : Prop :=
  ∀ (s : State) (n : Nat) (g : Group), s.group? n = some g →
    (∀ b, g.trapB = some b → Fires (.watchdog n) s
      ({ s with cycle := max s.cycle (g.trapAt + 65536) }.haltGroup g .watchdog (g.slot b).pc)) ∧
    (∀ sl k, (g.slot sl).wait = .sleep k →
      Fires (.sleepExpiry n sl) s ({ s with cycle := max s.cycle k }.setGroup (g.setSlot sl { g.slot sl with wait := .none }))) ∧
    (1024 ≤ g.runCycles → Fires (.forcedSwitch n) s (s.setGroup { g with yields := true })) ∧
    (∀ k p, g.producers.find? (fun p => p.id = k) = some p → (∀ m ∈ s.msgs, m.prod ≠ some k) →
      (∀ h ∈ s.homeAtoms, h.producer ≠ some k) → (∀ o ∈ s.tileOps, ∀ ls, o.work ≠ .read k ls) →
      (∀ w ∈ g.window, ∀ o ∈ w.lateReads, ∀ ls, o.work ≠ .read k ls) → g.block ≠ .stopped →
      (∀ t, s.team? g.team = some t → t.state ≠ .saving) → g.regs.length = 128 → (p.result.map (·.name)).Nodup →
      (p.kind ≠ .trace → (p.fills = [] ∨ ∀ y ∈ s.groups, y.window = none) →
        s.fillsWait g.core (s.ctx g).vf p.fills = false →
        ∃ t x, Fires (.producerComplete n k) s t ∧ t.group? n = some x ∧ x.producers = g.producers.filter (fun p => p.id ≠ k) ∧
          (∀ w ∈ p.result, x.reg w.name = { val := w.val, full := true, poison := w.poison }) ∧
          (∀ r, r ∉ p.result.map (·.name) → x.reg r = g.reg r) ∧ t.mem = s.mem ∧ t.teams = s.teams) ∧
      (p.kind = .trace → p.inWindow = false →
        ((∀ r ∈ p.rays, r.inFlight = false) → (p.rays.map (·.lane)).Nodup →
          ∃ t x, Fires (.producerComplete n k) s t ∧ t.group? n = some x ∧ x.producers = g.producers.filter (fun p => p.id ≠ k) ∧
            (∀ i w, p.result[i]? = some w → (x.reg w.name).full = true ∧ ∀ r ∈ p.rays, r.lane < g.width →
              (x.reg w.name).val.lane r.lane = BitVec.ofNat 32 ((r.result s.draw).1.getD i 0)) ∧ t.mem = s.mem) ∧
        (∀ r y, s.raysReady g.core p = [r] → r.inFlight = true → r.st = .running y →
          Fires (.producerComplete n k) s ({ s with draw := s.draw + 1 }.rayStep g p r y)))) ∧
    (∀ w, g.window = some w → s.unperformed g = 0 →
      (∀ st desc st' s1 i j slab, w.samples ≠ [] → s.ownedStore g.team = some st →
        desc = ((s.storeFrame st).map (·.desc)).getD 0 → st' = w.samples.foldl Store.write st →
        s.placeRecords st desc (((s.team? g.team).map (·.launch)).getD 0) st'.linesDue = .ok s1 i j slab → s1.group? n = some g →
        Fires (.windowCommit n) s (s1.commit g w
          (some { st' with recLines := st.recLines + i, recSpill := st.recSpill + j, slab := slab }))) ∧
      (w.samples = [] →
        ∃ t x, Fires (.windowCommit n) s t ∧ t.mem = (w.stores.flatten.foldl State.apply s).mem ∧ t.ops = s.ops ++ w.deferred ∧
          t.group? n = some x ∧ x.window = none ∧ x.regs = g.regs ∧ x.preds = g.preds ∧
          x.tileCfg = w.shadowCfg.getD g.tileCfg ∧ x.srseed = w.srseed.getD g.srseed ∧ x.hostOut = g.hostOut + w.hostStores ∧
          x.rollbacks = 0 ∧ x.ticket = none ∧ x.anchors = [] ∧ ∀ p ∈ x.producers, p.inWindow = false)) ∧
    (∀ k tk line, g.block = .anchor k → g.ticket = some tk → k.line = line →
      (∀ y ∈ s.groups, y.id ≠ n → s.anchoredAt y g.core k = false) →
      (∀ y ∈ s.groups, y.id ≠ n → s.asksAnchor y g.core k = true → ∀ u, y.ticket = some u → tk ≤ u) →
      Fires (.anchorGrant n line) s (s.modGroup n (fun x =>
        { x with block := .none, anchors := x.anchors ++ [k], anchorAt := some (x.anchorAt.getD s.cycle) }))) ∧
    (∀ w, g.window = some w → g.homeOut = 0 →
      (∀ a, g.anchorLimit = some a →
        ∃ t x, Fires (.anchorTimeout n) s t ∧ t.group? n = some x ∧ g.RolledBack w false x ∧ t.mem = s.mem ∧
          t.cycle = max s.cycle a) ∧
      ((∃ k ∈ w.atoms, k ∉ g.anchors) →
        ∃ t x, Fires (.atomHoldTimeout n) s t ∧ t.group? n = some x ∧ g.RolledBack w true x ∧ t.mem = s.mem)) ∧
    (0 < g.hostOut → Fires (.pcieReadReturn n) s (s.setGroup ({ g with hostOut := 0 } : Group).endFence)) ∧
    (∀ b, Issuing s g b →
      (∀ l c, Handled g → s.fetchPlace g = .cause l c →
        Traps .instructionFetchFault s g b { cause := c, lanes := (g.slot b).mask, dest := 0xFF, flags := 0 }) ∧
      (∀ p va, s.fetchPlace g = .park (.page p) va →
        ∃ t, exec .instructionFetchFault s = .next t ∧ t.mem = s.mem ∧
          t.group? g.id = some { g with block := .fault, parkedOn := [.page p] } ∧
          ∃ r ∈ t.faults, r.page = p ∧ FaultAgent.group g.id ∈ r.agents))

/-- Events of coherence: the home grants a request for ownership and sends the invalidations; a grant leaves the line modified at its
core; an invalidation takes the copies of its holder and rolls back the windows that hold the line; the acknowledgements
are counted (R246, R248, R266). Home-performed atomics and active messages act as one event a lane or a message (R252, R432), and a
waiter without a monitor reads again (R140).
What the rules leave open here is the model's own (log entries 19 and 31). -/
def Obligations.CoherenceEventsFire : Prop :=
  ∀ (s : State) (core line : Nat),
    (∀ o hs, s.own.find? (fun o => o.core = core && o.line = line && !o.granted) = some o →
      (∀ x ∈ s.own, x.line = line → x.granted = true → x.core ≠ core ∧ x.received = true) → hs = s.holdersFor core line →
      ∃ t, Fires (.ownershipRequest core line) s t ∧
        t.own = s.own.map (fun x => if x = o then { x with granted := true, acks := hs.length } else x) ∧
        t.inval = s.inval ++ hs.map (fun h => ({ holder := h, line := line, requester := core, acked := false } : Inval)) ∧
        t.caches = s.caches ∧ t.groups = s.groups ∧ t.mem = s.mem) ∧
    ((∃ o ∈ s.own, o.core = core ∧ o.line = line ∧ o.granted = true ∧ o.received = false) →
      s.fillWaits core (s.ownerFor core line) line = false →
      ∃ t, Fires (.ownershipGrant core line) s t ∧ t.owns core line = true ∧ t.mem = s.mem ∧ t.teams = s.teams ∧
        ((∀ y ∈ s.groups, y.window = none) → t.groups = s.groups) ∧
        ∀ o ∈ t.own, o.core = core → o.line = line → o.received = true ∧ o.acks ≠ 0) ∧
    (∀ holder i, s.inval.find? (fun i => i.holder = holder && i.line = line && !i.acked) = some i →
      s.holderDelays holder line = [] →
      ∃ t, Fires (.invalidation holder line) s t ∧ t.inval = s.inval.map (fun x => if x = i then { x with acked := true } else x) ∧
        (∀ c ∈ t.caches, c ∈ s.caches ∧ (c.line = line → c.holder ≠ holder)) ∧ t.mem = s.mem ∧
        ∀ x ∈ t.groups, x.core ∈ coresOf holder → ∀ w, x.window = some w → w.hit { space := .mem, line := line } true = false) ∧
    (∀ i, s.inval.find? (fun i => i.requester = core && i.line = line && i.acked) = some i →
      Fires (.invalidationAcknowledgement core line) s { s with
        inval := s.inval.erase i
        own := (s.own.map (fun o => if o.core = core ∧ o.line = line then { o with acks := o.acks - 1 } else o)).filter
          (fun o => !(o.received && decide (o.acks = 0))) }) ∧
    (∀ n h lane a v sv rest size, s.homeAtoms.find? (fun h => h.group = n) = some h → h.lanes = (lane, a, v, sv) :: rest →
      size = (if h.w64 then 8 else 4) → s.locked .mem a size true = false → s.heldOff [lineOf a] true = false →
      s.badLine (lineOf a) = false → s.homeAtoms.Nodup → ∀ r, r = s.eccRead [lineOf a] →
      ∃ t, Fires (.homeAtomicPerform n) s t ∧
        t.mem = Memory.setBytes r.mem a (toLe size (atomNew h.op h.w64 (r.readNat a size) v sv)) ∧
        (rest ≠ [] → { h with lanes := rest } ∈ t.homeAtoms) ∧ (rest = [] → h ∉ t.homeAtoms) ∧
        ∀ g, s.group? n = some g → ∃ x, t.group? n = some x ∧ x.homeOut = g.homeOut - 1 ∧
          ∀ p ∈ g.producers, h.producer = some p.id → p.inWindow = false → ∃ q ∈ x.producers, q.id = p.id ∧
            ∀ j w, q.result[j]? = some w → lane < g.width → w.val.lane lane = BitVec.ofNat 32 (r.readNat a size / 2 ^ (32 * j))) ∧
    (∀ m tm, s.msgs.find? (fun m => m.target = core) = some m → s.team? m.team = some tm → tm.state = .running →
      s.delayed (some m.group) { space := .scratch m.team, line := lineOf m.base } (decide (∀ x, m.kind ≠ .load x)) = false →
      (∀ x ∈ m.lanes, s.locked (.scratch m.team) (m.base + x.off) m.size (decide (∀ x, m.kind ≠ .load x)) = false) →
      ∃ t, Fires (.activeMessage core) s t ∧ t.msgs = s.msgs.erase m ∧ t.mem = s.mem ∧
        ((∃ x, m.kind = .load x) → t.teams = s.teams) ∧
        (m.kind = .store → t.spaceCells (.scratch m.team) = m.lanes.foldl (fun c x =>
          Memory.setBytes c (m.base + x.off) (toLe m.size x.v)) tm.scratch) ∧
        (∀ op x, m.kind = .atom op → m.lanes = [x] → t.spaceCells (.scratch m.team) = Memory.setBytes tm.scratch (m.base + x.off)
          (toLe m.size (atomNew op (decide (m.size = 8)) (leNat ((List.range m.size).map (fun i =>
            Memory.get tm.scratch (m.base + x.off + i)))) x.v x.sv))) ∧
        ((∀ y ∈ s.msgs.erase m, y.group ≠ m.group) → ∀ g ∈ t.groups, g.id = m.group → g.block ≠ .message)) ∧
    (∀ n sl l addr want c g u, s.group? n = some g → (g.slot sl).wait = .monitor l false addr want c →
      (∀ y ∈ s.groups, y.window = none) → u = { s with cycle := max s.cycle (c + 1800) }.readBy [l] →
      ∃ t, Fires (.monitorRecheck n sl) s t ∧ t.mem = u.mem ∧ t.cycle = u.cycle ∧
        t.group? n = some (g.waits sl (if u.readNat addr 4 = want then .monitor l false addr want u.cycle else .none)))

/-- Events of queue `q` of function `vf` (R69–R72, R75–R81): its tail, its enabling, the record at HEAD, which is accepted or faults the
queue, the completion of records and launches, ACKED, and the commands and resets that leave its states.
What the rules leave open here is the model's own (log entries 33 and 34, a tail index outside the ring among them). -/
def Obligations.QueueEventsFire : Prop :=
  ∀ (s : State) (vf q : Nat),
    (vf < 512 → q < 64 → Rising s.vfq → vf ∉ s.stopped → s.running = true → s.recovery = false → s.queueState vf q = 0 → s.queue? vf q = none →
      (s.enableRefused vf q = false → s.monitorMode vf q = false →
        ∃ t, Fires (.queueEnable vf q) s t ∧ t.queueState vf q = 1 ∧ t.queueCause vf q = 0 ∧ bits (t.qctl vf q) 31 1 = 1 ∧
          t.head vf q = 0 ∧ t.accepted vf q = (s.seqInit vf q + 2 ^ 32 - 1) % 2 ^ 32 ∧ t.completed vf q = t.accepted vf q ∧
          t.acked vf q = t.accepted vf q ∧ t.queue? vf q = some { vf := vf, q := q, tail := 0, records := [], flush := 0 }) ∧
      (s.enableRefused vf q = true →
        ∃ t, Fires (.queueEnable vf q) s t ∧ t.queueState vf q = 0 ∧ t.queueCause vf q = 7 ∧ bits (t.qctl vf q) 31 1 = 0)) ∧
    (∀ x, Enabled s vf q x → s.recovery = false →
      (∀ v, s.queueState vf q = 1 ∨ s.queueState vf q = 4 → s.monitorMode vf q = false → v < s.sqSlots vf q →
        Fires (.doorbellWrite vf q v) s (s.setQueue { x with tail := v })) ∧
      (∀ v ls, s.queueState vf q = 1 ∨ s.queueState vf q = 4 → s.monitorMode vf q = true →
        s.hubRead vf (s.queueDev vf q) (s.qGet64 vf q 0x10 / 128 * 128) 4 = .ok v ls →
        Fires (.tailLineInvalidate vf q) s ((s.hubTook vf ls).setQueue
          { x with tail := if v < s.sqSlots vf q then v else x.tail })) ∧
      (∀ v, vf < 512 → q < 64 → v < 2 ^ 32 →
        (seqNotBefore v (s.acked vf q) = true → seqNotBefore (s.completed vf q) v = true →
          ∃ t, Fires (.ackedWrite vf q v) s t ∧ t.acked vf q = v ∧ bits (t.qGet vf q 0x1C) 23 1 = 0) ∧
        ((seqNotBefore v (s.acked vf q) = false ∨ seqNotBefore (s.completed vf q) v = false) →
          ∃ t, Fires (.ackedWrite vf q v) s t ∧ t.acked vf q = s.acked vf q ∧ bits (t.qGet vf q 0x1C) 23 1 = 1)) ∧
      (s.queueState vf q = 1 ∨ s.queueState vf q = 4 →
        ∃ t, Fires (.destroy vf q) s t ∧ (x.records ≠ [] → t.queueState vf q = 2 ∧ t.queue? vf q = some x) ∧
          (x.records = [] → t.queueState vf q = 0 ∧ t.queue? vf q = none ∧ bits (t.qctl vf q) 31 1 = 0)) ∧
      (s.queueState vf q = 4 → ∃ t, Fires (.resume vf q) s t ∧ t.queueState vf q = 1 ∧ t.queueCause vf q = 0 ∧
          t.queue? vf q = some { x with flush := (x.records.takeWhile (fun r => r.result.isSome)).length }) ∧
      (s.queueState vf q = 1 ∨ s.queueState vf q = 2 ∨ s.queueState vf q = 4 →
        ∃ t y, Fires (.abort vf q) s t ∧ t.queueState vf q = 3 ∧ t.queue? vf q = some y ∧
          y.records.map (·.seq) = x.records.map (·.seq) ∧ (∀ r ∈ y.records, r.op ≠ .launch → r.result.isSome = true) ∧
          (∀ r ∈ x.records, r.op ≠ .launch → r.result = none → ∃ u ∈ y.records, u.seq = r.seq ∧ u.result = some (1, 0)) ∧
          (∀ l ∈ t.launches, l.vf = vf → l.q = q → l.aborted = true) ∧ t.mem = s.mem) ∧
      (s.queueState vf q = 3 → x.records = [] → (∀ l ∈ s.launches, l.vf ≠ vf ∨ l.q ≠ q) →
        ∃ t, Fires (.abortDone vf q) s t ∧ t.queueState vf q = 0 ∧ t.queue? vf q = none ∧ bits (t.qctl vf q) 31 1 = 0) ∧
      (∀ r rest st c ps ws, x.records = r :: rest → r.result = some (st, c) → s.queueState vf q = 1 → r.seq < 2 ^ 32 →
        s.hubWrite vf (s.queueDev vf q)
          (s.qGet64 vf q 8 / 4096 * 4096 + 64 * (s.seqIndex vf q r.seq % s.cqSlots vf q)) 64 = .ok ps ws →
        ∃ t y, Fires (.completionWrite vf q) s t ∧ t.completed vf q = r.seq ∧ t.msix = s.msix ++ [(vf, q)] ∧
          t.mem = (s.hubStore vf ps ws (s.completionBytes vf q r st c)).mem ∧ t.queue? vf q = some y ∧ y.records = rest ∧
          t.decs = s.decs ++ (match r.notify with
            | some k => if st = 0 ∨ st = 2 then [{ vf := vf, k := k, n := 1, op := none }] else []
            | none => [])) ∧
      (∀ seq r, x.records.find? (fun r => r.seq = seq) = some r → r.result = none → r.parkedOn = none → x.lets r = true →
        s.queueState vf q ≠ 5 →
        (r.op = .nop → ∃ t y, Fires (.recordStart vf q seq) s t ∧ t.queue? vf q = some y ∧
          ∀ u ∈ y.records, u.seq = seq → u.result = some (0, 0)) ∧
        (∀ v ls, r.op = .waitmem → r.started = false → s.hubRead vf (s.queueDev vf q) r.addr 8 = .ok v ls →
          ∃ t y, Fires (.recordStart vf q seq) s t ∧ t.queue? vf q = some y ∧ ∀ u ∈ y.records, u.seq = seq →
            u.started = true ∧ (waitHolds r.cond v r.value = true → u.result = some (0, 0))))) ∧
    (∀ x r ls, HeadRecord s vf q x r ls →
      (∀ i, i ∈ [Instr.launch vf q, .signal vf q, .waitmem vf q, .counter vf q, .nopRecord vf q, .badOpRecord vf q] →
        bits r 0 32 ≠ (s.accepted vf q + 1) % 2 ^ 32 →
        ∃ t, Fires i s t ∧ FaultsQueue t vf q 3 ∧ t.accepted vf q = s.accepted vf q ∧ t.queues = s.queues) ∧
      (bits r 0 32 = (s.accepted vf q + 1) % 2 ^ 32 → opKnown (bits r 32 8) = false →
        ∃ t, Fires (.badOpRecord vf q) s t ∧ FaultsQueue t vf q 4 ∧ t.accepted vf q = s.accepted vf q ∧ t.queues = s.queues) ∧
      (GoodRecord s vf q r → (∀ y ∈ x.records, y.seq ≠ bits r 0 32) →
        (bits r 32 8 = 5 → ∃ t, Fires (.nopRecord vf q) s t ∧ Accepts s t vf q r x (fun y =>
          y.op = .nop ∧ (x.records = [] → y.result = some (0, 0)))) ∧
        (bits r 32 8 = 4 → ∃ t, Fires (.counter vf q) s t ∧ Accepts s t vf q r x (fun y =>
            y.op = .counter ∧ y.addr = bits r 64 16 ∧ y.value = bits r 80 16 ∧ (x.records = [] → y.result = some (0, 0))) ∧
          (x.records = [] → t.tasks = (s.decrement vf (bits r 64 16) (bits r 80 16)).tasks)) ∧
        (bits r 32 8 = 3 → ∃ t, Fires (.waitmem vf q) s t ∧ Accepts s t vf q r x (fun y =>
            y.op = .waitmem ∧ y.addr = 8 * bits r 64 46 ∧ y.value = bits r 128 64 ∧ y.cond = bits r 192 2)) ∧
        (bits r 32 8 = 2 → ∃ t, Fires (.signal vf q) s t ∧ Accepts s t vf q r x (fun y =>
            y.op = .signal ∧ y.addr = 8 * bits r 64 46 ∧ y.value = bits r 128 64) ∧
          (x.records ≠ [] → (∀ y ∈ x.records, y.result = none) → t.mem = (s.eccRead ls).mem)) ∧
        (bits r 32 8 = 1 → (∀ l ∈ s.launches, l.id ≠ s.nextId) → ∃ t l, Fires (.launch vf q) s t ∧ Accepts s t vf q r x (fun y => y.op = .launch ∧ y.launch = some l.id) ∧
          l ∈ t.launches ∧ l.vf = vf ∧ l.q = q ∧ l.seq = BitVec.ofNat 32 (bits r 0 32) ∧ l.args = 8 * bits r 112 46 ∧
          (l.gx, l.gy, l.gz) = (bits r 160 16, bits r 176 16, bits r 192 16) ∧
          l.prio = min (bits r 240 3) (bits (s.qctl vf q) 17 3)))) ∧
    (∀ n l c, s.launch? n = some l → s.launchDone l = true → l.enq = false → l.aborted = false → s.queue? l.vf l.q = some c →
      ∃ t y, Fires (.launchComplete n) s t ∧ t.launch? n = none ∧ (∀ m ∈ t.teams, m.launch ≠ n) ∧ t.queue? l.vf l.q = some y ∧
        ∀ r ∈ y.records, r.seq = l.seq.toNat → r.result = (match l.cause with
          | some k => some (2, k)
          | none => some (0, 0))) ∧
    (vf < 512 → s.mgmt.alarmed = false → Rising s.vfq →
      ∃ t, Fires (.vfFunctionLevelReset vf) s t ∧ vf ∉ t.stopped ∧ (∀ x ∈ t.queues, x.vf ≠ vf) ∧
        (∀ k, k < 64 → t.queueState vf k = 0 ∧ bits (t.qctl vf k) 31 1 = 0) ∧
        (∀ l ∈ t.launches, l.vf = vf → l.aborted = true) ∧ t.mem = s.mem) ∧
    (∀ line u, (∀ x ∈ s.queues, ∀ r ∈ x.records, s.watchedLine x.vf x.q r ≠ some line) →
      s.heldOff [line] false = false → u = s.readBy [line] →
      ∃ t, Fires (.monitorWake line) s t ∧ t.mem = u.mem ∧
        ∀ g ∈ u.groups, ∃ x ∈ t.groups, x.id = g.id ∧ x.regs = g.regs ∧
          ∀ b, (x.slot b).wait = (match (g.slot b).wait with
            | .monitor l true addr want c =>
              if l = line ∧ u.readNat addr 4 ≠ want then Wait.none else .monitor l true addr want c
            | w => w))

/-- Events of engine operation `o` and of bucket stores. A copy or a multiplication starts with its ranges locked, an `mloop` past
64 elements of K with power leave (R112, R279, R281); its effect enters the order at its single point, after which its locks
are released and its counter falls (R227, R229, R282); an accumulator operation that waited is applied whole (R444). A `dice` is
served in its cluster's order, with leave (R112, R173); a `bin` reads its patch once and then appends bucket by bucket
(R155–R157); parked operations retry when their pool's LIMIT changes (R159), one without a monitor having read it again (R140). A
resolve captures its filter and locks its output, and then writes it and ends its bucket (R176, R189–R193).
What the rules leave open here is the model's own (log entries 23, 26 and 49). -/
def Obligations.EngineEventsFire : Prop :=
  ∀ (s : State) (id : Nat),
    (∀ t m, s.op? id = none → s.tileOps.find? (fun t => t.id = id) = some t → s.tileTurn t = true → s.team? t.team = some m →
      (∀ ws, t.work = .write ws → Fires (.singlePoint id) s
        ({ s with tileOps := s.tileOps.filter (fun x => x.id ≠ id) }.setTeam (m.setAcc t.tile ws))) ∧
      (∀ src target mode, t.work = .convert src target mode → Fires (.singlePoint id) s
        ({ s with tileOps := s.tileOps.filter (fun x => x.id ≠ id) }.setTeam
          (m.setAcc t.tile (tileConvert mode target (m.accWord src)))))) ∧
    (∀ o, s.op? id = some o →
      ((o.kind.path = .copy ∨ o.kind.path = .matrix) → o.state = .queued → s.shadowed o = false → s.behindTile o = false →
        (o.kind.path = .copy → (s.ops.filter (fun x => x.core = o.core && x.kind.path = .copy && x.state = .running)).length < 32) →
        (o.kind = .mloop → 64 < (mmaArgs o.operands).k → o.leave = false → s.waitsFor o = false → (∀ l ∈ s.leaves, l.who ≠ .op id) →
          Fires (.engineOpStart id) s { s with
            leaves := s.leaves ++ [({ die := o.core / 64, units := 8, who := .op id, granted := false } : Leave)] }) ∧
        (∀ ls new, (o.kind ≠ .mloop ∨ (mmaArgs o.operands).k ≤ 64 ∨ o.leave = true) → s.allLocks o = (ls, []) →
          new = ls.filter (fun l => !s.locks.contains l) → (∀ a ∈ new, ∀ b ∈ s.locks, a.clash b = false) →
          (∀ h, h < 5 → tableEntries (s.locks ++ new) h ≤ 256) → (∀ k ∈ lockKeys new, s.delayed none k true = false) →
          s.heldOff ((o.ranges.filter (fun r => !r.scratch)).flatMap (fun r =>
            s.walkLines (some (o.core / 64)) (s.opVf o) r.a r.n)) false = false →
          ∃ t, Fires (.engineOpStart id) s t ∧ t.op? id = some { o with state := .running } ∧ t.locks = s.locks ++ new ∧
            (∀ x, Memory.get t.mem x ≠ Memory.get s.mem x → ∃ n, (lineOf x, n) ∈ s.symErrs) ∧ t.teams = s.teams ∧
            ∀ c ∈ t.caches, ({ space := .mem, line := c.line } : LineKey) ∉ lockKeys new)) ∧
      (s.waitsFor o = false →
        (∀ bs, o.kind = .copy ∨ o.kind = .copyt → o.state = .running → o.hostDue = [] →
          (copyArgs (decide (o.kind = .copyt)) o.operands).ssp = true →
          (copyArgs (decide (o.kind = .copyt)) o.operands).dsp = true →
          s.copyBytes o (copyArgs (decide (o.kind = .copyt)) o.operands) = (bs, none) →
          (copyArgs (decide (o.kind = .copyt)) o.operands).notify = false →
          Fires (.singlePoint id) s (((s.writeBytes bs).finishOp o).dropLeave (.op o.id))) ∧
        (∀ t u, o.kind = .mma ∨ o.kind = .mloop → o.state = .running → s.team? o.team = some t → s.hostNext o = none →
          o.hostDue = [] → o.hostSeen = [] → s.symErrs = [] →
          s.mmaBlocks o (mmaArgs o.operands) ((mmaArgs o.operands).blocks - o.progress) o.progress t = (u, none) →
          Fires (.singlePoint id) s (((s.setTeam u).finishOp o).dropLeave (.op o.id))) ∧
        (∀ l u ps r, o.kind = .enq → o.state = .queued → s.launch? o.launch = some l → l.aborted = false →
          dq o.operands 0 % 64 = 0 → s.opTouch o .read (dq o.operands 0) 64 = .ok u ps → r = leNat (u.readPieces ps) →
          bits r 32 8 = 1 → s.launchBad l.vf r = false →
          ∃ n t, u.takeLaunch l.vf l.q l.dev r l.prio l.seq true = (n, t) ∧
            Fires (.singlePoint id) s ((t.startLaunch n).finishOp o)) ∧
        (o.kind = .regroup → o.state = .queued →
          (s.launch? o.launch = none → Fires (.singlePoint id) s (s.finishOp o)) ∧
          (∀ l t, s.launch? o.launch = some l → s.fillRows o l 65 o.lanes = (t, [], none) →
            Fires (.singlePoint id) s ((t.holdRows o false).finishOp o))) ∧
        (∀ f p u x, o.kind = .bin → o.state = .queued → s.binFrame o = some f → o.lanes = [] → f.takesBin id = true →
          s.readPatch o (dq o.operands 0) = .ok u (some p) →
          x = (screenBound f.desc p.dbound (p.opn ++ p.cls)).indices f.desc →
          (x = [] → Fires (.binPerform id) s (u.finishOp o)) ∧
          (x ≠ [] → Fires (.binPerform id) s
            (u.setOp { o with state := .running, lanes := [x.map (BitVec.ofNat 32)] }))) ∧
        (∀ x f u radius ws v ls, o.kind = .resolve → o.state = .queued → o.lanes = [] → (∀ y ∈ s.groups, y.window = none) →
          s.stores.find? (fun x => x.team = o.team && (x.resolving.isNone || x.resolving = some id)) = some x →
          s.storeFrame x = some f → (s.setStore { x with resolving := some id }).readFilter o = .ok u (radius, ws) →
          v = u.setOp { o with lanes := [BitVec.ofNat 32 radius :: ws.map (BitVec.ofNat 32)] } →
          v.resolveLocks { o with lanes := [BitVec.ofNat 32 radius :: ws.map (BitVec.ofNat 32)] } x f.desc = (ls, []) →
          s.locks = [] → v.mayLock ls = true →
          ∃ t, Fires (.resolveStart id) s t ∧ t.locks = ls ∧
            t.op? id = some { o with state := .running, lanes := [BitVec.ofNat 32 radius :: ws.map (BitVec.ofNat 32)] } ∧
            ∀ y ∈ t.stores, y.core = x.core → y = { x with resolving := some id })) ∧
      (∀ f is i u, o.kind = .bin → o.state = .running → s.binFrame o = some f → o.lanes = [is] → is[o.progress]? = some i →
        s.append o f.desc i.toNat (dq o.operands 0) = .ok u none →
        (o.progress + 1 = is.length → Fires (.binPerform id) s (u.finishOp o)) ∧
        (o.progress + 1 ≠ is.length →
          Fires (.binPerform id) s (u.setOp { o with state := .running, progress := o.progress + 1, parkedOn := none }))) ∧
      (∀ x f radius ws t, o.kind = .resolve → o.state = .running → s.stores.find? (fun x => x.resolving = some id) = some x →
        s.storeFrame x = some f → o.lanes = [radius :: ws] → o.hostDue = [] → x.parkedOn = none →
        s.resolveRows o x f.desc radius.toNat (ws.map (·.toNat)) = .done t →
        Fires (.resolveComplete id) s ((t.leaveBucket x true).finishOp o)) ∧
      (∀ die cluster rest, s.dicesAt die cluster = o :: rest → o.state ≠ .parked →
        (o.leave = false → (∀ l ∈ s.leaves, l.who ≠ .op o.id) →
          Fires (.diceService die cluster) s { s with
            leaves := s.leaves ++ [({ die := die, units := 2, who := .op o.id, granted := false } : Leave)] }) ∧
        (∀ x f p u k nu nv next place z, o.leave = true → s.stores.find? (fun x => x.team = o.team) = some x →
          s.storeFrame x = some f → s.readPatch o (dq o.operands 0) = .ok u (some p) → z = ({ d := f.desc, patch := p } : Dicer) →
          (z.run x.bx x.by_ 34 (dw o.operands 2) = .none next →
            Fires (.diceService die cluster) s (u.diceResult o 0xFFFFFFFF next)) ∧
          (∀ v, z.run x.bx x.by_ 34 (dw o.operands 2) = .drop next → u.dropIn o (fdSpillHdr f.desc) = .ok v () →
            Fires (.diceService die cluster) s (v.diceResult o 0xFFFFFFFF next)) ∧
          (z.run x.bx x.by_ 34 (dw o.operands 2) = .emit k nu nv next → x.freePlace = some place →
            gridLines nu nv ≤ x.freeLines f.desc →
            Fires (.diceService die cluster) s
              ((u.setStore { x with
                  grids := x.grids ++ [({ place := place, gen := x.gen place, nu := nu, nv := nv, spill := none } : Grid)]
                  cells := Memory.setBytes x.cells (65536 * place) (gridContents p (z.piece k) k nu nv false) }).diceResult o
                (place + 256 * x.gen place) next)))) ∧
      (∀ a l, o.state = .parked → o.parkedOn = some (.pool a l none) → l ≠ s.readNat (a + 4) 4 →
        Fires (.poolLimitWake a) s { s with ops := s.ops.map (fun x =>
          if x.state = .parked && (match x.parkedOn with
              | some (.pool h k none) => decide (h = a ∧ k ≠ s.readNat (a + 4) 4)
              | _ => false) then
            { x with state := if x.kind = .bin then .running else .queued } else x) }) ∧
      (∀ a l c, o.state = .parked → o.parkedOn = some (.pool a l (some c)) → (∀ y ∈ s.groups, y.window = none) →
        (∀ y ∈ s.ops, y ≠ o → ∀ l c, y.parkedOn ≠ some (.pool a l c)) → (∀ y ∈ s.stores, y.parkedOn = none) →
        ∃ t, Fires (.poolLimitWake a) s t ∧ t.cycle = max s.cycle (c + 1800) ∧
          t.op? id = some (if l = s.readNat (a + 4) 4 then { o with parkedOn := some (.pool a l (some t.cycle)) }
            else { o with state := if o.kind = .bin then .running else .queued })) ∧
      (∀ x, s.stores.find? (fun x => x.team = o.team && x.resolving.isNone) = some x → x.parkedOn = none → s.team? o.team = none →
        (∀ y ∈ s.ops, y.team = o.team → y.kind ≠ .dice ∧ y.kind ≠ .resolve) →
        Fires (.bucketReturn o.team) s (s.leaveBucket x false)))

/-- Events of frames and of the bucket distributors. A seal takes effect when the `bin` operations before it are gone: the frame is
SEALED and its buckets are dealt (R134, R152). A store whose team has ended gives its bucket back to the head of its die's
deque (R177). A distributor learns a count, serves a steal of half of the victim's buckets from its tail, and appends what it
has stolen (R136).
What the rules leave open here is the model's own (log entry 25). -/
def Obligations.DistributorEventsFire : Prop :=
  ∀ (s : State) (vf dev h die : Nat) (f : Frame),
    (∀ ids, s.frame? vf dev h = some f → f.sealing = some ids → (∀ i ∈ ids, s.op? i = none) →
      ∃ t u, Fires (.frameSealEffect vf dev h) s t ∧ t.frame? vf dev h = some u ∧ u.st = .sealed ∧ u.sealing = none ∧
        u.desc = f.desc ∧ u.buckets = List.replicate (fdCount f.desc) .dealt ∧
        u.deques.map (·.die) = diesOf (s.pmode vf) dev ∧ (∀ q ∈ u.deques, q.claims = []) ∧ t.mem = s.mem ∧
        ∀ g ∈ t.groups, g.slotA.wait ≠ .seal vf dev h ∧ g.slotB.wait ≠ .seal vf dev h) ∧
    (∀ x tm, s.stores.find? (fun y => y.team = x.team && y.resolving.isNone) = some x → x.parkedOn = none → s.team? x.team = some tm → tm.state = .ended →
      (∀ y ∈ s.ops, y.team = x.team → y.kind ≠ .dice ∧ y.kind ≠ .resolve) → s.storeFrame x = some f →
      (∀ q ∈ f.deques, q.claims = []) → (∃ q ∈ f.deques, q.die = x.core / 64) →
      ∃ t u, Fires (.bucketReturn x.team) s t ∧ t.storeFrame x = some u ∧ u.buckets = f.buckets.set x.bucket .dealt ∧
        (u.deque (x.core / 64)).buckets = x.bucket :: (f.deque (x.core / 64)).buckets ∧ (∀ y ∈ t.stores, y.core ≠ x.core) ∧
        t.mem = s.mem) ∧
    (∀ c, s.frames.find? (fun f => f.counts.any (fun c => c.dst = die && c.src = h)) = some f →
      f.counts.find? (fun c => c.dst = die && c.src = h) = some c →
      Fires (.remainingCountUpdate die h) s
        (s.putFrame ({ f with counts := f.counts.erase c }.askFor
          { f.deque die with
              known := (f.deque die).known.map (fun (p : Nat × Nat) => if p.1 = h then (h, c.count) else p)
              excluded := (f.deque die).excluded.filter (· ≠ h) }))) ∧
    (∀ v d, s.frames.findSome? (fun f => (f.deques.find? (fun q => q.die = die && q.thief.isSome)).map (fun q => (f, q))) =
        some (f, v) → v.thief = some d →
      (v.buckets = [] → Fires (.stealServe die) s
        (s.putFrame ((f.setDeque { f.deque d with stolen := some [] }).setDeque { v with asks := v.asks.erase (.steal d) }))) ∧
      (∀ n, v.buckets ≠ [] → n = v.buckets.length - max 1 (v.buckets.length / 2) → Fires (.stealServe die) s
        (s.putFrame ((f.setDeque { f.deque d with stolen := some (v.buckets.drop n) }).putDeque
          { v with buckets := v.buckets.take n, asks := v.asks.erase (.steal d) })))) ∧
    (∀ q got v, s.frames.findSome? (fun f => (f.deques.find? (fun q => q.die = die && q.stolen.isSome)).map (fun q => (f, q))) =
        some (f, q) → q.stolen = some got → q.steal = some v →
      (got ≠ [] → Fires (.stealComplete die) s
        (s.putFrame (f.putDeque { q with buckets := q.buckets ++ got, steal := none, stolen := none }))) ∧
      (got = [] → v ∉ q.excluded → Fires (.stealComplete die) s
        (s.putFrame (f.askFor { q with steal := none, stolen := none, excluded := q.excluded ++ [v] }))))

/-- Events of launch `n`: the next of its teams is placed, where the resources are, with its groups at their start (R118, R126); a core
is reserved for a team that has waited too long (R127); a row of a pipeline becomes a one-group team with the row's lanes and
payload (R130, R131), also when it is old (R131) or the pipeline drains (R132); a decrement reaches its task slot (R121, R122).
What the rules leave open here is the model's own (log entry 24). -/
def Obligations.LaunchEventsFire : Prop :=
  ∀ (s : State) (n : Nat) (l : Launch), s.launch? n = some l →
    (∀ core cs, l.aborted = false → l.kdesc = none → s.argsHeld n = none → s.waiters.contains (.fresh l) = true →
      s.turnOf (.fresh l) = some (core, cs) → l.kernel.argn = 0 → s.team? s.nextId = none →
      ∃ t, Fires (.teamPlacement n) s t ∧
        t.teams = s.teams ++ [Team.start s.nextId l.id l.kernel none l.next (l.next % (l.gx + 1)) (l.next / (l.gx + 1) % (l.gy + 1))
          (l.next / ((l.gx + 1) * (l.gy + 1))) core l.prio s.nextId] ∧
        t.groups = s.groups ++ cs.zipIdx.map (fun p =>
          Group.start (s.nextId + 1 + p.2) s.nextId p.2 (groupCore core l.kernel p.2) p.1 l.kernel) ∧
        (∀ g ∈ t.groups, g ∉ s.groups → g.slotA.pc = l.kernel.entry ∧ g.slotA.mask = fullMask l.kernel.width ∧ g.slotB.mask = 0 ∧
          g.mode = l.kernel.mode0.setWidth 32 ∧ g.trapBase = l.kernel.handler ∧ g.stack = [] ∧ g.inTrap = false ∧
          ∀ r, g.reg r = { val := .uniform 0, full := true, poison := false }) ∧
        (t.launch? n).map (·.next) = some (l.next + 1) ∧ t.mem = s.mem) ∧
    (∀ w u weight, l.waitSince = some w → s.waiters.filter (fun x => decide (x.launch = n)) = [.fresh l] → s.resvWait ≠ 0 →
      u = { s with cycle := max s.cycle (w + 256 * s.resvWait) } → u.wantsCore (.fresh l) = true → u.reservable (.fresh l) ≠ [] →
      weight = (fun c => (s.groups.filter (fun g =>
        (g.core = c || (l.kernel.pair && g.core = c + 1)) && decide (s.prioOf g ≤ l.prio))).length) →
      ∃ t c, Fires (.reservationTimeout n) s t ∧ t.cycle = u.cycle ∧ c ∈ u.reservable (.fresh l) ∧
        (∀ d ∈ u.reservable (.fresh l), weight c ≤ weight d) ∧ t.groups = s.groups ∧ t.teams = s.teams ∧
        t.reserved = s.reserved ++ [({ die := c / 64, core := c, pair := l.kernel.pair, launch := n, team := none } : Reservation)]) ∧
    (∀ die i q r core c x lines, l.aborted = false → s.oldestRow l die i = some (q, r) →
      s.turnOf (.row l die q.kernel) = some (core, [c]) → q.kernel.argn = 0 → q.pay ≤ 32 → q.kernel.groups = 1 → q.kernel.pair = false →
      s.hubRead l.vf l.dev (s.rowVa l q r) (4 * q.pay * q.kernel.width) = .ok x lines → s.team? s.nextId = none →
      ∀ e, ((e = Instr.queueRowLaunch n die i ∧ s.queueToLaunch l die = some i) ∨
          (e = Instr.pipelineDrain n ∧ s.drained l = true ∧ (∀ d ∈ diesOf (s.pmode l.vf) l.dev, s.queueToLaunch l d = none) ∧
            (∀ k, k < i → s.oldestRow l die k = none) ∧
            ∃ pre post, diesOf (s.pmode l.vf) l.dev = pre ++ die :: post ∧ ∀ d ∈ pre, ∀ k, s.oldestRow l d k = none)) →
        ∃ t tm g, Fires e s t ∧ t.rows = s.rows.erase r ∧ tm ∈ t.teams ∧ tm.id = s.nextId ∧
          tm.launch = l.id ∧ tm.queue = some i ∧ tm.core = core ∧ core / 64 = die ∧ tm.kernel = q.kernel ∧
          g ∈ t.groups ∧ g.team = s.nextId ∧ g.core = core ∧ g.carousel = c ∧ g.slotA.mask = r.filled ∧
          g.slotA.pc = q.kernel.entry ∧ ∀ j k, j < q.pay → k < q.kernel.width →
            g.word (BitVec.ofNat 7 j) k = BitVec.ofNat 32 (x / 2 ^ (32 * (j * q.kernel.width + k)))) ∧
    (∀ die queue q r rest, l.queues[queue]? = some q → s.rowsOf n die queue = r :: rest → q.age ≠ 0 → r.aged = false →
      Fires (.rowAgeLimit n die queue) s { s with
        cycle := max s.cycle (r.born + 256 * q.age)
        rows := s.rows.map (fun x => if x = r then { x with aged := true } else x) }) ∧
    (∀ d rest k, s.decs = d :: rest → d.op = none → k = s.taskBase d.vf + d.k →
      (s.taskCount d.vf ≤ d.k → Fires .taskDecrement s { s with decs := rest }) ∧
      (d.k < s.taskCount d.vf → (s.taskSlot k).held = none → 0 < d.n →
        ∃ t, Fires .taskDecrement s t ∧
          t.taskSlot k = { k := k, c := (s.taskSlot k).c, e := min 65535 ((s.taskSlot k).e + d.n), held := none } ∧
          t.launches = s.launches ∧ t.decs = rest) ∧
      (d.k < s.taskCount d.vf → (s.taskSlot k).held = some n →
        (d.n < (s.taskSlot k).c → ∃ t, Fires .taskDecrement s t ∧ (t.taskSlot k).c = (s.taskSlot k).c - d.n ∧
          (t.taskSlot k).held = some n ∧ t.launches = s.launches) ∧
        ((s.taskSlot k).c ≤ d.n → l.state = .waiting → l.started = true → l.kdesc = none → l.kernel.invalid = false →
          ∃ t x, Fires .taskDecrement s t ∧ t.taskSlot k = { k := k, c := 0, e := 0, held := none } ∧ t.launch? n = some x ∧
            x.state = .ready ∧ x.task = none ∧ x.waitSince = some s.cycle)))

/-- Events of team `n`: a blocked team is swapped out when another waits (R139), a waiting launch of higher priority displaces teams
(R142), and a team that stops for either rolls its groups' windows back, stops its operations, is saved in its slot (R300–R305)
and later restored from it (R308, R523); a team that is discarded leaves nothing (R81).
What the rules leave open here is the model's own (log entries 29 and 35). -/
def Obligations.TeamEventsFire : Prop :=
  ∀ (s : State) (n : Nat) (t : Team), s.team? n = some t →
    (∀ c i w, t.idleSince = some c → s.slotFor (s.vfOf t) (corePartition t.core) = some i → t.state = .running → s.swapWait ≠ 0 →
      w ∈ s.waiters → (s.launch? w.launch).map (·.vf) = some (s.vfOf t) → s.choosePlace w = none →
      Fires (.swapOut n) s ({ s with cycle := max s.cycle (c + 1024 * s.swapWait), nextId := s.nextId + 1 }.modTeam n (fun t =>
        { t with state := .stopping, slot := some i, rejoin := false, waitSince := none, decided := s.nextId }))) ∧
    (∀ k l w v vs, s.launch? k = some l → s.waiters.find? (fun w => w.launch = k) = some w → s.choosePlace w = none →
      (∀ y ∈ s.teams, y.displacers.getLast? = some k → y.state ≠ .stopping ∧ y.state ≠ .saving) → s.chooseVictims w l = some (v :: vs) →
      ∃ u, Fires (.preemptDecision k) s u ∧ u.teams.map (·.id) = s.teams.map (·.id) ∧
        (∀ x ∈ u.teams, (∃ y ∈ v :: vs, y.1 = x.id ∧ x.state = .stopping ∧ x.rejoin = true ∧ k ∈ x.displacers) ∨ x ∈ s.teams) ∧
        (∀ y ∈ v :: vs, ∀ x ∈ u.teams, x.id = y.1 → x.state = .stopping) ∧ u.groups = s.groups ∧ u.mem = s.mem) ∧
    (t.state = .stopping →
      (∀ g, (s.teamGroups n).find? (fun g => !g.hasStopped && s.mayStop t g) = some g →
        Fires (.preempt n) s (s.stopGroup g) ∧
          ∀ x, g.homeOut = 0 → (s.stopGroup g).group? g.id = some x → x.window = none ∧ x.ticket = none ∧ x.anchors = [] ∧ x.rollbacks = 0 ∧
            (x.block = .stopped ∨ x.block = .fault) ∧ ∀ p ∈ x.producers, p.kind = .trace) ∧
      ((∀ g ∈ s.teamGroups n, g.hasStopped = true) → (∀ o ∈ s.teamOps n, s.mustComplete t o = false) → s.poolsHeld n = [] →
        (t.discard = false → Fires (.preempt n) s
          (((s.teamOps n).foldl State.stopOp s).modTeam n (fun t => { t with state := .saving }))) ∧
        (t.discard = true → ∃ u, Fires (.preempt n) s u ∧ (∀ g ∈ u.groups, g.team ≠ n) ∧
          (∀ x ∈ u.teams, x.id = n → x.state = .ended ∧ x.savedGroups = []) ∧ ∀ w ∈ u.wins, w.openerTeam ≠ some n))) ∧
    (t.state = .saved → t.discard = true → s.poolsHeld n = [] → ∃ u, Fires (.preempt n) s u ∧
      (∀ x ∈ u.teams, x.id = n → x.state = .ended ∧ x.savedGroups = [] ∧ x.slot = none) ∧ ∀ w ∈ u.wins, w.openerTeam ≠ some n) ∧
    (t.state = .saving → t.discard = false → s.saveBefore t = false →
      s.heldOff ((List.range ((s.teamRecord t (s.teamGroups n)).length / 128)).map
        (lineOf (s.slotAddr (s.vfOf t) (t.slot.getD 0)) + ·)) true = false →
      ∃ u x, Fires (.teamSaveDone n) s u ∧
        u.mem = Memory.setBytes s.mem (s.slotAddr (s.vfOf t) (t.slot.getD 0)) (s.teamRecord t (s.teamGroups n)) ∧
        u.team? n = some x ∧ x.state = .saved ∧ x.savedGroups = s.teamGroups n ∧ (∀ g ∈ u.groups, g.team ≠ n)) ∧
    (∀ core cs a lines bytes, t.state = .saved → s.waiters.contains (.saved t) = true → s.turnOf (.saved t) = some (core, cs) →
      a = s.slotAddr (s.vfOf t) (t.slot.getD 0) → lines = (List.range (t.kernel.layout.engines / 128)).map (lineOf a + ·) →
      bytes = Memory.getBytes (s.eccRead lines).mem a t.kernel.layout.engines → s.heldOff lines false = false →
      headerFits (leNat (bytes.take 128)) t.kernel = true → (∀ g ∈ t.savedGroups, partsFit t bytes g = true) →
      ∃ u x, Fires (.teamRestore n) s u ∧ u.team? n = some x ∧ x.state = .running ∧ x.core = core ∧ x.slot = none ∧
        x.savedGroups = [] ∧ x.scratch = Memory.setBytes [] 0 ((bytes.drop t.kernel.layout.scratch).take (128 * t.kernel.scratch)) ∧
        u.mem = (s.eccRead lines).mem ∧ u.groups.length = s.groups.length + t.savedGroups.length ∧
        ∀ o ∈ u.ops, o.team = n → o.state ≠ .withheld ∧ o.state ≠ .stopped)

/-- Events of arbiters, shares, cache ways, the mesh and power leave: a written binding or share entry is checked in order and refused
with its cause (R95, R96, R98, R99); an epoch boundary refills every bucket, up to its depth, with the shares in effect, and
deals the ways (R97, R100, R105); a grant takes tokens or counts as borrowed (R100, R101); an output of the mesh grants a head
(R110, R111); power leave is granted to the oldest request and given back after a burst (R112–R114).
What the rules leave open here is the model's own (log entries 27 and 28). -/
def Obligations.ArbiterEventsFire : Prop :=
  ∀ (s : State) (owner cls v : Nat),
    (∀ w, owner < 512 → s.recovery = false → w = packBits [(16, v), (14, 0), (2, v / 2 ^ 30)] →
      ((s.pfSet (shareBlock owner) w).bindCause owner w (s.vfBusy owner) = none →
        Fires (.vfbindWrite owner v) s
          ({ s.pfSet (shareBlock owner) w with meshHeads := s.settleAges.meshHeads }.reachAnew owner
            (reachOf owner (s.vfbind owner)) (reachOf owner w))) ∧
      (∀ c, (s.pfSet (shareBlock owner) w).bindCause owner w (s.vfBusy owner) = some c →
        Fires (.vfbindWrite owner v) s (s.shareRefused c 0 owner))) ∧
    (∀ off w, owner ≤ 513 → s.recovery = false → cls ∈ classesOf owner → off = shareOff owner cls → w = v % 2 ^ 21 →
      ((s.pfSet off w).overCapacity [cls] = true → Fires (.shareEntryWrite off v) s (s.shareRefused 3 cls owner)) ∧
      ((s.pfSet off w).overCapacity [cls] = false →
        (cls ≠ 2 ∧ cls ≠ 3 ∧ (bits w 8 13 = 0 ∨ 4096 < bits w 8 13) →
          Fires (.shareEntryWrite off v) s (s.shareRefused 4 cls owner)) ∧
        (cls = 2 ∨ cls = 3 ∨ (1 ≤ bits w 8 13 ∧ bits w 8 13 ≤ 4096) → Fires (.shareEntryWrite off v) s (s.pfSet off w)))) ∧
    (∃ t, Fires .epochBoundary s t ∧ t.epoch = s.epoch + 1 ∧ t.cycle = max s.cycle (256 * (s.epoch + 1)) ∧ t.mem = s.mem ∧
      t.groups = s.groups ∧
      (∀ x ∈ s.levels, ∃ y ∈ t.levels, y.arb = x.arb ∧ y.owner = x.owner ∧
        y.level = min (t.depthOf x.arb x.owner) (x.level + t.rateOf x.arb x.owner)) ∧
      (∀ p ∈ t.shares, p ∈ s.pf) ∧ ∀ x ∈ t.slices, x.deal = t.dealOf x.id) ∧
    (∀ arb r, arbClass arb ≠ 7 → (arbClass arb = 6 → s.linkUp (arbIndex arb / 2) = true) →
      s.requests.filter (fun r => r.arb = arb) = [r] → r.reserved = false → r.rest = [] →
      (s.holdsTokens arb r.owner = true →
        ∃ t, Fires (.arbiterGrant arb) s t ∧ t.requests = s.requests.erase r ∧
          t.level arb r.owner = s.level arb r.owner - s.chargeOf r ∧ t.pf = s.pf ∧ t.groups = s.groups) ∧
      (s.holdsTokens arb r.owner = false → s.lend r.owner = true → r.owner < 514 → Rising s.pf →
        ∃ t, Fires (.arbiterGrant arb) s t ∧ t.requests = s.requests.erase r ∧ t.levels = s.levels ∧
          t.pfGet64 (shareBlock r.owner + 0x28) = min (2 ^ 64 - 1) (s.pfGet64 (shareBlock r.owner + 0x28) + 1))) ∧
    (∀ port m, port < 8 → s.portMsgs port = [m] → m.control = true → 0 < s.level (arbOf 7 port) 514 →
      ∃ t, Fires (.arbiterGrant (arbOf 7 port)) s t ∧ (∀ x ∈ t.fabWaiting, x.id ≠ m.id) ∧
        t.fabSent = s.fabSent ++ [{ port := port, header := m.header, payload := m.payload }] ∧
        t.level (arbOf 7 port) 514 = s.level (arbOf 7 port) 514 - m.flits) ∧
    (∀ output h, s.meshHeads.filter (fun h => h.output = output && s.eligible h) = [h] → s.cycle = (s.meshOut output).freeAt →
      h.vc < 4 → h.input < 5 → h.rest = [] →
      ∃ t o, Fires (.meshOutputArbitration output) s t ∧
        t.meshHeads = (s.meshHeads.erase h).map (fun x => { x with age := s.ageOf x, asOf := max x.asOf s.cycle }) ∧
        o ∈ t.meshOuts ∧ o.output = output ∧ o.freeAt = s.cycle + h.flits ∧
        (s.promoted h = false → o.p = h.vc ∧ o.last.length = (s.meshOut output).last.length)) ∧
    (∀ output input h, s.meshHeads.find? (fun h => h.output = output && h.input = input && s.eligible h && !s.promoted h) = some h →
      s.meshPromote output ≠ 0 →
      Fires (.headPromoted output input) s { s with cycle := max s.cycle (h.asOf + (s.meshPromote output - h.age)) }) ∧
    (∀ id l, (s.slice id).borrowed s.epoch = some l → ((s.slice id).evictions.filter (fun c => s.cycle < c + 1000)).length < 64 →
      ∃ t, Fires (.wayReclaimEviction id) s t ∧ (∀ x ∈ (t.slice id).lines, x ∈ (s.slice id).lines ∧ x.line ≠ l.line) ∧
        (∀ c ∈ t.caches, c ∈ s.caches ∧ (c.line = l.line → includes id c.holder = false)) ∧ t.mem = s.mem) ∧
    (∀ die l, s.leaves.find? (fun l => l.die = die && !l.granted) = some l →
      ∃ t, Fires (.leaveGrant die) s t ∧ t.leaves = s.leaves.map (fun x => if x = l then { x with granted := true } else x) ∧
        (∀ i, l.who = .op i → ∀ o ∈ t.ops, o.id = i → o.leave = true) ∧ t.mem = s.mem ∧ t.groups = s.groups) ∧
    (∀ core p, s.raysIdle.find? (fun p => p.1 = core) = some p → s.raysOf core = 0 →
      ∃ t, Fires (.traceBurstIdle core) s t ∧ t.cycle = max s.cycle (p.2 + 256) ∧
        t.leaves = s.leaves.filter (fun l => l.who ≠ .burst core) ∧ (∀ q ∈ t.raysIdle, q.1 ≠ core) ∧ t.groups = s.groups)

/-- Events of translation, faults and page moves: INVCTL's commands drop cached translations (R240); a fault is posted in its ring with
its TAG (R243), and a resume takes it off (R244); the counts of a translation cache go to HEAT (R255); the migration ring is
written, read and answered (R257), and a move's release copies the page and renames its leaves (R256).
What the rules leave open here is the model's own (log entries 13, 16 and 36). -/
def Obligations.TranslationEventsFire : Prop :=
  ∀ (s : State) (vf : Nat),
    (vf < 512 → Rising s.pf → s.recovery = false → bits (s.pfGet (transBlock vf + 0x28)) 31 1 = 0 →
      ∃ t, Fires (.invalidate vf) s t ∧ bits (t.pfGet (transBlock vf + 0x28)) 31 1 = 1 ∧
        bits (t.pfGet (transBlock vf + 0x28)) 0 31 = bits (s.pfGet (transBlock vf + 0x28)) 0 31 ∧ t.tlb = s.tlb) ∧
    (∀ c gone es, vf < 512 → Rising s.pf → s.pfGet (transBlock vf + 0x28) = c → bits c 31 1 = 1 → s.accessesOut vf = false →
      gone = (fun (e : TlbEntry) => if bits c 30 1 = 1 then decide (e.vf = vf) else
        e.overlaps vf (bits (s.pfGet64 (transBlock vf + 0x20)) 12 37 * 4096)
          (bits (s.pfGet64 (transBlock vf + 0x20)) 12 37 * 4096 + 4096 * bits c 0 20)) →
      es = s.tlb.filter gone → s.heatHeld es = false →
      ∃ t, Fires (.invalidateDone vf) s t ∧ bits (t.pfGet (transBlock vf + 0x28)) 31 1 = 0 ∧
        t.tlb = s.tlb.filter (fun e => !gone e) ∧
        ∀ a, (∀ e ∈ es, e.count ≠ 0 → a ≠ e.leafAddr + 7) → Memory.get t.mem a = Memory.get s.mem a) ∧
    (∀ f pa tail, vf < 512 → Rising s.pf → s.faults.find? (fun f => decide (f.vf = vf) && f.tag.isNone) = some f →
      s.ringFull vf = false → tail = s.pfGet (transBlock vf + 0x14) →
      pa = canonPa .perDie 0 (s.pfGet64 (transBlock vf + 8) / 4096 * 4096 + 32 * tail) → s.heldOff [lineOf pa] true = false →
      s.locked .mem pa 32 true = false → paExists .perDie 0 pa = true →
      ∃ t, Fires (.faultPost vf) s t ∧ t.mem = Memory.setBytes s.mem pa (f.bytes tail (!s.oddPass.contains vf)) ∧
        t.faults = s.faults.map (fun x => if x = f then { x with tag := some tail } else x) ∧
        t.pfGet (transBlock vf + 0x14) = (tail + 1) % s.faultSlots vf ∧ t.msix = s.msix ++ [(vf, 64)]) ∧
    (∀ v, vf < 512 → v < 2 ^ 32 → s.recovery = false → Fires (.frheadWrite vf v) s (s.pfSet (transBlock vf + 0x18) v)) ∧
    (∀ tag f, s.recovery = false → s.faults.find? (fun f => f.vf = vf && f.tag = some tag) = some f →
      (∀ id, f.agents = [.group id] → (∀ g ∈ s.groups, g.id = id → g.parkedOn = [.page f.page] ∧ g.block = .fault) →
        ∃ t, Fires (.translationResume vf tag) s t ∧ t.faults = s.faults.erase f ∧
          (∀ g ∈ t.groups, g.id = id → g.parkedOn = [] ∧ g.block = .none) ∧ t.mem = s.mem) ∧
      Fires (.translationResume vf tag) s
        (f.agents.foldl (fun s a => s.retryAgent (.page f.page) a) { s with faults := s.faults.erase f })) ∧
    (∀ die idx e, s.hot = [] → (s.heats die)[idx]? = some e → e.count ≠ 0 → e.leafAddr < 2 ^ 52 → s.heatHeld [e] = false →
      ∃ t, Fires (.heatFlush die idx) s t ∧
        (Memory.get t.mem (e.leafAddr + 7)).toNat = min 255 ((Memory.get s.mem (e.leafAddr + 7)).toNat + e.count) ∧
        (∀ a, a ≠ e.leafAddr + 7 → Memory.get t.mem a = Memory.get s.mem a) ∧
        t.tlb = s.tlb.filterMap (fun x => if x = e then (if e.place < 512 then some { e with count := 0 } else none) else some x)) ∧
    (∀ v, v < s.mrSlots → s.recovery = false → Fires (.mrtailWrite v) s (s.pfSet (mrBlock + 0xC) v)) ∧
    (∀ slot a r leaf u, bits (s.pfGet (mrBlock + 8)) 31 1 = 1 → slot = s.pfGet (mrBlock + 0x10) → slot ≠ s.pfGet (mrBlock + 0xC) →
      s.moves = [] → a = s.mrRecord slot → s.mrHeld slot true = false → r = s.readNat a 32 →
      leaf = canonPa .perDie 0 (8 * bits r 0 49) →
      u = ((s.readBy [lineOf a]).postLines 513 false hubPlace false [lineOf a]).pfSet (mrBlock + 0x10) ((slot + 1) % s.mrSlots) →
      (paExists .perDie 0 (8 * bits r 0 49) = false → Fires .migrationRecord s (u.mrStatus slot 2)) ∧
      (∀ size m, paExists .perDie 0 (8 * bits r 0 49) = true → u.movable (bits r 64 9) leaf = some size →
        (u.frameSound (bits r 64 9) (bits r 80 40 * 4096) (bits r 76 4) size = false →
          Fires .migrationRecord s (u.mrStatus slot 3)) ∧
        (u.frameSound (bits r 64 9) (bits r 80 40 * 4096) (bits r 76 4) size = true →
          m = ({ vf := bits r 64 9, leaf := leaf, count := if size = 16 then 16 else 1, size := size,
                 oldPa := frameOf (u.readNat leaf 8), newPa := bits r 80 40 * 4096, hp := bits r 76 4, slot := some slot,
                 element := none } : Move) →
          u.mayLock (u.moveLocks m) = true → u.atomsInto (u.moveLocks m) = false →
          ∃ t, Fires .migrationRecord s t ∧ t.moves = [m] ∧ t.locks = s.locks ++ u.moveLocks m ∧ t.mem = u.mem))) ∧
    (∀ m rest, s.moves = m :: rest → s.moveHeld m = [] → (∀ i, m.slot = some i → s.mrHeld i true = false) →
      ∃ t, Fires .moveRelease s t ∧ (∀ x ∈ t.moves, x.leaf ≠ m.leaf) ∧ (∀ x ∈ t.locks, x.op ≠ m.lockId) ∧
        (∀ e ∈ t.tlb, m.holds e.leafAddr = false) ∧
        (m.count = 1 → m.slot = none → m.element = none → Memory.wf s.mem = true → s.symErrs = [] →
          t.readNat m.leaf 8 = movedLeaf ((s.copyFrame m).readNat m.leaf 8) m.newPa m.hp))

/-- Events of the die links: a message is encoded, numbered, held and sent, one that waits at the sender before a new one of its stream,
and one to the opposite die by the path in use or held for its own (R7–R9, R13–R17, R20); a packet in step is decoded, checked
by its CRC and delivered or forwarded, one of an old epoch is discarded, and one that fails its check starts a resynchronisation
(R18, R19); the sender answers with a new epoch and sends its lines again (R19, R20); acknowledged lines go (R20); a link
retrains, returns, or goes out of service and stops the package (R11, R12); DLCTL is written, and the path to the opposite die
switches (R9, R22).
What the rules leave open here is the model's own (log entries 9 and 37). -/
def Obligations.LinkEventsFire : Prop :=
  ∀ (s : State) (dir : Nat) (d : LinkDir), s.linkDir? dir = some d → dir < 16 →
    (∀ m p tx, s.linkUp (dir / 2) = true → s.fatal = false → d.held.length < 512 → d.resync = none →
      (d.tx.encodeLine (s.pfGet (dlctlOf dir)) d.tx.seq m (Config.choice s.draw) = (p, tx) →
        (d.relay.find? m.sameStream = some m →
          Fires (.linePacketSend { dir := dir, src := m.src, dst := m.dst, cls := m.cls, perr := false } m.line) s
            ({ s with draw := s.draw + 1 }.setDir
              { d with
                relay := d.relay.erase m
                tx := { tx with seq := (d.tx.seq + 1) % 4096 }
                wire := d.wire ++ [p]
                held := d.held ++ [({ seq := d.tx.seq, msg := m } : HeldLine)] })) ∧
        (d.relay.find? m.sameStream = none → m.src = senderOf dir → m.dst ≠ m.src →
          (opposite m.src m.dst = false → dir = dirTo m.src m.dst →
            Fires (.linePacketSend { dir := dir, src := m.src, dst := m.dst, cls := m.cls, perr := false } m.line) s
              ({ s with draw := s.draw + 1 }.setDir
                { d with
                  tx := { tx with seq := (d.tx.seq + 1) % 4096 }
                  wire := d.wire ++ [p]
                  held := d.held ++ [({ seq := d.tx.seq, msg := m } : HeldLine)] })) ∧
          (∀ q, opposite m.src m.dst = true → s.oppPath? m.src = some q → dir = nextDir m.src m.dst (s.oppVia m.src) →
            (q.held = [] → (q.viaHub = s.oppVia m.src ∨ q.outstanding = 0) →
              Fires (.linePacketSend { dir := dir, src := m.src, dst := m.dst, cls := m.cls, perr := false } m.line) s
                (({ s with draw := s.draw + 1 }.modPath m.src (fun q =>
                    { q with viaHub := s.oppVia m.src, outstanding := q.outstanding + 1 })).setDir
                  { d with
                    tx := { tx with seq := (d.tx.seq + 1) % 4096 }
                    wire := d.wire ++ [p]
                    held := d.held ++ [({ seq := d.tx.seq, msg := m } : HeldLine)] })) ∧
            (q.held ≠ [] ∨ (q.viaHub ≠ s.oppVia m.src ∧ q.outstanding ≠ 0) →
              Fires (.linePacketSend { dir := dir, src := m.src, dst := m.dst, cls := m.cls, perr := false } m.line) s
                (s.modPath m.src (fun q => { q with held := q.held ++ [(s.oppVia m.src, m)] })))))) ∧
      (d.tx.encodeLine 0 d.tx.seq m (Config.choice s.draw) = (p, tx) → d.relay.find? m.sameStream = none → m.src = senderOf dir →
        m.dst ≠ m.src → opposite m.src m.dst = false → dir = dirTo m.src m.dst →
        Fires (.linePacketSend { dir := dir, src := m.src, dst := m.dst, cls := m.cls, perr := true } m.line) s
          ({ s.notePerr dir with draw := s.draw + 1 }.setDir
            { d with
              tx := { tx.nextEpoch with seq := (d.tx.seq + 1) % 4096 }
              wire := d.wire ++ [p]
              held := d.held ++ [({ seq := d.tx.seq, msg := m } : HeldLine)] }))) ∧
    (∀ p rest, d.wire = p :: rest → s.linkUp (dir / 2) = true → s.fatal = false → d.rx.epoch < 4 →
      bits p.header.toNat 18 2 = d.rx.epoch →
      (∀ ws ls m u, d.discarding = false → d.rx.decodeLine p = some (ws, ls) →
        m = ({ src := p.src, dst := p.dst, cls := p.cls, line := BitVec.ofNat 1024 (natOfWords ws) } : DieMsg) →
        crc8 (lineBytes m.line) = bits p.header.toNat 0 8 →
        u = { d with
          wire := rest
          rx := { (if bits p.header.toNat 15 3 = 4 then d.rx.insert ls else d.rx) with seq := (bits p.header.toNat 20 12 + 1) % 4096 } } →
        (receiverOf dir ≠ p.dst → Fires (.linePacketReceive { dir := dir, perr := false }) s
          ((s.setDir u).relayOn (dirTo (receiverOf dir) p.dst) [m])) ∧
        (receiverOf dir = p.dst →
          (opposite p.src p.dst = false → Fires (.linePacketReceive { dir := dir, perr := false }) s
            (s.setDir { u with delivered := u.delivered ++ [m] })) ∧
          (opposite p.src p.dst = true → Fires (.linePacketReceive { dir := dir, perr := false }) s
            ((s.setDir { u with delivered := u.delivered ++ [m] }).modPath p.src (fun q =>
              { q with outstanding := q.outstanding - 1 }))))) ∧
      (∀ b, d.discarding = false →
        (b = true ∨ d.rx.decodeLine p = none ∨ ∃ ws ls, d.rx.decodeLine p = some (ws, ls) ∧
          crc8 (lineBytes (BitVec.ofNat 1024 (natOfWords ws))) ≠ bits p.header.toNat 0 8) →
        ∃ t, Fires (.linePacketReceive { dir := dir, perr := b }) s t ∧ t.linkDir? dir = some
          { d with wire := rest, resync := some (bits p.header.toNat 20 12, d.rx.epoch), discarding := true } ∧ t.mem = s.mem ∧
          (b = true → Rising s.pf → bits (t.pfGet (dlstatOf (backOf dir))) 2 1 = 1)) ∧
      (∀ b, d.discarding = true →
        Fires (.linePacketReceive { dir := dir, perr := b }) s (s.setDir { d with wire := rest }))) ∧
    (∀ sq e, d.resync = some (sq, e) → s.linkUp (dir / 2) = true → s.fatal = false →
      (e ≠ d.tx.epoch → Fires (.resync dir) s (s.setDir { d with resync := none })) ∧
      (e = d.tx.epoch → d.held.dropWhile (fun x => x.seq ≠ sq) = [] →
        Fires (.resync dir) s ({ s with draw := s.draw + 1 }.setDir { d with tx := d.tx.nextEpoch, resync := none })) ∧
      (e = d.tx.epoch →
        ∃ t u, Fires (.resync dir) s t ∧ t.linkDir? dir = some u ∧ u.resync = none ∧ u.held = d.held ∧
          u.wire.length = d.wire.length + (d.held.dropWhile (fun x => x.seq ≠ sq)).length)) ∧
    (∀ x ys zs, d.held = ys ++ x :: zs → (∀ y ∈ ys, y.seq ≠ x.seq) → (d.rx.seq + 4095 - x.seq) % 4096 < 2048 →
      s.linkUp (dir / 2) = true → s.fatal = false →
      Fires (.cumulativeAcknowledgement dir x.seq) s (s.setDir { d with held := zs })) ∧
    (∀ l, s.layer? (dir / 2) = some l →
      Fires (.dieLinkFlitCrcFail (dir / 2)) s (s.setLayer { l with replays := l.replays + 1 }) ∧
      (s.fatal = false → (s.linkUp (dir / 2) = true ∨ l.training.isSome = true) → l.attempts < 4 → s.inTrainTime l = true →
        ∃ t, Fires (.linkRetrain (dir / 2)) s t ∧
          t.layer? (dir / 2) = some { l with training := some (l.training.getD s.cycle), attempts := l.attempts + 1 } ∧
          t.groups = s.groups ∧ t.mem = s.mem ∧
          (Rising s.pf → bits (t.pfGet (dlstatOf dir)) 0 1 = 0 ∧
            bits (t.pfGet (dlstatOf dir)) 16 16 = min 65535 (bits (s.pfGet (dlstatOf dir)) 16 16 + 1))) ∧
      (l.training.isSome = true → s.fatal = false → s.inTrainTime l = true → Rising s.pf →
        ∃ t, Fires (.linkRetrainDone (dir / 2)) s t ∧ t.layer? (dir / 2) = some { l with training := none, attempts := 0 } ∧
          bits (t.pfGet (dlstatOf dir)) 0 1 = 1) ∧
      (∀ w, l.training = some w → s.fatal = false → Rising s.pf →
        ∃ t, Fires (.linkOutOfService (dir / 2)) s t ∧ t.fatal = true ∧ bits (t.pfGet devstat) 26 4 = 1 ∧
          bits (t.pfGet (dlstatOf dir)) 1 1 = 1 ∧ t.stopped = List.range 512 ∧ t.msix = s.msix ++ [(512, 0)] ∧
          (l.attempts < 4 → t.cycle = max s.cycle (w + 18000)))) ∧
    (∀ v, v < 2 ^ 32 → Rising s.pf → s.recovery = false →
      ∃ t, Fires (.dlctlWrite dir v) s t ∧ t.mem = s.mem ∧ t.oppPaths = s.oppPaths ∧
        t.pfGet (dlctlOf dir) = (if dir < 8 ∧ dir % 2 = 0 then bits v 0 6 else bits v 0 5) ∧
        (dir < 8 → dir % 2 = 0 → t.oppVia (dir / 2) = decide (bits v 5 1 = 1))) ∧
    (∀ die q, s.oppPath? die = some q → q.outstanding = 0 →
      (q.held = [] → q.viaHub ≠ s.oppVia die →
        Fires (.oppPathSwitch die) s (s.modPath die (fun x => { x with viaHub := s.oppVia die }))) ∧
      (∀ via m rest now, q.held = (via, m) :: rest → now = (q.held.takeWhile (fun x => x.1 = via)).map (·.2) →
        ∃ t, Fires (.oppPathSwitch die) s t ∧
          t.oppPath? die = some { q with viaHub := via, outstanding := now.length, held := q.held.drop now.length } ∧
          t.linkDirs = s.linkDirs.map (fun x =>
            if x.dir = nextDir die ((die + 2) % 4) via then { x with relay := x.relay ++ now } else x)))

/-- Events of memory errors and of the fabric: a patrol read corrects or poisons (R24, R25, R91); flits are replayed (R27);
an `xst` is applied to its window and acknowledged, or discarded, counted and acknowledged (R30, R491); an acknowledgement
lowers the count of the group that sent (R490); an unknown header is counted (R30); the route table is written, and new messages
wait for the old route's acknowledgements (R28).
What the rules leave open here is the model's own (log entries 28 and 38). -/
def Obligations.FabricEventsFire : Prop :=
  ∀ (s : State) (h : BitVec 128) (a n v : Nat),
    (∀ c, channelOf a = some c → (∀ p ∈ s.symErrs, p.1 ≠ a) →
      Fires (.patrolScrub a 1) s (s.modLife (fun x => { x with corr := bump x.corr c (2 ^ 32 - 1) })) ∧
      ∃ t, Fires (.patrolScrub a 2) s t ∧ a ∈ t.poison ∧ (∀ l, l ≠ a → (l ∈ t.poison ↔ l ∈ s.poison)) ∧ t.mem = s.mem) ∧
    (n < 8 → Fires (.fabricFlitCrcFail n) s { s with fabReplays := bump s.fabReplays n (2 ^ 64) }) ∧
    (∀ ws w len, bits h.toNat 23 4 = 1 → bits h.toNat 36 6 = s.device → len = bits h.toNat 72 5 → ws.length = len + 1 →
      bits h.toNat 79 49 % 128 + 4 * (len + 1) ≤ 128 → s.running = true → w = bits h.toNat 64 8 →
      (s.arrivalAt w (bits h.toNat 79 49) len = some a → s.heldOff [lineOf a] true = false → s.locks = [] →
        ∃ t m, Fires (.xstArrival h ws) s t ∧ t.mem = Memory.setBytes (if 4 * (len + 1) = 128 then s else s.eccRead [lineOf a]).mem a
            (toLe (4 * (len + 1)) (natOfWords ws)) ∧
          t.fabWaiting = s.fabWaiting ++ [m] ∧ m.dst = bits h.toNat 42 6 ∧ m.kind = 2 ∧ m.payload = [] ∧
          bits m.header.toNat 48 16 = bits h.toNat 48 16) ∧
      (s.arrivalAt w (bits h.toNat 79 49) len = none → Rising s.pf →
        ∃ t m, Fires (.xstArrival h ws) s t ∧ t.mem = s.mem ∧
          bits (t.pfGet (pwin w)) 0 16 = min 65535 (bits (s.pfGet (pwin w)) 0 16 + 1) ∧
          t.fabWaiting = s.fabWaiting ++ [m] ∧ m.dst = bits h.toNat 42 6 ∧ m.kind = 2 ∧
          bits m.header.toNat 48 16 = bits h.toNat 48 16)) ∧
    (∀ u, s.fabUnacked.find? (fun u => u.dst = a && u.seq = n) = some u →
      ∃ t, Fires (.xack a n) s t ∧ t.fabUnacked = s.fabUnacked.erase u ∧ t.mem = s.mem ∧
        (∀ g ∈ s.groups, g.team = u.team → g.num = u.group → ∃ x ∈ t.groups, x.id = g.id ∧ x.xstOut = g.xstOut - 1) ∧
        ∀ g ∈ s.groups, (g.team ≠ u.team ∨ g.num ≠ u.group) → g ∈ t.groups) ∧
    (bits h.toNat 23 4 = 0 ∨ 6 < bits h.toNat 23 4 →
      Fires (.headerFlitDiscard h) s (s.pfSet faberr (min 0xFFFFFFFF (s.pfGet faberr + 1)))) ∧
    (n < 64 → v < 2 ^ 32 → Rising s.pf → s.recovery = false →
      ∃ t, Fires (.frouteWrite n v) s t ∧ t.pfGet (froute n) = bits v 0 3 + bits v 31 1 * 2 ^ 31 ∧ t.fabWaiting = s.fabWaiting ∧
        (t.sentTo n = true → n ∈ t.fabHeld) ∧ ∀ d ∈ s.fabHeld, d ∈ t.fabHeld)

/-- Events of power, start-up and the management controller: stages complete in order and stage 5 leaves the package ready (R31);
the supply and a thermal trip leave flash, counters and the lifetime record (R33, R84, R91); throttling changes no value (R33); an
internal error stops the package with FCAUSE 3 (R83, R84); resets repeat the stages from 2 and leave the management state (R84);
mailbox commands are served, refused in RECOVERY and while ALARMED (R85); an alarm counts, and under ALARM_POLICY zeroises the
keys and stops the package (R90). The values that firmware chooses are the model's free values (log entry 8).
What the rules leave open here is the model's own (log entries 42 and 43). -/
def Obligations.ManagementEventsFire : Prop :=
  ∀ (s : State) (die : Nat), Rising s.pf →
    (s.mgmt.powered = false → ∃ t, Fires .powerOn s t ∧ t.mgmt.powered = true ∧ t.mgmt.stage = 0 ∧ t.groups = [] ∧ t.pf = [] ∧
      t.mem = s.hostCells ∧ t.mgmt.record = s.mgmt.record ∧ t.mgmt.counters = s.mgmt.counters) ∧
    (s.mgmt.powered = true →
      (∀ i, i = Instr.powerOff ∨ i = .thermalTrip → ∃ t, Fires i s t ∧ t.mgmt.powered = false ∧ t.groups = [] ∧
        t.mem = s.hostCells ∧ t.pf = [] ∧
        t.mgmt.counters = s.mgmt.counters ∧ t.mgmt.flash = s.mgmt.flash ∧ (i = .powerOff → t.mgmt.life = s.mgmt.life) ∧
        (i = .thermalTrip → t.mgmt.life.thermTrips = min (2 ^ 32 - 1) (s.mgmt.life.thermTrips + 1))) ∧
      (die < 4 → die ∉ s.mgmt.throttled →
        Fires (.thermalThrottle die) s { s with mgmt := { s.mgmt with throttled := s.mgmt.throttled ++ [die] } }) ∧
      (die ∈ s.mgmt.throttled → Fires (.thermalThrottleEnd die) s
        { s with mgmt := { s.mgmt with throttled := s.mgmt.throttled.filter (· ≠ die) } }) ∧
      (s.fatal = false → ∃ t, Fires .internalUncorrectableError s t ∧ t.fatal = true ∧ bits (t.pfGet devstat) 26 4 = 3 ∧
        t.running = false ∧ t.stopped = List.range 512 ∧ t.msix = s.msix ++ [(512, 0)] ∧ t.mem = s.mem) ∧
      (∀ i, i = Instr.pfFunctionLevelReset ∨ i = .hotReset → 1 ≤ s.mgmt.stage →
        ∃ t, Fires i s t ∧ t.mgmt.stage = 1 ∧ t.mgmt.record = s.mgmt.record ∧ t.mgmt.keys = s.mgmt.keys ∧ t.groups = [] ∧ t.queues = [] ∧
          t.mem = s.hostCells ∧ (s.mgmt.alarmed = false → t.stopped = [] ∧ t.fatal = false ∧ t.pf = []) ∧ (s.mgmt.alarmed = true → t.fatal = true)) ∧
      (s.recovery = false → s.fatal = false →
        (s.mgmt.stage = 0 →
          ∀ ok, ∃ t, Fires (.startupStageDone ok) s t ∧ t.mgmt.life.boots = min (2 ^ 32 - 1) (s.mgmt.life.boots + 1) ∧
            ((∀ k, k < 5 → (s.mgmt.bootSlot k).isSome = true) → t.mgmt.stage = 1 ∧ t.mgmt.keys = true ∧
              t.mgmt.digests.length = 5 ∧ t.mgmt.attest = Config.derive Config.seed t.mgmt.digests) ∧
            ((∃ k, k < 5 ∧ s.mgmt.bootSlot k = none) → t.recovery = true ∧ bits (t.pfGet devstat) 26 4 = 4 ∧ t.mgmt.stage = 0)) ∧
        (s.mgmt.stage = 1 →
          (∃ t, Fires (.startupStageDone true) s t ∧ t.mgmt.stage = 2 ∧ ∀ l, l < 8 → bits (t.pfGet (dlstatOf (2 * l))) 0 1 = 1) ∧
          ∃ t, Fires (.startupStageDone false) s t ∧ t.fatal = true ∧ bits (t.pfGet devstat) 26 4 = 1) ∧
        (s.mgmt.stage = 2 → Fires (.startupStageDone true) s { s with mgmt := { s.mgmt with stage := 3 } }) ∧
        (s.mgmt.stage = 3 → Fires (.startupStageDone true) s
          { s with mem := s.hostCells, poison := [], symErrs := [], mgmt := { s.mgmt with stage := 4 } }) ∧
        (s.mgmt.stage = 4 → ∃ t, Fires (.startupStageDone true) s t ∧ t.mgmt.stage = 5 ∧ bits (t.pfGet devstat) 31 1 = 1 ∧
          t.mem = s.mem)) ∧
      (s.cytosRuns = true →
        (∃ t, Fires .lifetimeRecordRewrite s t ∧ t.mgmt.life.hours = min (2 ^ 32 - 1) (s.mgmt.life.hours + 1) ∧
          t.mgmt.life.recordNo = min (2 ^ 32 - 1) (s.mgmt.life.recordNo + 1) ∧ t.mgmt.record.length = 128 ∧ t.groups = s.groups) ∧
        (s.mgmt.record.length = 128 → ∃ t, Fires .readLifetimeRecord s t ∧
          (∀ i, i < 128 → t.pfGet (0x1000 + 4 * i) = (s.mgmt.record.getD i 0).toNat) ∧ t.pfGet mbstat = 0 ∧ t.pfGet 0 = 1) ∧
        (∀ i cmd, (i = Instr.writeFirmwareImage ∧ cmd = 2) ∨ (i = .writeConfigurationRecord ∧ cmd = 4) →
          (s.mgmt.alarmed = true → Fires i s ((s.pfSet 0 cmd).pfSet mbstat 4)) ∧
          (s.mgmt.alarmed = false → ∃ t, Fires i s t ∧ t.pfGet 0 = cmd ∧ t.pfGet mbstat ≤ 3 ∧
            (t.pfGet mbstat = 2 ↔ signedOk s.mbdata = false) ∧
            (t.pfGet mbstat = 0 → ∃ k, (k, s.mbdata) ∈ t.mgmt.flash) ∧ (t.pfGet mbstat ≠ 0 → t.mgmt.flash = s.mgmt.flash))) ∧
        (∀ i cmd, (i = Instr.commitSvn ∧ cmd = 3) ∨ (i = .displayLinkQuery ∧ cmd = 5) → s.recovery = true ∨ s.mgmt.alarmed = true →
          Fires i s ((s.pfSet 0 cmd).pfSet mbstat 4)) ∧
        (s.recovery = false → s.mgmt.alarmed = false →
          Fires .commitSvn s (({ s with mgmt := { s.mgmt with
            counters := List.zipWith max s.mgmt.counters s.mgmt.svn } }.pfSet 0 3).pfSet mbstat 0) ∧
          (∃ t, Fires .displayLinkQuery s t ∧ t.pfGet 0 = 5 ∧ t.pfGet mbstat = 0 ∧ t.mgmt = s.mgmt) ∧
          ∀ code, s.mgmt.keys = true → Fires (.spdmRequest code) s { s with mgmt := { s.mgmt with
            spdm := s.mgmt.spdm ++ [(code, s.mgmt.digests, Config.sign s.mgmt.attest
              (Config.sha512 (BitVec.ofNat 32 code :: s.mgmt.digests.flatMap (wordsOf 16))))] } }) ∧
        (∀ code, code = 0 ∨ 5 < code → Fires (.mailboxBadCommand code) s ((s.pfSet 0 code).pfSet mbstat 1)) ∧
        (∀ i, i = Instr.firmwareRemeasurement false ∨ (∃ c, c < 3 ∧ i = .securityAlarm c) → s.mgmt.alarmed = false →
          ∃ t, Fires i s t ∧ t.mgmt.life.alarms = min (2 ^ 32 - 1) (s.mgmt.life.alarms + 1) ∧
            (s.mgmt.alarmPolicy = false → t.mgmt.keys = s.mgmt.keys ∧ t.mgmt.alarmed = false ∧ t.pf = s.pf) ∧
            (s.mgmt.alarmPolicy = true → t.mgmt.keys = false ∧ t.mgmt.alarmed = true ∧ t.fatal = true ∧ t.running = false ∧
              bits (t.pfGet devstat) 26 4 = 2)) ∧
        Fires (.firmwareRemeasurement true) s s))

/-- Events of the host: accesses to memory within a line, through CXL and through BAR2, which enter the order as one event (R63, R64,
R249, R289); writes of allotments, modes and counts, refused with ERR where they break their rule (R120, R303, R439); a
plain write of a register, which changes its writable bits, and in RECOVERY none but the mailbox's (R2, R3, R65, R83); and reads
of WO registers and of the state of a queue (R3, R68).
What the rules leave open here is the model's own (log entry 44). -/
def Obligations.HostEventsFire : Prop :=
  ∀ (s : State) (a vf v : Nat),
    (∀ data, data ≠ [] → a % 128 + data.length ≤ 128 → s.mgmt.powered = true → s.mgmt.stage = 5 → s.locks = [] →
      (∀ c, canonPa .perDie 0 a = c → paExists .perDie 0 a = true → regionOf a = some .near ∨ regionOf a = some .far →
        (∀ w, s.heldOff [lineOf c] w = false) →
        (∀ i, i = Instr.hostCxlMemAccess a true data ∧ s.cxl = true ∨ i = .bar2Access a true data ∧ a < 2 ^ 37 →
          ∃ t, Fires i s t ∧ (∀ x ∈ t.caches, x.line ≠ lineOf c) ∧ t.teams = s.teams ∧
            t.mem = Memory.setBytes (if data.length = 128 then s else s.eccRead [lineOf c]).mem c data) ∧
        (∀ i, i = Instr.hostCxlMemAccess a false data ∧ s.cxl = true ∨ i = .bar2Access a false data ∧ a < 2 ^ 37 →
          ∃ t, Fires i s t ∧ t.mem = (s.eccRead [lineOf c]).mem ∧ (∀ x ∈ t.caches, x.line = lineOf c → x.st = .shared) ∧
            t.teams = s.teams)) ∧
      (s.cxl = true → regionOf a = some .host → s.heldOff [lineOf a] true = false →
        ∃ t, Fires (.hostCxlCacheAccess a true data) s t ∧
          t.mem = Memory.setBytes (if data.length = 128 then s else s.eccRead [lineOf a]).mem a data ∧
          ∀ x ∈ t.caches, x.line = lineOf a → x.holder = 1024 ∧ x.st = .modified) ∧
      (s.cxl = true → regionOf a = some .host → s.heldOff [lineOf a] false = false →
        ∃ t, Fires (.hostCxlCacheAccess a false data) s t ∧ t.mem = (s.eccRead [lineOf a]).mem ∧
          ∀ x ∈ t.caches, x.line = lineOf a → x.st = .shared)) ∧
    (vf < 512 → Rising s.pf → s.recovery = false →
      (s.vfBusy vf = true → ∀ i off, (i = Instr.taskallotWrite vf v ∧ off = tasksOff vf) ∨ (i = .boothallotWrite vf v ∧ off = boothsOff vf) →
        ∃ t, Fires i s t ∧ bits (t.pfGet off) 31 1 = 1 ∧ bits (t.pfGet off) 0 31 = bits (s.pfGet off) 0 31 ∧ t.booths = s.booths) ∧
      (s.vfBusy vf = false →
        (1024 < bits v 16 10 + bits v 0 11 → ∃ t, Fires (.taskallotWrite vf v) s t ∧ bits (t.pfGet (tasksOff vf)) 31 1 = 1 ∧
          t.taskCount vf = s.taskCount vf ∧ t.taskBase vf = s.taskBase vf) ∧
        (bits v 16 10 + bits v 0 11 ≤ 1024 → (∀ o, o < 512 → o ≠ vf → s.taskCount o = 0) →
          ∃ t, Fires (.taskallotWrite vf v) s t ∧ t.taskCount vf = 64 * bits v 0 11 ∧ t.taskBase vf = 64 * bits v 16 10) ∧
        (bits v 16 8 + bits v 0 9 ≤ 256 → (∀ o, o < 512 → o ≠ vf → bits (s.boothallot o) 0 9 = 0) →
          ∃ t, Fires (.boothallotWrite vf v) s t ∧ bits (t.boothallot vf) 0 9 = bits v 0 9 ∧ bits (t.boothallot vf) 16 8 = bits v 16 8 ∧
            ∀ b ∈ t.booths, b.k < 16 * bits v 16 8 ∨ 16 * (bits v 16 8 + bits v 0 9) ≤ b.k) ∧
        (bits v 0 2 ≠ 3 → Fires (.vfmodeWrite vf v) s (s.pfSet (tasksOff vf + 4) (bits v 0 2))) ∧
        ((∀ i, i < bits v 0 16 → s.slotSound vf (s.slotAddr vf i) = true) →
          ∃ t, Fires (.savecntWrite vf v) s t ∧ t.saveCount vf = bits v 0 16) ∧
        ((∃ i, i < bits v 0 16 ∧ s.slotSound vf (s.slotAddr vf i) = false) →
          ∃ t, Fires (.savecntWrite vf v) s t ∧ t.saveCount vf = s.saveCount vf ∧ bits (t.pfGet (saveBlock vf + 8)) 31 1 = 1))) ∧
    (∀ q, vf < 512 → q < 64 → s.readRegister (0x12001C + 0x40 * vf) = 0 ∧ s.readRegister 0x11400C = 0 ∧
      bits (s.readRegister (2 ^ 32 + 2 ^ 20 * vf + 0x40 * q + 0x1C)) 29 3 = s.queueState vf q) ∧
    (∀ off, Rising s.pf → s.mgmt.powered = true → v < 2 ^ 32 → off % 4 = 0 →
      (0x1000 ≤ off → off < 0x2000 → ∃ t, Fires (.registerWrite off v) s t ∧ t.pfGet off = v ∧ ∀ o, o ≠ off → t.pfGet o = s.pfGet o) ∧
      (s.recovery = true → off < 0x1000 ∨ 0x2000 ≤ off → Fires (.registerWrite off v) s s) ∧
      (s.recovery = false → off = 0x112000 → ∃ t, Fires (.registerWrite off v) s t ∧
        bits (t.pfGet off) 0 24 = bits v 0 24 ∧ bits (t.pfGet off) 24 8 = bits (s.pfGet off) 24 8))

/-- Events of display port `p`: DPCTL is written, and an enabled port that cannot carry its timing is refused (R35, R37); link and
genlock states are shown in DPSTAT (R37, R55); line 0 counts a frame and shows what was built (R37, R41); at the latch line a port
outside a swap group takes its pending record, or repeats (R41); band windows open in order and close at their deadline with the
step shown and its map byte (R43, R44, R54).
What the rules leave open here is the model's own (log entries 17, 39, 40 and 52). -/
def Obligations.PortEventsFire : Prop :=
  ∀ (s : State) (p : Nat) (x : Port), p < 4 → s.port? p = some x → Rising s.pf →
    (∀ v, v < 2 ^ 32 → s.recovery = false →
      (bits (s.pfGet (dpctl p)) 31 1 = 1 → bits v 31 1 = 1 →
        Fires (.dpctlWrite p v) s (s.pfSet (dpctl p) (putBits (s.pfGet (dpctl p)) 0 13 v))) ∧
      (bits (s.pfGet (dpctl p)) 31 1 = 1 → bits v 31 1 = 0 →
        ∃ t, Fires (.dpctlWrite p v) s t ∧ bits (t.pfGet (dpctl p)) 31 1 = 0 ∧ bits (t.pfGet (dpctl p)) 0 13 = bits v 0 13 ∧
          bits (t.pfGet (dpstat p)) 0 2 = 0 ∧ t.port? p = some (Port.reset p)) ∧
      (bits (s.pfGet (dpctl p)) 31 1 = 0 → bits v 31 1 = 0 → Fires (.dpctlWrite p v) s (s.pfSet (dpctl p) (putBits v 13 7 0))) ∧
      (bits (s.pfGet (dpctl p)) 31 1 = 0 → bits v 31 1 = 1 → s.cannotCarry p v = true →
        ∃ t, Fires (.dpctlWrite p v) s t ∧ bits (t.pfGet (dpctl p)) 31 1 = 0 ∧ bits (t.pfGet (dpstat p)) 16 4 = 5 ∧ t.ports = s.ports) ∧
      (bits (s.pfGet (dpctl p)) 31 1 = 0 → bits v 31 1 = 1 → s.cannotCarry p v = false →
        ∃ t, Fires (.dpctlWrite p v) s t ∧ t.pfGet (dpctl p) = putBits v 13 7 0 ∧ t.pfGet (dpvcnt p) = 0 ∧
          t.port? p = some { Port.reset p with
            cutoff := bits v 0 13, line0At := s.cycle, frameLen := s.nominalFrame p })) ∧
    Fires (.dpLinkLost p) s (s.setDpstat p 0 1 0) ∧ Fires (.genlockLost p) s (s.setDpstat p 1 1 0) ∧
    (s.portOn p = true →
      Fires (.dpLinkTrained p) s (s.setDpstat p 0 1 1) ∧
      (∀ tri edge len, bits (s.pfGet (dpctl p)) 30 1 = 1 → bits (s.pfGet glctl) 31 1 = 1 → s.referenceOk p tri len = true →
        Fires (.genlockLocked { port := p, tri := tri, edge := edge, len := len }) s
          ((s.setDpstat p 1 1 1).setPort { x with edge := some (edge, len) })) ∧
      (s.sgOn = false → x.writes = [] →
        (∀ at_, x.latched = true → at_ = max s.cycle (x.line0At + x.frameLen) →
          ∃ t, Fires (.line0Start p) s t ∧ t.pfGet (dpvcnt p) = (s.pfGet (dpvcnt p) + 1) % 2 ^ 32 ∧ t.cycle = at_ ∧
            (s.vtotal p ≤ s.nextFrame x at_ → t.scanLine p = 0) ∧
            t.port? p = some { x with
              shown := x.building, cutoff := bits (s.pfGet (dpctl p)) 0 13, line0At := at_, frameLen := s.nextFrame x at_
              latched := false }) ∧
        (∀ u, x.latched = false → u = { s with cycle := max s.cycle (s.lineAt x ((s.vtotal p : Int) - 64)) } →
          (∀ f r v, x.pending = some f → u.readPose f f.rposeVa = .inr (r, v) →
            Fires (.latchLine p) s (v.setPort { x with
              pending := none, building := some f, repeats := false, previous := x.shown, rpose := r, pose := none, bands := []
              map := [], latched := true, finishing := x.rest })) ∧
          (x.pending = none → x.shown = none → Fires (.latchLine p) s (u.setPort { x with
              pending := none, building := none, repeats := true, previous := none, rpose := none, pose := none, bands := []
              map := [], latched := true, finishing := x.rest })) ∧
          (∀ f r v, x.pending = none → x.shown = some f → u.readPose f f.rposeVa = .inr (r, v) →
            Fires (.latchLine p) s (v.setPort { x with
              building := some f, repeats := true, previous := x.previous, rpose := r, pose := none, bands := [], map := []
              latched := true, finishing := x.rest })))) ∧
      (∀ f band r u v w f3, x.writes = [] → x.building = some f → band = x.map.length + x.bands.length → band < s.bandCount p →
        x.bands.length < 2 → u = s.by_ (s.buildLine x (16 * ((band : Int) - 4))) → u.readPose f f.poseVa = .inr (r, v) →
        v.fetchF3 (v.bandCtx p (x.current f)) band = (f3, w) →
        Fires (.bandWindowOpen p band) s (w.setPort
          { x with
            pose := r.orElse (fun _ => x.pose)
            bands := x.bands ++ [({ band := band, pose := if x.rpose.isSome then r.orElse (fun _ => x.pose) else none
                                    hold := f3 } : Band)] })) ∧
      (∀ c w rest u, c.bands = w :: rest →
        (x.finishing = some c ∧ u = s.by_ (s.lineAt x ((if x.latched then (0 : Int) else -(s.vtotal p : Int)) + 16 * ((w.band : Int) - 2))) ∨
         x.finishing = none ∧ (∃ f, x.building = some f ∧ c = x.current f) ∧ u = s.by_ (s.buildLine x (16 * ((w.band : Int) - 2)))) →
        ∃ t y step map, Fires (.bandDeadline p w.band) s t ∧ t.port? p = some y ∧
          step ∈ stepsOf (u.bandCtx p c) ((u.surfacesOf (u.bandCtx p c)).all u.surfaceFree) ∧
          map = c.map ++ [BitVec.ofNat 8 (step +
            (if c.frame.reproj = true ∧ c.rpose.isSome = true ∧ w.pose.isSome = true then 0 else 4) +
            (if c.frame.net = true ∧ step ≠ 0 then 8 else 0))] ∧
          (x.finishing.isSome = true → y.finishing = (if rest = [] then none else some { c with bands := rest, map := map }) ∧
            y.bands = x.bands ∧ y.map = x.map) ∧
          (x.finishing = none → y.bands = rest ∧ y.map = map ∧ y.finishing = none) ∧
          y.shown = x.shown ∧ y.building = x.building ∧ t.cycle = u.cycle ∧ t.groups.length = s.groups.length))

/-- Events of presents and of swap groups: a frame record is read and validated, a rejection recorded in PRSTAT (R39, R492); the
ringmaster records arrivals and decides at the cut-off line (R58); a member takes the decision (R59); time requests are answered,
and an answer gives the correction (R60).
What the rules leave open here is the model's own (log entries 39 and 41). -/
def Obligations.SwapEventsFire : Prop :=
  ∀ (s : State) (h : BitVec 512),
    (∀ q rest, s.presents = q :: rest → s.running = true →
      (q.va % 64 ≠ 0 → Fires .frameRecordRead s (({ s with presents := rest }.notePresent q.vf 4 none).presentDone q)) ∧
      (∀ r ls p, q.va % 64 = 0 → s.hubRead q.vf q.dev q.va 64 = .ok r ls → p = bits r 32 2 →
        (bits (s.pfGet (portown p)) 31 1 = 0 ∨ bits (s.pfGet (portown p)) 0 9 ≠ q.vf →
          Fires .frameRecordRead s ((({ s with presents := rest }.readBy ls).notePresent q.vf 4 (some p)).presentDone q)) ∧
        (∀ x, bits (s.pfGet (portown p)) 31 1 = 1 → bits (s.pfGet (portown p)) 0 9 = q.vf → bits r 34 1 = 0 → s.sgOn = false →
          bits r 40 4 < 2 → scaleOk (s.hactive p) (s.vactive p) (bits r 44 14 + 1) (bits r 58 14 + 1) = true → s.portOn p = true →
          s.port? p = some x →
          ∃ t, Fires .frameRecordRead s t ∧ t.presents = rest ∧ t.mem = (s.eccRead ls).mem ∧ t.port? p = some { x with
            pending := some { vf := q.vf, dev := q.dev, rec_ := BitVec.ofNat 512 r, net := false, swap := BitVec.ofNat 32 s.swapNo } }))) ∧
    (s.running = true → s.sgOn = true → bits h.toNat 36 6 = s.device → bits h.toNat 128 8 = bits (s.pfGet sgctl) 12 8 →
      (bits h.toNat 23 4 = 3 → s.ringmaster = true → bits h.toNat 42 6 ∈ s.members → bits h.toNat 136 32 = s.gathering →
        (bits h.toNat 42 6 ∉ s.swap.arrived → Fires (.arrive h) s
          { s with swap := { s.swap with arrived := s.swap.arrived ++ [bits h.toNat 42 6] } }) ∧
        (bits h.toNat 42 6 ∈ s.swap.arrived → Fires (.arrive h) s s)) ∧
      (s.ringmaster = false → bits h.toNat 42 6 = s.master → bits h.toNat 136 32 = s.swapNo →
        (bits h.toNat 23 4 = 4 → s.pastLatch = false → Fires (.release h) s { s with swap := { s.swap with decision := some true } }) ∧
        (bits h.toNat 23 4 = 4 → s.pastLatch = true → ∃ t, Fires (.release h) s t ∧ t.swap = { s.swap with decision := some true } ∧
          (Rising s.pf → ∀ p ∈ s.swapPorts, bits (t.pfGet (dpstat p)) 2 1 = 1)) ∧
        (bits h.toNat 23 4 = 5 → Fires (.repeatDecision h) s
          { s with swap := { s.swap with decision := some (s.swap.decision.getD false) } })) ∧
      (bits h.toNat 23 4 = 6 → bits h.toNat 200 1 = 0 → s.ringmaster = true → bits h.toNat 42 6 ∈ s.members →
        ∃ t m, Fires (.time h) s t ∧ t.fabWaiting = s.fabWaiting ++ [m] ∧ m.dst = bits h.toNat 42 6 ∧ m.kind = 6 ∧
          bits m.header.toNat 200 1 = 1 ∧ bits m.header.toNat 256 64 = bits h.toNat 256 64 ∧ bits m.header.toNat 320 64 = s.ns % 2 ^ 64 ∧
          bits m.header.toNat 384 64 = s.ns % 2 ^ 64 ∧
          ∀ p x, s.swapPorts.head? = some p → s.port? p = some x → bits m.header.toNat 448 64 = x.line0At * 5 / 9 % 2 ^ 64) ∧
      (bits h.toNat 23 4 = 6 → bits h.toNat 200 1 = 1 → s.ringmaster = false → bits h.toNat 42 6 = s.master →
        Fires (.time h) s { s with swap := { s.swap with
          skew := (((bits h.toNat 320 64 : Int) - bits h.toNat 256 64) + ((bits h.toNat 384 64 : Int) - s.ns)) / 2, tf := some (bits h.toNat 448 64) } })) ∧
    (∀ p x, s.swapPorts.head? = some p → s.port? p = some x → s.sgOn = true → s.ringmaster = true → s.portOn p = true →
      x.latched = false → s.swap.decision = none →
      ∃ t all, Fires .cutoffLine s t ∧ t.cycle = max s.cycle (s.lineAt x (s.cutoffOf x)) ∧ all = (s.swapReady && (s.members.filter (· ≠ s.device)).all s.swap.arrived.contains) ∧
        t.swap.decision = some all ∧ (all = true → t.swap.arrived = []) ∧ (all = false → t.swap.arrived = s.swap.arrived) ∧
        ∃ ms, t.fabWaiting = s.fabWaiting ++ ms ∧ ms.map (·.dst) = s.members.filter (· ≠ s.device) ∧
          ∀ m ∈ ms, m.kind = if all then 4 else 5)

/-! ### The machine as a whole -/

/-- A step is an event that waits, an event that the interleaving names, or the instruction of the slot that issues: the word at its
PC is fetched, decoded and executed, its pass charged to its carousel's bucket and its line kept in the instruction cache (R100,
R221, R247, R258, R341); a word that is no instruction is ILLEGAL_OPCODE (R340); the walker's reads come first, and an instruction
whose group they have rolled back, or that a window holds off, does not issue (R266, R273). Which event or group comes next is
the model's own (log entry 2). -/
def Obligations.StepRunsDecodedInstruction : Prop :=
  ∀ (s t u v : State) (g : Group) (h : Hit) (i : Instr),
    (∀ rest, s.agenda = i :: rest → step s = exec i { s with agenda := rest }) ∧
    (s.agenda = [] → s.plan = .event i t → step s = exec i t) ∧
    (∀ k rest, s.turns = (2 * k) :: rest → pickFrom ({ s with turns := rest } : State).picks k = some g →
      s.plan = .issue (({ s with turns := rest } : State).takeTurn g)) ∧
    (s.agenda = [] → s.plan = .issue t → t.fetchReads = [] → t.group? t.cur = some g → t.fetchPlace g = .hit h →
      (decode (BitVec.ofNat 32 (t.readNat h.addr 4)) = .ok i →
        (exec i t = .next u → step s = .next (t.afterFetch (t.chargeIssue u))) ∧ (∀ r, exec i t = .fault r → step s = .fault r) ∧
        ∀ r, exec i t = .refused r → step s = .refused r) ∧
      (∀ e, decode (BitVec.ofNat 32 (t.readNat h.addr 4)) = .error e →
        exec (.illegalOpcode (BitVec.ofNat 32 (t.readNat h.addr 4))) t = .next u → step s = .next (t.afterFetch (t.chargeIssue u)))) ∧
    (s.agenda = [] → s.plan = .issue t →
      (t.beforeFetch = (v, false) → step s = .next v) ∧
      (t.beforeFetch = (v, true) → exec v.fetched v = .next u → step s = .next (v.afterFetch (v.chargeIssue u)))) ∧
    (s.agenda = [] → s.plan = .idle t → step s = .next t)

/-- Words written out from the encodings of the spec decode to their instructions (R337, R356, R372, R383, R404, R420, R459, R468,
R488), and words that no row gives a meaning do not (R340, R344). -/
def Obligations.WordsDecode : Prop :=
  decode 0x01000000#32 = .ok .nop ∧
  decode 0x04FFFFFF#32 = .ok (.bra 0xFFFFFF#24) ∧
  decode 0x20060A1E#32 = .ok (.add 3 2 67 true true) ∧
  decode 0x01000001#32 = .error .reservedField ∧
  decode 0x00000000#32 = .error .unassignedOpcode

/-- Every well-formed instruction of the table is encoded, and decoding its word gives it back with every operand; and a word that
decodes is the word of its instruction (R337–R340). -/
def Obligations.DecodeOfEncode : Prop :=
  (∀ (i : Instr) (w : Word), i.wellFormed = true → encode i = some w → decode w = .ok i) ∧
  (∀ (i : Instr) (w : Word), decode w = .ok i → i.wellFormed = true ∧ encode i = some w)

/-- The assembler. A line that `osas` accepts emits one word, which decodes to the very instruction that its form reads from the
line, every register operand allocated under `.regs` and no pair or quad misaligned or across classes (R349, R352). `movi` emits
`movl` with the low half of its value and, exactly when the high half is not zero, `movh` with the high half (R351). The
descriptor that it fills holds, in the fields of R116, what the directives of R353 gave, ENTRY and HANDLER from their addresses,
no pipeline, and zero in every reserved field (R354). -/
def Obligations.AssemblerOutput : Prop :=
  (∀ (k : AsmRegs) (m : String) (x : AsmText) (ws : List Word), m ≠ "movi" → asmInstruction k m x = .ok ws →
    ∃ f i rs w, asmRows.lookup m = some f ∧ f x = .ok (i, rs) ∧ rs.all k.accepts = true ∧ ws = [w] ∧ decode w = .ok i) ∧
  (∀ (k : AsmRegs) (x : AsmText) (d e : List Char) (n : RegName) (v : Word), x.sfx = [] → x.ops = [d, e] → asmReg d = .ok n →
    k.accepts (asmOne n) = true → x.imm 32 (-2147483648) 4294967295 e = .ok v →
    ∃ ws, asmInstruction k "movi" x = .ok ws ∧
      ws.map decode = .ok (.movl n (v.extractLsb' 0 16)) ::
        (if v.extractLsb' 16 16 = 0 then [] else [.ok (.movh n (v.extractLsb' 16 16) false)])) ∧
  (∀ (k : AsmKernel) (e h : Nat), k.width ≤ 2 → k.team < 32 → k.regs.general ≤ 120 → k.regs.affine ≤ 120 → k.regs.uniform ≤ 120 →
      k.scratch ≤ 4096 → k.stack < 64 → k.divstack < 64 → k.copyq ≤ 32 → k.acc ≤ 64 → k.argn ≤ 16 →
      e % 4 = 0 → e < 2 ^ 49 → h % 4 = 0 → h < 2 ^ 49 →
      kernelFields (k.bits e h) =
        { width := 16 * 2 ^ k.width, pair := k.pair, groups := k.team + 1, nG := k.regs.general, nA := k.regs.affine,
          nU := k.regs.uniform, scratch := k.scratch, stack := k.stack, divstack := k.divstack, copyq := k.copyq, acc := k.acc,
          argn := k.argn, mode0 := k.mode0, entry := BitVec.ofNat 64 e, handler := BitVec.ofNat 64 h, pqtab := 0, pqn := 0,
          invalid := false } ∧
      ∀ r, r ∈ kernelReserved → Sys2Proof.bits (k.bits e h) r.1 r.2 = 0)

/-- Every step keeps the byte spaces in their canonical form: memory, the scratchpads and the grids of the bucket stores. -/
def Obligations.StepKeepsSpaces : Prop :=
  ∀ s t : State, s.spacesOk → step s = .next t → t.spacesOk

/-- The state after reset: no stage of start-up is complete, so nothing runs (R31); no group, team, queue or frame exists; registers
read the reset values that R22, R109, R114 and R141 give, and 0 where they give 0; every task slot is IDLE with counts of 0
(R121), and every byte space is in canonical form. What memory reads as is the model's choice (log entry 4). -/
def Obligations.ResetState : Prop :=
  State.reset.running = false ∧ State.reset.mgmt.stage = 0 ∧ State.reset.groups = [] ∧ State.reset.teams = [] ∧
  State.reset.queues = [] ∧ State.reset.frames = [] ∧ State.reset.msix = [] ∧
  (∀ d, d < 4 → State.reset.pfGet (dieSpace d) = 0x1F ∧ State.reset.pfGet (dieSpace d + 8) = 0x1F ∧
    State.reset.pfGet (dieSpace d + 0x10) = 0x1F ∧ State.reset.pfGet (dieSpace d + 0x100) = 0x40002412 ∧
    State.reset.pfGet (dieSpace d + 0x200) = 600) ∧
  State.reset.pfGet 0x112000 = 0x00100040 ∧ State.reset.pfGet devstat = 0 ∧
  (∀ vf q off, State.reset.qGet vf q off = 0) ∧ (∀ vf q, State.reset.queueState vf q = 0) ∧
  (∀ k, State.reset.taskSlot k = { k := k, c := 0, e := 0, held := none }) ∧
  (∀ a, Memory.get State.reset.mem a = 0) ∧ State.reset.spacesOk
end

