-- ==== Sys2Proof/Laws/Encoding.lean ====
section
/-!
SUPPORT. The fields of a word that an encoding format builds (13 R337): each field reads back what was put there.
-/

namespace Sys2Proof

/-- A bit below the low part of an append. -/
theorem lsb_low {v w i : Nat} (x : BitVec v) (y : BitVec w) (h : i < w) : (x ++ y).getLsbD i = y.getLsbD i := by
  simp [BitVec.getLsbD_append, h]

/-- A bit above the low part of an append. -/
theorem lsb_high {v w i : Nat} (x : BitVec v) (y : BitVec w) (h : w ≤ i) : (x ++ y).getLsbD i = x.getLsbD (i - w) := by
  simp [BitVec.getLsbD_append, Nat.not_lt.mpr h]

theorem getLsbD_bit (b : Bool) : (bit b).getLsbD 0 = b := by cases b <;> rfl

@[simp] theorem fop_fmtA (op : BitVec 8) (d : RegName) (a : RegName) (b : RegName) (ta : Bool) (tb : Bool) (k : Bool) :
    fop (fmtA op d a b ta tb k) = op :=
  (BitVec.extractLsb'_append_eq_of_le (by decide)).trans ((BitVec.extractLsb'_append_eq_of_le (by decide)).trans ((BitVec.extractLsb'_append_eq_of_le (by decide)).trans ((BitVec.extractLsb'_append_eq_of_le (by decide)).trans ((BitVec.extractLsb'_append_eq_of_le (by decide)).trans ((BitVec.extractLsb'_append_eq_of_le (by decide)).trans (BitVec.extractLsb'_eq_self))))))

@[simp] theorem fd_fmtA (op : BitVec 8) (d : RegName) (a : RegName) (b : RegName) (ta : Bool) (tb : Bool) (k : Bool) :
    fd (fmtA op d a b ta tb k) = d :=
  (BitVec.extractLsb'_append_eq_of_le (by decide)).trans ((BitVec.extractLsb'_append_eq_of_le (by decide)).trans ((BitVec.extractLsb'_append_eq_of_le (by decide)).trans ((BitVec.extractLsb'_append_eq_of_le (by decide)).trans ((BitVec.extractLsb'_append_eq_of_le (by decide)).trans ((BitVec.extractLsb'_append_eq_of_add_le (by decide)).trans (BitVec.extractLsb'_eq_self))))))

@[simp] theorem fa_fmtA (op : BitVec 8) (d : RegName) (a : RegName) (b : RegName) (ta : Bool) (tb : Bool) (k : Bool) :
    fa (fmtA op d a b ta tb k) = a :=
  (BitVec.extractLsb'_append_eq_of_le (by decide)).trans ((BitVec.extractLsb'_append_eq_of_le (by decide)).trans ((BitVec.extractLsb'_append_eq_of_le (by decide)).trans ((BitVec.extractLsb'_append_eq_of_le (by decide)).trans ((BitVec.extractLsb'_append_eq_of_add_le (by decide)).trans (BitVec.extractLsb'_eq_self)))))

@[simp] theorem fb_fmtA (op : BitVec 8) (d : RegName) (a : RegName) (b : RegName) (ta : Bool) (tb : Bool) (k : Bool) :
    fb (fmtA op d a b ta tb k) = b :=
  (BitVec.extractLsb'_append_eq_of_le (by decide)).trans ((BitVec.extractLsb'_append_eq_of_le (by decide)).trans ((BitVec.extractLsb'_append_eq_of_le (by decide)).trans ((BitVec.extractLsb'_append_eq_of_add_le (by decide)).trans (BitVec.extractLsb'_eq_self))))

@[simp] theorem fta_fmtA (op : BitVec 8) (d : RegName) (a : RegName) (b : RegName) (ta : Bool) (tb : Bool) (k : Bool) :
    fta (fmtA op d a b ta tb k) = ta :=
  (lsb_high _ _ (by decide)).trans ((lsb_high _ _ (by decide)).trans ((lsb_low _ _ (by decide)).trans (getLsbD_bit _)))

@[simp] theorem ftb_fmtA (op : BitVec 8) (d : RegName) (a : RegName) (b : RegName) (ta : Bool) (tb : Bool) (k : Bool) :
    ftb (fmtA op d a b ta tb k) = tb :=
  (lsb_high _ _ (by decide)).trans ((lsb_low _ _ (by decide)).trans (getLsbD_bit _))

@[simp] theorem fk_fmtA (op : BitVec 8) (d : RegName) (a : RegName) (b : RegName) (ta : Bool) (tb : Bool) (k : Bool) :
    fk (fmtA op d a b ta tb k) = k :=
  (lsb_low _ _ (by decide)).trans (getLsbD_bit _)

@[simp] theorem fop_fmtB (op : BitVec 8) (d : RegName) (a : RegName) (imm : BitVec 8) (ta : Bool) (k : Bool) :
    fop (fmtB op d a imm ta k) = op :=
  (BitVec.extractLsb'_append_eq_of_le (by decide)).trans ((BitVec.extractLsb'_append_eq_of_le (by decide)).trans ((BitVec.extractLsb'_append_eq_of_le (by decide)).trans ((BitVec.extractLsb'_append_eq_of_le (by decide)).trans ((BitVec.extractLsb'_append_eq_of_le (by decide)).trans (BitVec.extractLsb'_eq_self)))))

@[simp] theorem fd_fmtB (op : BitVec 8) (d : RegName) (a : RegName) (imm : BitVec 8) (ta : Bool) (k : Bool) :
    fd (fmtB op d a imm ta k) = d :=
  (BitVec.extractLsb'_append_eq_of_le (by decide)).trans ((BitVec.extractLsb'_append_eq_of_le (by decide)).trans ((BitVec.extractLsb'_append_eq_of_le (by decide)).trans ((BitVec.extractLsb'_append_eq_of_le (by decide)).trans ((BitVec.extractLsb'_append_eq_of_add_le (by decide)).trans (BitVec.extractLsb'_eq_self)))))

@[simp] theorem fa_fmtB (op : BitVec 8) (d : RegName) (a : RegName) (imm : BitVec 8) (ta : Bool) (k : Bool) :
    fa (fmtB op d a imm ta k) = a :=
  (BitVec.extractLsb'_append_eq_of_le (by decide)).trans ((BitVec.extractLsb'_append_eq_of_le (by decide)).trans ((BitVec.extractLsb'_append_eq_of_le (by decide)).trans ((BitVec.extractLsb'_append_eq_of_add_le (by decide)).trans (BitVec.extractLsb'_eq_self))))

@[simp] theorem fimm8_fmtB (op : BitVec 8) (d : RegName) (a : RegName) (imm : BitVec 8) (ta : Bool) (k : Bool) :
    fimm8 (fmtB op d a imm ta k) = imm :=
  (BitVec.extractLsb'_append_eq_of_le (by decide)).trans ((BitVec.extractLsb'_append_eq_of_le (by decide)).trans ((BitVec.extractLsb'_append_eq_of_add_le (by decide)).trans (BitVec.extractLsb'_eq_self)))

@[simp] theorem lsb_1_fmtB (op : BitVec 8) (d : RegName) (a : RegName) (imm : BitVec 8) (ta : Bool) (k : Bool) :
    (fmtB op d a imm ta k).getLsbD 1 = ta :=
  (lsb_high _ _ (by decide)).trans ((lsb_low _ _ (by decide)).trans (getLsbD_bit _))

@[simp] theorem fk_fmtB (op : BitVec 8) (d : RegName) (a : RegName) (imm : BitVec 8) (ta : Bool) (k : Bool) :
    fk (fmtB op d a imm ta k) = k :=
  (lsb_low _ _ (by decide)).trans (getLsbD_bit _)

@[simp] theorem ext_8_2_fmtB (op : BitVec 8) (d : RegName) (a : RegName) (imm : BitVec 8) (ta : Bool) (k : Bool) :
    (fmtB op d a imm ta k).extractLsb' 8 2 = imm.extractLsb' 6 2 :=
  (BitVec.extractLsb'_append_eq_of_le (by decide)).trans ((BitVec.extractLsb'_append_eq_of_le (by decide)).trans (BitVec.extractLsb'_append_eq_of_add_le (by decide)))

@[simp] theorem ext_2_6_fmtB (op : BitVec 8) (d : RegName) (a : RegName) (imm : BitVec 8) (ta : Bool) (k : Bool) :
    (fmtB op d a imm ta k).extractLsb' 2 6 = imm.extractLsb' 0 6 :=
  (BitVec.extractLsb'_append_eq_of_le (by decide)).trans ((BitVec.extractLsb'_append_eq_of_le (by decide)).trans (BitVec.extractLsb'_append_eq_of_add_le (by decide)))

@[simp] theorem ext_3_7_fmtB (op : BitVec 8) (d : RegName) (a : RegName) (imm : BitVec 8) (ta : Bool) (k : Bool) :
    (fmtB op d a imm ta k).extractLsb' 3 7 = imm.extractLsb' 1 7 :=
  (BitVec.extractLsb'_append_eq_of_le (by decide)).trans ((BitVec.extractLsb'_append_eq_of_le (by decide)).trans (BitVec.extractLsb'_append_eq_of_add_le (by decide)))

@[simp] theorem lsb_2_fmtB (op : BitVec 8) (d : RegName) (a : RegName) (imm : BitVec 8) (ta : Bool) (k : Bool) :
    (fmtB op d a imm ta k).getLsbD 2 = imm.getLsbD 0 :=
  (lsb_high _ _ (by decide)).trans ((lsb_high _ _ (by decide)).trans (lsb_low _ _ (by decide)))

@[simp] theorem fop_fmtC (op : BitVec 8) (d : RegName) (imm : BitVec 16) (k : Bool) :
    fop (fmtC op d imm k) = op :=
  (BitVec.extractLsb'_append_eq_of_le (by decide)).trans ((BitVec.extractLsb'_append_eq_of_le (by decide)).trans ((BitVec.extractLsb'_append_eq_of_le (by decide)).trans (BitVec.extractLsb'_eq_self)))

@[simp] theorem fd_fmtC (op : BitVec 8) (d : RegName) (imm : BitVec 16) (k : Bool) :
    fd (fmtC op d imm k) = d :=
  (BitVec.extractLsb'_append_eq_of_le (by decide)).trans ((BitVec.extractLsb'_append_eq_of_le (by decide)).trans ((BitVec.extractLsb'_append_eq_of_add_le (by decide)).trans (BitVec.extractLsb'_eq_self)))

@[simp] theorem fimm16_fmtC (op : BitVec 8) (d : RegName) (imm : BitVec 16) (k : Bool) :
    fimm16 (fmtC op d imm k) = imm :=
  (BitVec.extractLsb'_append_eq_of_le (by decide)).trans ((BitVec.extractLsb'_append_eq_of_add_le (by decide)).trans (BitVec.extractLsb'_eq_self))

@[simp] theorem fk_fmtC (op : BitVec 8) (d : RegName) (imm : BitVec 16) (k : Bool) :
    fk (fmtC op d imm k) = k :=
  (lsb_low _ _ (by decide)).trans (getLsbD_bit _)

@[simp] theorem ext_7_10_fmtC (op : BitVec 8) (d : RegName) (imm : BitVec 16) (k : Bool) :
    (fmtC op d imm k).extractLsb' 7 10 = imm.extractLsb' 6 10 :=
  (BitVec.extractLsb'_append_eq_of_le (by decide)).trans (BitVec.extractLsb'_append_eq_of_add_le (by decide))

@[simp] theorem ext_1_6_fmtC (op : BitVec 8) (d : RegName) (imm : BitVec 16) (k : Bool) :
    (fmtC op d imm k).extractLsb' 1 6 = imm.extractLsb' 0 6 :=
  (BitVec.extractLsb'_append_eq_of_le (by decide)).trans (BitVec.extractLsb'_append_eq_of_add_le (by decide))

@[simp] theorem ext_4_13_fmtC (op : BitVec 8) (d : RegName) (imm : BitVec 16) (k : Bool) :
    (fmtC op d imm k).extractLsb' 4 13 = imm.extractLsb' 3 13 :=
  (BitVec.extractLsb'_append_eq_of_le (by decide)).trans (BitVec.extractLsb'_append_eq_of_add_le (by decide))

@[simp] theorem ext_1_3_fmtC (op : BitVec 8) (d : RegName) (imm : BitVec 16) (k : Bool) :
    (fmtC op d imm k).extractLsb' 1 3 = imm.extractLsb' 0 3 :=
  (BitVec.extractLsb'_append_eq_of_le (by decide)).trans (BitVec.extractLsb'_append_eq_of_add_le (by decide))

@[simp] theorem ext_15_2_fmtC (op : BitVec 8) (d : RegName) (imm : BitVec 16) (k : Bool) :
    (fmtC op d imm k).extractLsb' 15 2 = imm.extractLsb' 14 2 :=
  (BitVec.extractLsb'_append_eq_of_le (by decide)).trans (BitVec.extractLsb'_append_eq_of_add_le (by decide))

@[simp] theorem ext_1_14_fmtC (op : BitVec 8) (d : RegName) (imm : BitVec 16) (k : Bool) :
    (fmtC op d imm k).extractLsb' 1 14 = imm.extractLsb' 0 14 :=
  (BitVec.extractLsb'_append_eq_of_le (by decide)).trans (BitVec.extractLsb'_append_eq_of_add_le (by decide))

@[simp] theorem ext_2_15_fmtC (op : BitVec 8) (d : RegName) (imm : BitVec 16) (k : Bool) :
    (fmtC op d imm k).extractLsb' 2 15 = imm.extractLsb' 1 15 :=
  (BitVec.extractLsb'_append_eq_of_le (by decide)).trans (BitVec.extractLsb'_append_eq_of_add_le (by decide))

@[simp] theorem lsb_1_fmtC (op : BitVec 8) (d : RegName) (imm : BitVec 16) (k : Bool) :
    (fmtC op d imm k).getLsbD 1 = imm.getLsbD 0 :=
  (lsb_high _ _ (by decide)).trans (lsb_low _ _ (by decide))

@[simp] theorem fop_fmtD (op : BitVec 8) (u : Bool) (n : Bool) (p : BitVec 3) (off : BitVec 19) :
    fop (fmtD op u n p off) = op :=
  (BitVec.extractLsb'_append_eq_of_le (by decide)).trans ((BitVec.extractLsb'_append_eq_of_le (by decide)).trans ((BitVec.extractLsb'_append_eq_of_le (by decide)).trans ((BitVec.extractLsb'_append_eq_of_le (by decide)).trans (BitVec.extractLsb'_eq_self))))

@[simp] theorem lsb_23_fmtD (op : BitVec 8) (u : Bool) (n : Bool) (p : BitVec 3) (off : BitVec 19) :
    (fmtD op u n p off).getLsbD 23 = u :=
  (lsb_high _ _ (by decide)).trans ((lsb_high _ _ (by decide)).trans ((lsb_high _ _ (by decide)).trans ((lsb_low _ _ (by decide)).trans (getLsbD_bit _))))

@[simp] theorem lsb_22_fmtD (op : BitVec 8) (u : Bool) (n : Bool) (p : BitVec 3) (off : BitVec 19) :
    (fmtD op u n p off).getLsbD 22 = n :=
  (lsb_high _ _ (by decide)).trans ((lsb_high _ _ (by decide)).trans ((lsb_low _ _ (by decide)).trans (getLsbD_bit _)))

@[simp] theorem ext_19_3_fmtD (op : BitVec 8) (u : Bool) (n : Bool) (p : BitVec 3) (off : BitVec 19) :
    (fmtD op u n p off).extractLsb' 19 3 = p :=
  (BitVec.extractLsb'_append_eq_of_le (by decide)).trans ((BitVec.extractLsb'_append_eq_of_add_le (by decide)).trans (BitVec.extractLsb'_eq_self))

@[simp] theorem ext_0_19_fmtD (op : BitVec 8) (u : Bool) (n : Bool) (p : BitVec 3) (off : BitVec 19) :
    (fmtD op u n p off).extractLsb' 0 19 = off :=
  (BitVec.extractLsb'_append_eq_of_add_le (by decide)).trans (BitVec.extractLsb'_eq_self)

@[simp] theorem fop_fmtJ (op : BitVec 8) (off : BitVec 24) :
    fop (fmtJ op off) = op :=
  (BitVec.extractLsb'_append_eq_of_le (by decide)).trans (BitVec.extractLsb'_eq_self)

@[simp] theorem foff24_fmtJ (op : BitVec 8) (off : BitVec 24) :
    foff24 (fmtJ op off) = off :=
  (BitVec.extractLsb'_append_eq_of_add_le (by decide)).trans (BitVec.extractLsb'_eq_self)

@[simp] theorem fop_fmtE (op : BitVec 8) (d : RegName) (a : RegName) (sub : BitVec 6) (ta : Bool) (x : BitVec 3) :
    fop (fmtE op d a sub ta x) = op :=
  (BitVec.extractLsb'_append_eq_of_le (by decide)).trans ((BitVec.extractLsb'_append_eq_of_le (by decide)).trans ((BitVec.extractLsb'_append_eq_of_le (by decide)).trans ((BitVec.extractLsb'_append_eq_of_le (by decide)).trans ((BitVec.extractLsb'_append_eq_of_le (by decide)).trans (BitVec.extractLsb'_eq_self)))))

@[simp] theorem fd_fmtE (op : BitVec 8) (d : RegName) (a : RegName) (sub : BitVec 6) (ta : Bool) (x : BitVec 3) :
    fd (fmtE op d a sub ta x) = d :=
  (BitVec.extractLsb'_append_eq_of_le (by decide)).trans ((BitVec.extractLsb'_append_eq_of_le (by decide)).trans ((BitVec.extractLsb'_append_eq_of_le (by decide)).trans ((BitVec.extractLsb'_append_eq_of_le (by decide)).trans ((BitVec.extractLsb'_append_eq_of_add_le (by decide)).trans (BitVec.extractLsb'_eq_self)))))

@[simp] theorem fa_fmtE (op : BitVec 8) (d : RegName) (a : RegName) (sub : BitVec 6) (ta : Bool) (x : BitVec 3) :
    fa (fmtE op d a sub ta x) = a :=
  (BitVec.extractLsb'_append_eq_of_le (by decide)).trans ((BitVec.extractLsb'_append_eq_of_le (by decide)).trans ((BitVec.extractLsb'_append_eq_of_le (by decide)).trans ((BitVec.extractLsb'_append_eq_of_add_le (by decide)).trans (BitVec.extractLsb'_eq_self))))

@[simp] theorem fsub_fmtE (op : BitVec 8) (d : RegName) (a : RegName) (sub : BitVec 6) (ta : Bool) (x : BitVec 3) :
    fsub (fmtE op d a sub ta x) = sub :=
  (BitVec.extractLsb'_append_eq_of_le (by decide)).trans ((BitVec.extractLsb'_append_eq_of_le (by decide)).trans ((BitVec.extractLsb'_append_eq_of_add_le (by decide)).trans (BitVec.extractLsb'_eq_self)))

@[simp] theorem ftaE_fmtE (op : BitVec 8) (d : RegName) (a : RegName) (sub : BitVec 6) (ta : Bool) (x : BitVec 3) :
    ftaE (fmtE op d a sub ta x) = ta :=
  (lsb_high _ _ (by decide)).trans ((lsb_low _ _ (by decide)).trans (getLsbD_bit _))

@[simp] theorem fx_fmtE (op : BitVec 8) (d : RegName) (a : RegName) (sub : BitVec 6) (ta : Bool) (x : BitVec 3) :
    fx (fmtE op d a sub ta x) = x :=
  (BitVec.extractLsb'_append_eq_of_add_le (by decide)).trans (BitVec.extractLsb'_eq_self)

@[simp] theorem lsb_9_fmtE (op : BitVec 8) (d : RegName) (a : RegName) (sub : BitVec 6) (ta : Bool) (x : BitVec 3) :
    (fmtE op d a sub ta x).getLsbD 9 = sub.getLsbD 5 :=
  (lsb_high _ _ (by decide)).trans ((lsb_high _ _ (by decide)).trans (lsb_low _ _ (by decide)))

@[simp] theorem lsb_8_fmtE (op : BitVec 8) (d : RegName) (a : RegName) (sub : BitVec 6) (ta : Bool) (x : BitVec 3) :
    (fmtE op d a sub ta x).getLsbD 8 = sub.getLsbD 4 :=
  (lsb_high _ _ (by decide)).trans ((lsb_high _ _ (by decide)).trans (lsb_low _ _ (by decide)))

@[simp] theorem lsb_7_fmtE (op : BitVec 8) (d : RegName) (a : RegName) (sub : BitVec 6) (ta : Bool) (x : BitVec 3) :
    (fmtE op d a sub ta x).getLsbD 7 = sub.getLsbD 3 :=
  (lsb_high _ _ (by decide)).trans ((lsb_high _ _ (by decide)).trans (lsb_low _ _ (by decide)))

@[simp] theorem lsb_6_fmtE (op : BitVec 8) (d : RegName) (a : RegName) (sub : BitVec 6) (ta : Bool) (x : BitVec 3) :
    (fmtE op d a sub ta x).getLsbD 6 = sub.getLsbD 2 :=
  (lsb_high _ _ (by decide)).trans ((lsb_high _ _ (by decide)).trans (lsb_low _ _ (by decide)))

@[simp] theorem lsb_4_fmtE (op : BitVec 8) (d : RegName) (a : RegName) (sub : BitVec 6) (ta : Bool) (x : BitVec 3) :
    (fmtE op d a sub ta x).getLsbD 4 = sub.getLsbD 0 :=
  (lsb_high _ _ (by decide)).trans ((lsb_high _ _ (by decide)).trans (lsb_low _ _ (by decide)))

@[simp] theorem lsb_0_fmtE (op : BitVec 8) (d : RegName) (a : RegName) (sub : BitVec 6) (ta : Bool) (x : BitVec 3) :
    (fmtE op d a sub ta x).getLsbD 0 = x.getLsbD 0 :=
  lsb_low _ _ (by decide)

@[simp] theorem ext_4_4_fmtE (op : BitVec 8) (d : RegName) (a : RegName) (sub : BitVec 6) (ta : Bool) (x : BitVec 3) :
    (fmtE op d a sub ta x).extractLsb' 4 4 = sub.extractLsb' 0 4 :=
  (BitVec.extractLsb'_append_eq_of_le (by decide)).trans ((BitVec.extractLsb'_append_eq_of_le (by decide)).trans (BitVec.extractLsb'_append_eq_of_add_le (by decide)))

@[simp] theorem ext_4_5_fmtE (op : BitVec 8) (d : RegName) (a : RegName) (sub : BitVec 6) (ta : Bool) (x : BitVec 3) :
    (fmtE op d a sub ta x).extractLsb' 4 5 = sub.extractLsb' 0 5 :=
  (BitVec.extractLsb'_append_eq_of_le (by decide)).trans ((BitVec.extractLsb'_append_eq_of_le (by decide)).trans (BitVec.extractLsb'_append_eq_of_add_le (by decide)))

@[simp] theorem ext_5_5_fmtE (op : BitVec 8) (d : RegName) (a : RegName) (sub : BitVec 6) (ta : Bool) (x : BitVec 3) :
    (fmtE op d a sub ta x).extractLsb' 5 5 = sub.extractLsb' 1 5 :=
  (BitVec.extractLsb'_append_eq_of_le (by decide)).trans ((BitVec.extractLsb'_append_eq_of_le (by decide)).trans (BitVec.extractLsb'_append_eq_of_add_le (by decide)))

@[simp] theorem ext_4_3_fmtE (op : BitVec 8) (d : RegName) (a : RegName) (sub : BitVec 6) (ta : Bool) (x : BitVec 3) :
    (fmtE op d a sub ta x).extractLsb' 4 3 = sub.extractLsb' 0 3 :=
  (BitVec.extractLsb'_append_eq_of_le (by decide)).trans ((BitVec.extractLsb'_append_eq_of_le (by decide)).trans (BitVec.extractLsb'_append_eq_of_add_le (by decide)))

@[simp] theorem ext_4_2_fmtE (op : BitVec 8) (d : RegName) (a : RegName) (sub : BitVec 6) (ta : Bool) (x : BitVec 3) :
    (fmtE op d a sub ta x).extractLsb' 4 2 = sub.extractLsb' 0 2 :=
  (BitVec.extractLsb'_append_eq_of_le (by decide)).trans ((BitVec.extractLsb'_append_eq_of_le (by decide)).trans (BitVec.extractLsb'_append_eq_of_add_le (by decide)))

@[simp] theorem ext_7_3_fmtE (op : BitVec 8) (d : RegName) (a : RegName) (sub : BitVec 6) (ta : Bool) (x : BitVec 3) :
    (fmtE op d a sub ta x).extractLsb' 7 3 = sub.extractLsb' 3 3 :=
  (BitVec.extractLsb'_append_eq_of_le (by decide)).trans ((BitVec.extractLsb'_append_eq_of_le (by decide)).trans (BitVec.extractLsb'_append_eq_of_add_le (by decide)))

@[simp] theorem ext_8_2_fmtE (op : BitVec 8) (d : RegName) (a : RegName) (sub : BitVec 6) (ta : Bool) (x : BitVec 3) :
    (fmtE op d a sub ta x).extractLsb' 8 2 = sub.extractLsb' 4 2 :=
  (BitVec.extractLsb'_append_eq_of_le (by decide)).trans ((BitVec.extractLsb'_append_eq_of_le (by decide)).trans (BitVec.extractLsb'_append_eq_of_add_le (by decide)))

@[simp] theorem ext_1_2_fmtE (op : BitVec 8) (d : RegName) (a : RegName) (sub : BitVec 6) (ta : Bool) (x : BitVec 3) :
    (fmtE op d a sub ta x).extractLsb' 1 2 = x.extractLsb' 1 2 :=
  BitVec.extractLsb'_append_eq_of_add_le (by decide)

@[simp] theorem ext_19_5_fmtE (op : BitVec 8) (d : RegName) (a : RegName) (sub : BitVec 6) (ta : Bool) (x : BitVec 3) :
    (fmtE op d a sub ta x).extractLsb' 19 5 = d.extractLsb' 2 5 :=
  (BitVec.extractLsb'_append_eq_of_le (by decide)).trans ((BitVec.extractLsb'_append_eq_of_le (by decide)).trans ((BitVec.extractLsb'_append_eq_of_le (by decide)).trans ((BitVec.extractLsb'_append_eq_of_le (by decide)).trans (BitVec.extractLsb'_append_eq_of_add_le (by decide)))))

@[simp] theorem ext_17_2_fmtE (op : BitVec 8) (d : RegName) (a : RegName) (sub : BitVec 6) (ta : Bool) (x : BitVec 3) :
    (fmtE op d a sub ta x).extractLsb' 17 2 = d.extractLsb' 0 2 :=
  (BitVec.extractLsb'_append_eq_of_le (by decide)).trans ((BitVec.extractLsb'_append_eq_of_le (by decide)).trans ((BitVec.extractLsb'_append_eq_of_le (by decide)).trans ((BitVec.extractLsb'_append_eq_of_le (by decide)).trans (BitVec.extractLsb'_append_eq_of_add_le (by decide)))))

@[simp] theorem ext_20_4_fmtE (op : BitVec 8) (d : RegName) (a : RegName) (sub : BitVec 6) (ta : Bool) (x : BitVec 3) :
    (fmtE op d a sub ta x).extractLsb' 20 4 = d.extractLsb' 3 4 :=
  (BitVec.extractLsb'_append_eq_of_le (by decide)).trans ((BitVec.extractLsb'_append_eq_of_le (by decide)).trans ((BitVec.extractLsb'_append_eq_of_le (by decide)).trans ((BitVec.extractLsb'_append_eq_of_le (by decide)).trans (BitVec.extractLsb'_append_eq_of_add_le (by decide)))))

@[simp] theorem ext_17_3_fmtE (op : BitVec 8) (d : RegName) (a : RegName) (sub : BitVec 6) (ta : Bool) (x : BitVec 3) :
    (fmtE op d a sub ta x).extractLsb' 17 3 = d.extractLsb' 0 3 :=
  (BitVec.extractLsb'_append_eq_of_le (by decide)).trans ((BitVec.extractLsb'_append_eq_of_le (by decide)).trans ((BitVec.extractLsb'_append_eq_of_le (by decide)).trans ((BitVec.extractLsb'_append_eq_of_le (by decide)).trans (BitVec.extractLsb'_append_eq_of_add_le (by decide)))))

@[simp] theorem fop_fmtM (op : BitVec 8) (d : RegName) (a : RegName) (sz : BitVec 2) (off : BitVec 6) (ta : Bool) (k : Bool) :
    fop (fmtM op d a sz off ta k) = op :=
  (BitVec.extractLsb'_append_eq_of_le (by decide)).trans ((BitVec.extractLsb'_append_eq_of_le (by decide)).trans ((BitVec.extractLsb'_append_eq_of_le (by decide)).trans ((BitVec.extractLsb'_append_eq_of_le (by decide)).trans ((BitVec.extractLsb'_append_eq_of_le (by decide)).trans ((BitVec.extractLsb'_append_eq_of_le (by decide)).trans (BitVec.extractLsb'_eq_self))))))

@[simp] theorem fd_fmtM (op : BitVec 8) (d : RegName) (a : RegName) (sz : BitVec 2) (off : BitVec 6) (ta : Bool) (k : Bool) :
    fd (fmtM op d a sz off ta k) = d :=
  (BitVec.extractLsb'_append_eq_of_le (by decide)).trans ((BitVec.extractLsb'_append_eq_of_le (by decide)).trans ((BitVec.extractLsb'_append_eq_of_le (by decide)).trans ((BitVec.extractLsb'_append_eq_of_le (by decide)).trans ((BitVec.extractLsb'_append_eq_of_le (by decide)).trans ((BitVec.extractLsb'_append_eq_of_add_le (by decide)).trans (BitVec.extractLsb'_eq_self))))))

@[simp] theorem fa_fmtM (op : BitVec 8) (d : RegName) (a : RegName) (sz : BitVec 2) (off : BitVec 6) (ta : Bool) (k : Bool) :
    fa (fmtM op d a sz off ta k) = a :=
  (BitVec.extractLsb'_append_eq_of_le (by decide)).trans ((BitVec.extractLsb'_append_eq_of_le (by decide)).trans ((BitVec.extractLsb'_append_eq_of_le (by decide)).trans ((BitVec.extractLsb'_append_eq_of_le (by decide)).trans ((BitVec.extractLsb'_append_eq_of_add_le (by decide)).trans (BitVec.extractLsb'_eq_self)))))

@[simp] theorem fsz_fmtM (op : BitVec 8) (d : RegName) (a : RegName) (sz : BitVec 2) (off : BitVec 6) (ta : Bool) (k : Bool) :
    fsz (fmtM op d a sz off ta k) = sz :=
  (BitVec.extractLsb'_append_eq_of_le (by decide)).trans ((BitVec.extractLsb'_append_eq_of_le (by decide)).trans ((BitVec.extractLsb'_append_eq_of_le (by decide)).trans ((BitVec.extractLsb'_append_eq_of_add_le (by decide)).trans (BitVec.extractLsb'_eq_self))))

@[simp] theorem foff6_fmtM (op : BitVec 8) (d : RegName) (a : RegName) (sz : BitVec 2) (off : BitVec 6) (ta : Bool) (k : Bool) :
    foff6 (fmtM op d a sz off ta k) = off :=
  (BitVec.extractLsb'_append_eq_of_le (by decide)).trans ((BitVec.extractLsb'_append_eq_of_le (by decide)).trans ((BitVec.extractLsb'_append_eq_of_add_le (by decide)).trans (BitVec.extractLsb'_eq_self)))

@[simp] theorem lsb_1_fmtM (op : BitVec 8) (d : RegName) (a : RegName) (sz : BitVec 2) (off : BitVec 6) (ta : Bool) (k : Bool) :
    (fmtM op d a sz off ta k).getLsbD 1 = ta :=
  (lsb_high _ _ (by decide)).trans ((lsb_low _ _ (by decide)).trans (getLsbD_bit _))

@[simp] theorem fk_fmtM (op : BitVec 8) (d : RegName) (a : RegName) (sz : BitVec 2) (off : BitVec 6) (ta : Bool) (k : Bool) :
    fk (fmtM op d a sz off ta k) = k :=
  (lsb_low _ _ (by decide)).trans (getLsbD_bit _)

@[simp] theorem lsb_9_fmtM (op : BitVec 8) (d : RegName) (a : RegName) (sz : BitVec 2) (off : BitVec 6) (ta : Bool) (k : Bool) :
    (fmtM op d a sz off ta k).getLsbD 9 = sz.getLsbD 1 :=
  (lsb_high _ _ (by decide)).trans ((lsb_high _ _ (by decide)).trans ((lsb_high _ _ (by decide)).trans (lsb_low _ _ (by decide))))

@[simp] theorem lsb_8_fmtM (op : BitVec 8) (d : RegName) (a : RegName) (sz : BitVec 2) (off : BitVec 6) (ta : Bool) (k : Bool) :
    (fmtM op d a sz off ta k).getLsbD 8 = sz.getLsbD 0 :=
  (lsb_high _ _ (by decide)).trans ((lsb_high _ _ (by decide)).trans ((lsb_high _ _ (by decide)).trans (lsb_low _ _ (by decide))))

@[simp] theorem fop_fmtS (op : BitVec 8) (d : RegName) (csr : BitVec 12) (x : BitVec 5) :
    fop (fmtS op d csr x) = op :=
  (BitVec.extractLsb'_append_eq_of_le (by decide)).trans ((BitVec.extractLsb'_append_eq_of_le (by decide)).trans ((BitVec.extractLsb'_append_eq_of_le (by decide)).trans (BitVec.extractLsb'_eq_self)))

@[simp] theorem fd_fmtS (op : BitVec 8) (d : RegName) (csr : BitVec 12) (x : BitVec 5) :
    fd (fmtS op d csr x) = d :=
  (BitVec.extractLsb'_append_eq_of_le (by decide)).trans ((BitVec.extractLsb'_append_eq_of_le (by decide)).trans ((BitVec.extractLsb'_append_eq_of_add_le (by decide)).trans (BitVec.extractLsb'_eq_self)))

@[simp] theorem ext_5_12_fmtS (op : BitVec 8) (d : RegName) (csr : BitVec 12) (x : BitVec 5) :
    (fmtS op d csr x).extractLsb' 5 12 = csr :=
  (BitVec.extractLsb'_append_eq_of_le (by decide)).trans ((BitVec.extractLsb'_append_eq_of_add_le (by decide)).trans (BitVec.extractLsb'_eq_self))

@[simp] theorem ext_0_5_fmtS (op : BitVec 8) (d : RegName) (csr : BitVec 12) (x : BitVec 5) :
    (fmtS op d csr x).extractLsb' 0 5 = x :=
  (BitVec.extractLsb'_append_eq_of_add_le (by decide)).trans (BitVec.extractLsb'_eq_self)

@[simp] theorem ext_1_4_fmtS (op : BitVec 8) (d : RegName) (csr : BitVec 12) (x : BitVec 5) :
    (fmtS op d csr x).extractLsb' 1 4 = x.extractLsb' 1 4 :=
  BitVec.extractLsb'_append_eq_of_add_le (by decide)

@[simp] theorem lsb_0_fmtS (op : BitVec 8) (d : RegName) (csr : BitVec 12) (x : BitVec 5) :
    (fmtS op d csr x).getLsbD 0 = x.getLsbD 0 :=
  lsb_low _ _ (by decide)

/-! ### Fields that hold narrower operands -/

@[simp] theorem ext_modex_hi (i : BitVec 6) : (0#10 ++ i : BitVec 16).extractLsb' 6 10 = 0 :=
  (BitVec.extractLsb'_append_eq_of_le (by decide)).trans BitVec.extractLsb'_eq_self

@[simp] theorem ext_modex_lo (i : BitVec 6) : (0#10 ++ i : BitVec 16).extractLsb' 0 6 = i :=
  (BitVec.extractLsb'_append_eq_of_add_le (by decide)).trans BitVec.extractLsb'_eq_self

@[simp] theorem ext_barrier_hi (i : BitVec 3) : (0#13 ++ i : BitVec 16).extractLsb' 3 13 = 0 :=
  (BitVec.extractLsb'_append_eq_of_le (by decide)).trans BitVec.extractLsb'_eq_self

@[simp] theorem ext_barrier_lo (i : BitVec 3) : (0#13 ++ i : BitVec 16).extractLsb' 0 3 = i :=
  (BitVec.extractLsb'_append_eq_of_add_le (by decide)).trans BitVec.extractLsb'_eq_self

@[simp] theorem ext_waitp_hi (p : BitVec 2) (n : BitVec 14) : (p ++ n : BitVec 16).extractLsb' 14 2 = p :=
  (BitVec.extractLsb'_append_eq_of_le (by decide)).trans BitVec.extractLsb'_eq_self

@[simp] theorem ext_waitp_lo (p : BitVec 2) (n : BitVec 14) : (p ++ n : BitVec 16).extractLsb' 0 14 = n :=
  (BitVec.extractLsb'_append_eq_of_add_le (by decide)).trans BitVec.extractLsb'_eq_self

@[simp] theorem ext_count_hi (n : BitVec 6) : (0#2 ++ n : BitVec 8).extractLsb' 6 2 = 0 :=
  (BitVec.extractLsb'_append_eq_of_le (by decide)).trans BitVec.extractLsb'_eq_self

@[simp] theorem ext_count_lo (n : BitVec 6) : (0#2 ++ n : BitVec 8).extractLsb' 0 6 = n :=
  (BitVec.extractLsb'_append_eq_of_add_le (by decide)).trans BitVec.extractLsb'_eq_self

@[simp] theorem ext_lea_hi (z : Bool) (n : BitVec 3) : (0#2 ++ bit z ++ n : BitVec 6).extractLsb' 4 2 = 0 :=
  (BitVec.extractLsb'_append_eq_of_le (by decide)).trans
    ((BitVec.extractLsb'_append_eq_of_le (by decide)).trans BitVec.extractLsb'_eq_self)

@[simp] theorem lsb_lea (z : Bool) (n : BitVec 3) : (0#2 ++ bit z ++ n : BitVec 6).getLsbD 3 = z :=
  (lsb_high _ _ (by decide)).trans ((lsb_low _ _ (by decide)).trans (getLsbD_bit z))

@[simp] theorem ext_lea_lo (z : Bool) (n : BitVec 3) : (0#2 ++ bit z ++ n : BitVec 6).extractLsb' 0 3 = n :=
  (BitVec.extractLsb'_append_eq_of_add_le (by decide)).trans BitVec.extractLsb'_eq_self

@[simp] theorem ext_pred_hi (p : PredName) : (0#4 ++ p : BitVec 7).extractLsb' 3 4 = 0 :=
  (BitVec.extractLsb'_append_eq_of_le (by decide)).trans BitVec.extractLsb'_eq_self

@[simp] theorem ext_pred_lo (p : PredName) : (0#4 ++ p : BitVec 7).extractLsb' 0 3 = p :=
  (BitVec.extractLsb'_append_eq_of_add_le (by decide)).trans BitVec.extractLsb'_eq_self

end Sys2Proof
end

