-- ==== Sys2Proof/Laws/Issue.lean ====
section
/-!
SUPPORT. What the issue of an instruction does, once for every instruction: a group on one path outside a window.
-/

namespace Sys2Proof.Machine

theorem slot_parked (x : Slot) (h : x.jpc = some x.pc) (hk : x.parked = true) :
    ({ pc := x.pc, mask := x.mask, jpc := some x.pc, parked := true, wait := x.wait } : Slot) = x := by
  cases x; simp_all

theorem joinSlot_steady (g : Group) (b c : Bool) (hm : (g.slot b).mask ≠ 0)
    (h : Steady g b (g.slot b).pc) (ht : g.inTrap = false) : g.joinSlot c = g := by
  obtain h | ⟨hj, h⟩ := h
  · simp [ht] at h
  · obtain ⟨ho, hs⟩ | ⟨ho, hp, h⟩ := h
    · cases b <;> cases c <;> simp_all [Group.joinSlot, Group.slot]
    · have hp' := Ne.symm hp
      obtain h | ⟨hk, hd⟩ := h
      · cases b <;> cases c <;> simp_all [Group.joinSlot, Group.slot]
      · cases hst : g.stack with
        | nil => cases b <;> cases c <;> simp_all [Group.joinSlot, Group.slot, Group.setSlot]
                 all_goals cases g; simp_all
                 all_goals exact fun e => slot_parked _ e hk
        | cons t ts => cases b <;> cases c <;> simp_all [Group.joinSlot, Group.slot, Group.setSlot]
                       all_goals exact fun e f => absurd (f.trans e.symm) hd

theorem joinFix_steady (n : Nat) (g : Group) (b : Bool) (hm : (g.slot b).mask ≠ 0)
    (h : Steady g b (g.slot b).pc) (ht : g.inTrap = false) : g.joinFix n = g := by
  cases n <;> simp [Group.joinFix, joinSlot_steady g b _ hm h ht]

theorem boundary_steady (g : Group) (b : Bool) (hm : (g.slot b).mask ≠ 0) (h : Steady g b (g.slot b).pc) :
    g.boundary = g := by
  unfold Group.boundary
  cases ht : g.inTrap
  · simpa using joinFix_steady _ g b hm h ht
  · rfl

/-! ### Issue -/

theorem ready_group? {s : State} {g : Group} {b : Bool} {pc : DWord} (h : Ready s g b pc) : s.group? g.id = some g := by
  have := h.issues.here
  have e : g.id = s.cur := by simpa [State.group?] using List.find?_some this
  rw [e]; exact this

/-- An effect that leaves the group without a window opens none. -/
theorem opensFull_no_window (s : State) (g : Group) (o : Op) (d : Done)
    (h : ∀ t x, d.issued = some t → t.group? g.id = some x → x.window = none) : s.opensFull g o d = false := by
  unfold State.opensFull
  cases hd : d.issued with
  | none => rfl
  | some t =>
    cases hx : t.group? g.id with
    | none => simp [hx]
    | some x => cases hw : g.window <;> simp [hx, h t x hd hx]

/-- An effect that comes to no issue opens no window. -/
theorem opensFull_not_issued (s : State) (g : Group) (o : Op) (d : Done) (h : d.issued = none) : s.opensFull g o d = false :=
  opensFull_no_window s g o d (fun _ _ e => by simp [h] at e)

/-- An instruction that decodes, has its operands and has an active lane gets to its effect, unless it settles behind a `trace` or
opens a window without room for its shadows. -/
theorem issue_ready (o : Group → Op) (s : State) (g : Group) (b : Bool) (pc : DWord) (h : Ready s g b pc)
    (hd : (o g).decodeCause = none) (hs : Settled g ((o g).srcs.map (·.1))) (hf : Settled g (o g).dsts)
    (ha : (if (o g).guarded then g.active b else (g.slot b).mask) ≠ 0) (ht : (o g).settles = true → NoTrace g)
    (hr : s.opensFull g (o g) ((o g).body s g b (if (o g).guarded then g.active b else (g.slot b).mask)) = false) :
    issue o s = .next (s.conclude g b (o g)
      ((o g).body s g b (if (o g).guarded then g.active b else (g.slot b).mask))) := by
  have hw := h.window
  have e1 : ((o g).srcs.any fun r => r.2 && !(g.reg r.1).full) = false := by
    simp only [List.any_eq_false]
    intro r hr; simp [(hs r.1 (List.mem_map_of_mem hr)).1]
  have e2 : ((o g).srcs.any fun r => !(g.reg r.1).full) = false := by
    simp only [List.any_eq_false]
    intro r hr; simp [(hs r.1 (List.mem_map_of_mem hr)).1]
  have e3 : ((o g).srcs.any fun r => (g.reg r.1).poison) = false := by
    simp only [List.any_eq_false]
    intro r hr; simp [(hs r.1 (List.mem_map_of_mem hr)).2]
  have e4 : ((o g).dsts.any fun r => !(g.reg r).full) = false := by
    simp only [List.any_eq_false]
    intro r hr; simp [(hf r hr).1]
  have e5 : ¬ ((o g).settles = true ∧ ∃ x, x ∈ g.producers ∧ x.kind = ProdKind.trace) :=
    fun ⟨hse, x, hx, hk⟩ => ht hse x hx hk
  have e6 : s.shadowFull g (o g) = false := by simp [State.shadowFull, hw]
  unfold issue
  rw [h.issues.here, h.issues.slot]
  simp only [Group.active] at ha hr ⊢
  have ha' : ¬ (if (o g).guarded then g.guarded (g.slot b).mask else (g.slot b).mask) = 0#64 := ha
  simp [Op.issueIn, hd, e1, e2, e3, e4, e5, e6, ha', hr, hw]

/-- With no active lane an instruction that decodes has no effect beyond its issue (R346). -/
theorem issue_no_lane (o : Group → Op) (s : State) (g : Group) (b : Bool) (pc : DWord) (h : Ready s g b pc)
    (hd : (o g).decodeCause = none) (hs : Settled g ((o g).srcs.map (·.1))) (hf : Settled g (o g).dsts)
    (hu : (o g).guarded = true) (ha : g.active b = 0) :
    issue o s = .next (s.conclude g b (o g) (.next s 1)) := by
  have e1 : ((o g).srcs.any fun r => r.2 && !(g.reg r.1).full) = false := by
    simp only [List.any_eq_false]
    intro r hr; simp [(hs r.1 (List.mem_map_of_mem hr)).1]
  have e2 : ((o g).srcs.any fun r => !(g.reg r.1).full) = false := by
    simp only [List.any_eq_false]
    intro r hr; simp [(hs r.1 (List.mem_map_of_mem hr)).1]
  have e4 : ((o g).dsts.any fun r => !(g.reg r).full) = false := by
    simp only [List.any_eq_false]
    intro r hr; simp [(hf r hr).1]
  unfold issue
  rw [h.issues.here, h.issues.slot]
  simp only [Group.active] at ha
  simp [Op.issueIn, hd, hu, ha, e1, e2, e4, h.window]

/-! ### The group of a number -/

theorem group?_id {s : State} {n : Nat} {g : Group} (h : s.group? n = some g) : g.id = n := by
  simpa [State.group?] using List.find?_some h

theorem find?_map_id (f : Group → Group) (n : Nat) (hf : ∀ x, x.id = n → (f x).id = n) (gs : List Group) :
    (gs.map (fun x => if x.id = n then f x else x)).find? (fun x => x.id = n) =
      (gs.find? (fun x => x.id = n)).map f := by
  induction gs with
  | nil => rfl
  | cons x gs ih =>
    by_cases hx : x.id = n
    · simp [hx, hf x hx]
    · simp [hx, ih]

theorem group?_modGroup (s : State) (n : Nat) (f : Group → Group) (hf : ∀ x, x.id = n → (f x).id = n) :
    (s.modGroup n f).group? n = (s.group? n).map f := by
  simpa [State.group?, State.modGroup] using find?_map_id f n hf s.groups

theorem group?_setGroup (s : State) (n : Nat) (g g' : Group) (h : s.group? n = some g) (hg : g'.id = n) :
    (s.setGroup g').group? n = some g' := by
  have := find?_map_id (fun _ => g') n (fun _ _ => hg) s.groups
  simp only [State.group?, State.setGroup, hg] at *
  simp [this, h]

/-! ### An instruction that completes in place -/

theorem slot_setSlot (g : Group) (b : Bool) (x : Slot) : (g.setSlot b x).slot b = x := by cases b <;> rfl

theorem slot_setSlot_other (g : Group) (b : Bool) (x : Slot) : (g.setSlot b x).slot (!b) = g.slot (!b) := by
  cases b <;> rfl

theorem foldl_or (es : List StackEntry) (m : Mask) (h : m ≠ 0) : es.foldl (fun m e => m ||| e.mask) m ≠ 0 := by
  induction es generalizing m with
  | nil => exact h
  | cons e es ih =>
    refine ih _ ?_
    intro hz
    apply h
    apply BitVec.eq_of_getLsbD_eq
    intro i hi
    have := congrArg (fun x : Mask => x.getLsbD i) hz
    simp at this
    simpa using this.1

theorem or_ne_zero (x y : Mask) (h : x ≠ 0 ∨ y ≠ 0) : x ||| y ≠ 0 := by
  intro hz
  have : ∀ i, x.getLsbD i = false ∧ y.getLsbD i = false := fun i => by
    simpa using congrArg (fun x : Mask => x.getLsbD i) hz
  obtain h | h := h
  · exact h (BitVec.eq_of_getLsbD_eq (fun i _ => by simpa using (this i).1))
  · exact h (BitVec.eq_of_getLsbD_eq (fun i _ => by simpa using (this i).2))

theorem live_ne_zero (g : Group) (b : Bool) (h : (g.slot b).mask ≠ 0) : g.live ≠ 0 := by
  refine foldl_or _ _ (or_ne_zero _ _ ?_)
  cases b
  · exact .inl h
  · exact .inr h

theorem modWindow_none (g : Group) (f : Window → Window) (h : g.window = none) : g.modWindow f = g := by
  cases g; simp_all [Group.modWindow]

theorem steady_lastB (g : Group) (b c : Bool) (pc : DWord) (h : Steady g b pc) : Steady { g with lastB := c } b pc := by
  cases b <;> exact h

theorem noteLimit_none (s : State) (g : Group) (h : g.window = none) : s.noteLimit g = g := modWindow_none g _ h

/-- The boundary after an instruction leaves a steady group as it is. -/
theorem afterIssue_steady (t : State) (n : Nat) (b : Bool) (ds : List RegName) (q : Group)
    (hq : t.group? n = some q) (hm : (q.slot b).mask ≠ 0) (hw : q.window = none) (h : Steady q b (q.slot b).pc) :
    t.afterIssue n b ds = t.setGroup { q with lastB := b } := by
  have hm' : (({ q with lastB := b } : Group).slot b).mask ≠ 0 := by cases b <;> exact hm
  have hst : Steady { q with lastB := b } b ((({ q with lastB := b } : Group).slot b).pc) := by cases b <;> exact h
  have hl := live_ne_zero _ b hm'
  rw [State.afterIssue, hq]
  simp only [modWindow_none q _ hw, noteLimit_none t ({ q with lastB := b } : Group) hw, boundary_steady _ b hm' hst]
  rw [if_neg hl]

/-- The group as `conclude` leaves it after `n` pass-cycles. -/
def Group.retired (g : Group) (b : Bool) (pc : DWord) (w : Wait) (n : Nat) : Group :=
  ({ g with runCycles := g.runCycles + n, stuck := false }).setSlot b { g.slot b with pc := pc, wait := w }

theorem retired_mask (g : Group) (b : Bool) (pc : DWord) (w : Wait) (n : Nat) :
    ((g.retired b pc w n).slot b).mask = (g.slot b).mask := by cases b <;> rfl

theorem retired_pc (g : Group) (b : Bool) (pc : DWord) (w : Wait) (n : Nat) :
    ((g.retired b pc w n).slot b).pc = pc := by cases b <;> rfl

theorem retired_window (g : Group) (b : Bool) (pc : DWord) (w : Wait) (n : Nat) :
    (g.retired b pc w n).window = g.window := by cases b <;> rfl

theorem steady_retired (g : Group) (b : Bool) (pc : DWord) (w : Wait) (n : Nat) (h : Steady g b pc) :
    Steady (g.retired b pc w n) b pc := by cases b <;> exact h

theorem retired_id (g : Group) (b : Bool) (pc : DWord) (w : Wait) (n : Nat) : (g.retired b pc w n).id = g.id := by
  cases b <;> rfl

/-- What the charge and the advance leave as the group. -/
theorem group?_advance (u : State) (g' : Group) (b : Bool) (w : Wait) (n : Nat) (hg : u.group? g'.id = some g') :
    ((u.charge g'.id n).advance g'.id b w).group? g'.id = some (g'.retired b (g'.nextPc b) w n) := by
  unfold State.advance State.charge
  rw [group?_modGroup _ _ _ (fun x hx => by cases b <;> simpa [Group.setSlot] using hx),
    group?_modGroup _ _ _ (fun x hx => by simpa using hx)]
  simp only [State.group?] at hg ⊢
  rw [hg]
  cases b <;> rfl

/-- Putting the group back over what the steps before left is putting it into the state once. -/
theorem setGroup_advance (u : State) (g' : Group) (b : Bool) (w : Wait) (n : Nat) :
    ((u.charge g'.id n).advance g'.id b w).setGroup
        { g'.retired b (g'.nextPc b) w n with lastB := b } =
      u.retire g' b (g'.nextPc b) w n := by
  have hi : (g'.setSlot b { g'.slot b with pc := g'.nextPc b, wait := w }).id = g'.id := by cases b <;> rfl
  simp only [State.retire, State.after, State.setGroup, State.advance, State.charge, State.modGroup, hi, List.map_map]
  congr 1
  apply List.map_congr_left
  intro x _
  by_cases hx : x.id = g'.id
  · cases b <;> simp [hx, Group.setSlot, Group.retired]
  · simp [hx, retired_id]

/-- An effect that leaves the group's slots and stack as they were completes in place. -/
theorem conclude_next (s u : State) (g g' : Group) (b : Bool) (o : Op) (n : Nat) (hid : g'.id = g.id)
    (hg : u.group? g.id = some g') (hm : (g'.slot b).mask ≠ 0) (hw : g'.window = none) (h : Steady g' b (g'.nextPc b)) :
    s.conclude g b o (.next u n) = u.retire g' b (g'.nextPc b) .none n := by
  unfold State.conclude
  simp only []
  rw [← hid, afterIssue_steady _ _ _ _ _ (group?_advance u g' b .none n (hid ▸ hg)) (by rwa [retired_mask])
    (by rwa [retired_window]) (by rw [retired_pc]; exact steady_retired _ _ _ _ _ h), setGroup_advance u g' b .none n]

/-- As `conclude_next`, and the slot then blocks. -/
theorem conclude_block (s u : State) (g g' : Group) (b : Bool) (o : Op) (n : Nat) (w : Wait) (hid : g'.id = g.id)
    (hg : u.group? g.id = some g') (hm : (g'.slot b).mask ≠ 0) (hw : g'.window = none) (h : Steady g' b (g'.nextPc b)) :
    s.conclude g b o (.block u n w) = u.retire g' b (g'.nextPc b) w n := by
  unfold State.conclude
  simp only []
  rw [← hid, afterIssue_steady _ _ _ _ _ (group?_advance u g' b w n (hid ▸ hg)) (by rwa [retired_mask])
    (by rwa [retired_window]) (by rw [retired_pc]; exact steady_retired _ _ _ _ _ h), setGroup_advance u g' b w n]

theorem group?_charge (u : State) (g' : Group) (n : Nat) (hg : u.group? g'.id = some g') :
    (u.charge g'.id n).group? g'.id = some { g' with runCycles := g'.runCycles + n, stuck := false } := by
  unfold State.charge
  rw [group?_modGroup _ _ _ (fun x hx => by simpa using hx)]
  simp only [State.group?] at hg ⊢
  rw [hg]; rfl

/-- An effect that has placed the slot itself: the group is left as `g'`. -/
theorem conclude_jump (s u : State) (g g' : Group) (b : Bool) (o : Op) (n : Nat) (hid : g'.id = g.id)
    (hg : u.group? g.id = some g') (hm : (g'.slot b).mask ≠ 0) (hw : g'.window = none)
    (h : Steady g' b (g'.slot b).pc) :
    s.conclude g b o (.jump u n) = u.retire g' b (g'.slot b).pc (g'.slot b).wait n := by
  unfold State.conclude
  simp only []
  have hs : (({ g' with runCycles := g'.runCycles + n, stuck := false } : Group).slot b) = g'.slot b := by cases b <;> rfl
  rw [← hid, afterIssue_steady _ _ _ _ _ (group?_charge u g' n (hid ▸ hg)) (by rwa [hs]) hw
    (by rw [hs]; cases b <;> exact h)]
  have hi : (g'.setSlot b { g'.slot b with pc := (g'.slot b).pc, wait := (g'.slot b).wait }).id = g'.id := by cases b <;> rfl
  simp only [State.retire, State.after, State.setGroup, State.charge, State.modGroup, hi, List.map_map]
  congr 1
  apply List.map_congr_left
  intro x _
  by_cases hx : x.id = g'.id
  · cases b <;> simp [hx, Group.setSlot, Group.slot]
  · simp [hx]

theorem retire_setGroup (s : State) (g' : Group) (b : Bool) (pc : DWord) (w : Wait) (n : Nat) :
    (s.setGroup g').retire g' b pc w n = s.retire g' b pc w n := by
  have hi : (g'.setSlot b { g'.slot b with pc := pc, wait := w }).id = g'.id := by cases b <;> rfl
  simp only [State.retire, State.after, State.setGroup, hi, List.map_map]
  congr 1
  apply List.map_congr_left
  intro x _
  by_cases hx : x.id = g'.id <;> simp [hx]

end Sys2Proof.Machine
end

