-- ==== Sys2Proof/Laws/Memory.lean ====
section
/-!
SUPPORT. Byte memories: every operation keeps the canonical form, a byte reads back as written, and the form makes
equal memories equal data.
-/

namespace Sys2Proof.Machine

theorem Memory.wfFrom_mono {lo lo' : Nat} {m : List Cell} (h : Memory.wfFrom lo m = true) (hl : lo' ≤ lo) :
    Memory.wfFrom lo' m = true := by
  cases m with
  | nil => rfl
  | cons c m =>
    simp only [Memory.wfFrom, Bool.and_eq_true, decide_eq_true_eq] at h ⊢
    exact ⟨⟨by omega, h.1.2⟩, h.2⟩

/-- Below its first address a memory in canonical form reads 0. -/
theorem Memory.get_below {lo a : Nat} {m : List Cell} (h : Memory.wfFrom lo m = true) (ha : a < lo) :
    Memory.get m a = 0 := by
  cases m with
  | nil => rfl
  | cons c m =>
    simp only [Memory.wfFrom, Bool.and_eq_true, decide_eq_true_eq] at h
    have h1 : a ≠ c.1 := by omega
    have h2 : a < c.1 := by omega
    simp [Memory.get, h1, h2]

/-- A write keeps the canonical form. -/
theorem Memory.wfFrom_set {lo a : Nat} {m : List Cell} (b : Byte) (h : Memory.wfFrom lo m = true) (ha : lo ≤ a) :
    Memory.wfFrom lo (Memory.set m a b) = true := by
  induction m generalizing lo with
  | nil => by_cases hb : b = 0#8 <;> simp [Memory.set, Memory.wfFrom, hb, ha]
  | cons c m ih =>
    obtain ⟨k, x⟩ := c
    simp only [Memory.wfFrom, Bool.and_eq_true, decide_eq_true_eq] at h
    obtain ⟨⟨hk, hx⟩, hm⟩ := h
    replace hx : ¬x = 0#8 := hx
    unfold Memory.set
    split
    · split
      · exact Memory.wfFrom_mono hm (by omega)
      · rename_i hb
        replace hb : ¬b = 0#8 := hb
        simp [Memory.wfFrom, hk, hb, hm]
    · split
      · split
        · simp [Memory.wfFrom, hk, hx, hm]
        · rename_i hlt hb
          replace hb : ¬b = 0#8 := hb
          have hlt' : a + 1 ≤ k := hlt
          simp [Memory.wfFrom, ha, hb, hx, hm, hlt']
      · simp [Memory.wfFrom, hk, hx, ih hm (by omega)]

theorem Memory.wf_nil : Memory.wf [] = true := rfl

theorem Memory.wf_set {m : List Cell} (a : Nat) (b : Byte) (h : Memory.wf m = true) : Memory.wf (Memory.set m a b) = true :=
  Memory.wfFrom_set b h (Nat.zero_le a)

theorem Memory.wf_setBytes {m : List Cell} (bs : List Byte) (a : Nat) (h : Memory.wf m = true) :
    Memory.wf (Memory.setBytes m a bs) = true := by
  induction bs generalizing m a with
  | nil => exact h
  | cons b bs ih => exact ih (a + 1) (Memory.wf_set a b h)

/-- Leaving entries out keeps the canonical form. -/
theorem Memory.wfFrom_filter {lo : Nat} {m : List Cell} (p : Cell → Bool) (h : Memory.wfFrom lo m = true) :
    Memory.wfFrom lo (m.filter p) = true := by
  induction m generalizing lo with
  | nil => rfl
  | cons c m ih =>
    simp only [Memory.wfFrom, Bool.and_eq_true, decide_eq_true_eq] at h
    rw [List.filter_cons]
    split
    · have hx : ¬c.2 = 0#8 := h.1.2
      simp [Memory.wfFrom, h.1.1, hx, ih h.2]
    · exact Memory.wfFrom_mono (ih h.2) (by omega)

theorem Memory.wf_filter {m : List Cell} (p : Cell → Bool) (h : Memory.wf m = true) : Memory.wf (m.filter p) = true :=
  Memory.wfFrom_filter p h

/-- A fold of writes keeps the canonical form. -/
theorem Memory.wf_foldl {α : Type} (f : List Cell → α → List Cell) (hf : ∀ m x, Memory.wf m = true → Memory.wf (f m x) = true)
    (xs : List α) {m : List Cell} (h : Memory.wf m = true) : Memory.wf (xs.foldl f m) = true := by
  induction xs generalizing m with
  | nil => exact h
  | cons x xs ih => exact ih (hf m x h)

/-- What a read gives after a write. -/
theorem Memory.get_setFrom {lo a : Nat} {m : List Cell} (b : Byte) (h : Memory.wfFrom lo m = true) (x : Nat) :
    Memory.get (Memory.set m a b) x = if x = a then b else Memory.get m x := by
  induction m generalizing lo with
  | nil =>
    by_cases hb : b = 0#8 <;> by_cases hx : x = a <;> simp [Memory.set, Memory.get, hb, hx]
  | cons c m ih =>
    obtain ⟨k, y⟩ := c
    simp only [Memory.wfFrom, Bool.and_eq_true, decide_eq_true_eq] at h
    have hm := h.2
    unfold Memory.set
    split
    · rename_i hk
      subst hk
      split
      · rename_i hb
        by_cases hx : x = a
        · subst hx; simp [hb, Memory.get_below hm (Nat.lt_succ_self _)]
        · by_cases hlt : x < a
          · simp [Memory.get, hx, hlt, Memory.get_below hm (Nat.lt_succ_of_lt hlt)]
          · simp [Memory.get, hx, hlt]
      · by_cases hx : x = a <;> simp [Memory.get, hx]
    · rename_i hk
      split
      · rename_i hlt
        split
        · rename_i hb
          by_cases hx : x = a
          · subst hx; simp [Memory.get, hk, hlt, hb]
          · simp [hx]
        · by_cases hx : x = a
          · simp [Memory.get, hx]
          · by_cases hl : x < a
            · have : x ≠ k := by omega
              have : x < k := by omega
              simp [Memory.get, *]
            · simp [Memory.get, hx, hl]
      · have h1 := ih hm
        by_cases hx : x = k
        · subst hx
          have : x ≠ a := fun e => hk e.symm
          simp [Memory.get, this]
        · by_cases hl : x < k
          · have : x ≠ a := by omega
            simp [Memory.get, hx, hl, this]
          · simp [Memory.get, hx, hl, h1]

theorem Memory.get_set {m : List Cell} (h : Memory.wf m = true) (a : Nat) (b : Byte) (x : Nat) :
    Memory.get (Memory.set m a b) x = if x = a then b else Memory.get m x := Memory.get_setFrom b h x

/-- What a read gives after several bytes have been written. -/
theorem Memory.get_setBytes {m : List Cell} (h : Memory.wf m = true) (bs : List Byte) (a x : Nat) :
    Memory.get (Memory.setBytes m a bs) x = if a ≤ x ∧ x < a + bs.length then bs.getD (x - a) 0 else Memory.get m x := by
  induction bs generalizing m a with
  | nil =>
    have e : ¬ (a ≤ x ∧ x < a + ([] : List Byte).length) := by simp only [List.length_nil]; omega
    simp only [Memory.setBytes, if_neg e]
  | cons b bs ih =>
    simp only [Memory.setBytes, ih (Memory.wf_set a b h), Memory.get_set h, List.length_cons]
    by_cases e : a + 1 ≤ x ∧ x < a + 1 + bs.length
    · rw [if_pos e, if_pos (by omega), show x - a = (x - (a + 1)) + 1 by omega, List.getD_cons_succ]
    · by_cases hx : x = a
      · subst hx
        rw [if_neg e, if_pos rfl, if_pos (by omega), Nat.sub_self, List.getD_cons_zero]
      · rw [if_neg e, if_neg hx, if_neg (by omega)]

/-- Memories in canonical form that read alike are equal. -/
theorem Memory.extFrom {lo : Nat} {m n : List Cell} (hm : Memory.wfFrom lo m = true) (hn : Memory.wfFrom lo n = true)
    (h : ∀ a, Memory.get m a = Memory.get n a) : m = n := by
  induction m generalizing n lo with
  | nil =>
    cases n with
    | nil => rfl
    | cons d n =>
      simp only [Memory.wfFrom, Bool.and_eq_true, decide_eq_true_eq] at hn
      have := h d.1
      simp [Memory.get] at this
      exact absurd this.symm hn.1.2
  | cons c m ih =>
    have hm' := hm
    simp only [Memory.wfFrom, Bool.and_eq_true, decide_eq_true_eq] at hm
    cases n with
    | nil =>
      have := h c.1
      simp [Memory.get] at this
      exact absurd this hm.1.2
    | cons d n =>
      have hn' := hn
      simp only [Memory.wfFrom, Bool.and_eq_true, decide_eq_true_eq] at hn
      have hk : c.1 = d.1 := by
        have h1 := h c.1
        have h2 := h d.1
        simp only [Memory.get] at h1 h2
        by_cases e : c.1 = d.1
        · exact e
        · by_cases l : c.1 < d.1
          · simp [e, l] at h1; exact absurd h1 hm.1.2
          · have l' : d.1 < c.1 := by omega
            have e' : d.1 ≠ c.1 := by omega
            simp [e', l'] at h2; exact absurd h2.symm hn.1.2
      have hv : c.2 = d.2 := by
        have h1 := h c.1
        simpa [Memory.get, hk] using h1
      have hc : c = d := Prod.ext hk hv
      subst hc
      congr 1
      refine ih hm.2 hn.2 fun a => ?_
      have h1 := h a
      by_cases e : a = c.1
      · subst e
        rw [Memory.get_below hm.2 (Nat.lt_succ_self _), Memory.get_below hn.2 (Nat.lt_succ_self _)]
      · by_cases l : a < c.1
        · rw [Memory.get_below hm.2 (by omega), Memory.get_below hn.2 (by omega)]
        · simpa [Memory.get, e, l] using h1

theorem Memory.ext {m n : List Cell} (hm : Memory.wf m = true) (hn : Memory.wf n = true)
    (h : ∀ a, Memory.get m a = Memory.get n a) : m = n := Memory.extFrom hm hn h

/-! ### Sparse registers -/

/-- A sparse register file from `lo` on: each offset once, in rising order. -/
def risingFrom : Nat → List (Nat × Word) → Prop
  | _, [] => True
  | lo, (k, _) :: m => lo ≤ k ∧ risingFrom (k + 1) m

theorem risingFrom_mono {lo lo' : Nat} {m : List (Nat × Word)} (h : risingFrom lo m) (hl : lo' ≤ lo) : risingFrom lo' m := by
  cases m with
  | nil => trivial
  | cons c m => exact ⟨Nat.le_trans hl h.1, h.2⟩

theorem lookup_below {lo a : Nat} {m : List (Nat × Word)} (d : Word) (h : risingFrom lo m) (ha : a < lo) : lookup d m a = d := by
  induction m generalizing lo with
  | nil => rfl
  | cons c m ih =>
    have h1 : a ≠ c.1 := by have := h.1; omega
    simp [lookup, h1, ih h.2 (by have := h.1; omega)]

/-- A register that is written reads back, and the others read as before. -/
theorem lookup_assign {lo : Nat} {m : List (Nat × Word)} (d e : Word) (h : risingFrom lo m) (a x : Nat) (v : Word)
    (he : x = a → e = d) : lookup e (assign d m a v) x = if x = a then v else lookup e m x := by
  induction m generalizing lo with
  | nil =>
    by_cases hx : x = a
    · by_cases hv : v = d <;> simp [assign, lookup, hx, hv, he hx]
    · by_cases hv : v = d <;> simp [assign, lookup, hx, hv]
  | cons c m ih =>
    obtain ⟨k, w⟩ := c
    unfold assign
    split
    · rename_i hk
      subst hk
      split
      · rename_i hv
        by_cases hx : x = a
        · subst hx; simp [hv, he rfl, lookup_below _ h.2 (Nat.lt_succ_self _)]
        · simp [lookup, hx]
      · by_cases hx : x = a <;> simp [lookup, hx]
    · rename_i hk
      split
      · rename_i hlt
        split
        · rename_i hv
          by_cases hx : x = a
          · subst hx
            simp [lookup, hk, hv, he rfl, lookup_below _ h.2 (Nat.lt_succ_of_lt hlt)]
          · simp [hx]
        · by_cases hx : x = a <;> simp [lookup, hx]
      · have h1 := ih h.2
        by_cases hx : x = k
        · subst hx
          have : x ≠ a := fun e => hk e.symm
          simp [lookup, this]
        · simp [lookup, hx, h1]

theorem risingFrom_assign {lo a : Nat} {m : List (Nat × Word)} (d v : Word) (h : risingFrom lo m) (ha : lo ≤ a) :
    risingFrom lo (assign d m a v) := by
  induction m generalizing lo with
  | nil => unfold assign; split <;> simp [risingFrom, ha]
  | cons c m ih =>
    obtain ⟨k, w⟩ := c
    obtain ⟨hk, hm⟩ := h
    unfold assign
    split
    · split
      · exact risingFrom_mono hm (by omega)
      · exact ⟨hk, hm⟩
    · split
      · split
        · exact ⟨hk, hm⟩
        · exact ⟨ha, by omega, hm⟩
      · exact ⟨hk, ih hm (by omega)⟩

end Sys2Proof.Machine
end

