-- ==== Sys2Proof/Laws/PerInstr.lean ====
section
/-!
SUPPORT. Facts about every instruction as syntax, one lemma per constructor of Instr (LAWS.json): the family
RoundTrip says that decoding an instruction's word gives the instruction back.
-/

namespace Sys2Proof

/-! ### What each decoder of one shape of fields reads from the word of its format -/

theorem regs3_fmtA (op : BitVec 8) (d a b : RegName) (ta tb : Bool) (c : RegName → RegName → RegName → Bool → Bool → Instr) :
    regs3 (fmtA op d a b ta tb false) c = .ok (c d a b ta tb) := by simp [regs3]

theorem regs3k_fmtA (op : BitVec 8) (d a b : RegName) (ta tb k : Bool)
    (c : RegName → RegName → RegName → Bool → Bool → Bool → Instr) :
    regs3k (fmtA op d a b ta tb k) c = .ok (c d a b ta tb k) := by simp [regs3k]

theorem regs2_fmtA (op : BitVec 8) (d a : RegName) (ta : Bool) (c : RegName → RegName → Bool → Instr) :
    regs2 (fmtA op d a 0 ta false false) c = .ok (c d a ta) := by simp [regs2]

theorem regs2k_fmtA (op : BitVec 8) (d a : RegName) (ta k : Bool) (c : RegName → RegName → Bool → Bool → Instr) :
    regs2k (fmtA op d a 0 ta false k) c = .ok (c d a ta k) := by simp [regs2k]

theorem regs1_fmtA (op : BitVec 8) (a : RegName) (ta : Bool) (c : RegName → Bool → Instr) :
    regs1 (fmtA op 0 a 0 ta false false) c = .ok (c a ta) := by simp [regs1]

theorem regs2s_fmtA (op : BitVec 8) (a b : RegName) (ta tb : Bool) (c : RegName → RegName → Bool → Bool → Instr) :
    regs2s (fmtA op 0 a b ta tb false) c = .ok (c a b ta tb) := by simp [regs2s]

theorem plainJ_fmtJ (op : BitVec 8) (i : Instr) : plainJ (fmtJ op 0) i = .ok i := by simp [plainJ]

theorem imm16C_fmtC (op : BitVec 8) (imm : BitVec 16) (c : BitVec 16 → Instr) :
    imm16C (fmtC op 0 imm false) c = .ok (c imm) := by simp [imm16C]

theorem imm3C_fmtC (op : BitVec 8) (b : BitVec 3) (c : BitVec 3 → Instr) :
    imm3C (fmtC op 0 (0#13 ++ b) false) c = .ok (c b) := by simp [imm3C]

theorem immB_fmtB (op : BitVec 8) (d a : RegName) (imm : BitVec 8) (ta : Bool)
    (c : RegName → RegName → BitVec 8 → Bool → Instr) :
    immB (fmtB op d a imm ta false) c = .ok (c d a imm ta) := by simp [immB, -BitVec.getLsbD_eq_getElem]

theorem countB_fmtB (op : BitVec 8) (d a : RegName) (n : BitVec 6) (ta : Bool)
    (c : RegName → RegName → BitVec 6 → Bool → Instr) :
    countB (fmtB op d a (0#2 ++ n) ta false) c = .ok (c d a n ta) := by simp [countB, -BitVec.getLsbD_eq_getElem]

theorem accSize_ofCode_code (sz : AccSize) : AccSize.ofCode sz.code = sz := by cases sz <;> rfl

theorem loadM_fmtM (op : BitVec 8) (d a : RegName) (sz : AccSize) (off : BitVec 6) (ta : Bool)
    (c : RegName → RegName → AccSize → BitVec 6 → Bool → Instr) :
    loadM (fmtM op d a sz.code off ta false) c = .ok (c d a sz off ta) := by simp [loadM, -BitVec.getLsbD_eq_getElem, accSize_ofCode_code]

theorem storeM_fmtM (op : BitVec 8) (d a : RegName) (sz : AccSize) (off : BitVec 6) (ta k : Bool)
    (c : RegName → RegName → AccSize → BitVec 6 → Bool → Bool → Instr) :
    storeM (fmtM op d a sz.code off ta k) c = .ok (c d a sz off ta k) := by simp [storeM, -BitVec.getLsbD_eq_getElem, accSize_ofCode_code]

@[simp] theorem getLsbD_3_fmtE (op : BitVec 8) (d a : RegName) (sub : BitVec 6) (ta : Bool) (x : BitVec 3) :
    (fmtE op d a sub ta x).getLsbD 3 = ta := ftaE_fmtE op d a sub ta x

namespace Laws.RoundTrip

/-- Decoding the word of a well-formed instruction gives it back (R337–R340). -/
def Statement (i : Instr) : Prop := i.wellFormed = true → ∀ w, encode i = some w → decode w = .ok i

theorem nop : Statement .nop := by
  rintro - w ⟨⟩
  unfold decode
  rw [fop_fmtJ]
  exact plainJ_fmtJ ..

theorem mode (imm : BitVec 16) : Statement (.mode imm) := by
  rintro - w ⟨⟩
  unfold decode
  rw [fop_fmtC]
  exact imm16C_fmtC ..

theorem modex (imm : BitVec 6) : Statement (.modex imm) := by
  rintro - w ⟨⟩
  unfold decode
  rw [fop_fmtC]
  refine (?_ : (if fd (fmtC 0x03 0 (0#10 ++ imm) false) ≠ 0 || fk (fmtC 0x03 0 (0#10 ++ imm) false) || (fmtC 0x03 0 (0#10 ++ imm) false).extractLsb' 7 10 ≠ 0 then .error .reservedField else .ok (.modex ((fmtC 0x03 0 (0#10 ++ imm) false).extractLsb' 1 6)) : Except DecodeError Instr) = _)
  simp [-BitVec.getLsbD_eq_getElem]

theorem bra (off : BitVec 24) : Statement (.bra off) := by
  rintro - w ⟨⟩
  unfold decode
  rw [fop_fmtJ]
  refine (?_ : (.ok (.bra (foff24 (fmtJ 0x04 off))) : Except DecodeError Instr) = _)
  simp [-BitVec.getLsbD_eq_getElem]

theorem brc (u : Bool) (n : Bool) (p : PredName) (off : BitVec 19) : Statement (.brc u n p off) := by
  rintro - w ⟨⟩
  unfold decode
  rw [fop_fmtD]
  refine (?_ : (.ok (.brc ((fmtD 0x05 u n p off).getLsbD 23) ((fmtD 0x05 u n p off).getLsbD 22) ((fmtD 0x05 u n p off).extractLsb' 19 3) ((fmtD 0x05 u n p off).extractLsb' 0 19)) : Except DecodeError Instr) = _)
  simp [-BitVec.getLsbD_eq_getElem]

theorem brn (n : Bool) (p : PredName) (off : BitVec 19) : Statement (.brn n p off) := by
  rintro - w ⟨⟩
  unfold decode
  rw [fop_fmtD]
  refine (?_ : (if (fmtD 0x06 false n p off).getLsbD 23 then .error .reservedField else .ok (.brn ((fmtD 0x06 false n p off).getLsbD 22) ((fmtD 0x06 false n p off).extractLsb' 19 3) ((fmtD 0x06 false n p off).extractLsb' 0 19)) : Except DecodeError Instr) = _)
  simp [-BitVec.getLsbD_eq_getElem]

theorem call (d : RegName) (off : BitVec 16) : Statement (.call d off) := by
  rintro - w ⟨⟩
  unfold decode
  rw [fop_fmtC]
  refine (?_ : (if fk (fmtC 0x07 d off false) then .error .reservedField else .ok (.call (fd (fmtC 0x07 d off false)) (fimm16 (fmtC 0x07 d off false))) : Except DecodeError Instr) = _)
  simp [-BitVec.getLsbD_eq_getElem]

theorem ret (a : RegName) (ta : Bool) : Statement (.ret a ta) := by
  rintro - w ⟨⟩
  unfold decode
  rw [fop_fmtA]
  exact regs1_fmtA ..

theorem jr (a : RegName) (ta : Bool) : Statement (.jr a ta) := by
  rintro - w ⟨⟩
  unfold decode
  rw [fop_fmtA]
  exact regs1_fmtA ..

theorem join (off : BitVec 24) : Statement (.join off) := by
  rintro - w ⟨⟩
  unfold decode
  rw [fop_fmtJ]
  refine (?_ : (.ok (.join (foff24 (fmtJ 0x0A off))) : Except DecodeError Instr) = _)
  simp [-BitVec.getLsbD_eq_getElem]

theorem yield : Statement .yield := by
  rintro - w ⟨⟩
  unfold decode
  rw [fop_fmtJ]
  exact plainJ_fmtJ ..

theorem sleep (n : BitVec 16) : Statement (.sleep n) := by
  rintro - w ⟨⟩
  unfold decode
  rw [fop_fmtC]
  exact imm16C_fmtC ..

theorem stop : Statement .stop := by
  rintro - w ⟨⟩
  unfold decode
  rw [fop_fmtJ]
  exact plainJ_fmtJ ..

theorem bar (b : BitVec 3) : Statement (.bar b) := by
  rintro - w ⟨⟩
  unfold decode
  rw [fop_fmtC]
  exact imm3C_fmtC ..

theorem barc (b : BitVec 3) : Statement (.barc b) := by
  rintro - w ⟨⟩
  unfold decode
  rw [fop_fmtC]
  exact imm3C_fmtC ..

theorem barw (b : BitVec 3) : Statement (.barw b) := by
  rintro - w ⟨⟩
  unfold decode
  rw [fop_fmtC]
  exact imm3C_fmtC ..

theorem waitp (path : Path) (n : BitVec 14) : Statement (.waitp path n) := by
  rintro - w ⟨⟩
  unfold decode
  rw [fop_fmtC]
  refine (?_ : (if fd (fmtC 0x11 0 (path.code ++ n) false) ≠ 0 || fk (fmtC 0x11 0 (path.code ++ n) false) then .error .reservedField else .ok (.waitp (.ofCode ((fmtC 0x11 0 (path.code ++ n) false).extractLsb' 15 2)) ((fmtC 0x11 0 (path.code ++ n) false).extractLsb' 1 14)) : Except DecodeError Instr) = _)
  cases path <;> simp [-BitVec.getLsbD_eq_getElem] <;> rfl

theorem settle : Statement .settle := by
  rintro - w ⟨⟩
  unfold decode
  rw [fop_fmtJ]
  exact plainJ_fmtJ ..

theorem add (d : RegName) (a : RegName) (b : RegName) (ta : Bool) (tb : Bool) : Statement (.add d a b ta tb) := by
  rintro - w ⟨⟩
  unfold decode
  rw [fop_fmtA]
  exact regs3_fmtA ..

theorem sub (d : RegName) (a : RegName) (b : RegName) (ta : Bool) (tb : Bool) : Statement (.sub d a b ta tb) := by
  rintro - w ⟨⟩
  unfold decode
  rw [fop_fmtA]
  exact regs3_fmtA ..

theorem mul (d : RegName) (a : RegName) (b : RegName) (ta : Bool) (tb : Bool) : Statement (.mul d a b ta tb) := by
  rintro - w ⟨⟩
  unfold decode
  rw [fop_fmtA]
  exact regs3_fmtA ..

theorem mad (d : RegName) (a : RegName) (b : RegName) (ta : Bool) (tb : Bool) (k : Bool) : Statement (.mad d a b ta tb k) := by
  rintro - w ⟨⟩
  unfold decode
  rw [fop_fmtA]
  exact regs3k_fmtA ..

theorem min (d : RegName) (a : RegName) (b : RegName) (ta : Bool) (tb : Bool) : Statement (.min d a b ta tb) := by
  rintro - w ⟨⟩
  unfold decode
  rw [fop_fmtA]
  exact regs3_fmtA ..

theorem max (d : RegName) (a : RegName) (b : RegName) (ta : Bool) (tb : Bool) : Statement (.max d a b ta tb) := by
  rintro - w ⟨⟩
  unfold decode
  rw [fop_fmtA]
  exact regs3_fmtA ..

theorem abs (d : RegName) (a : RegName) (ta : Bool) : Statement (.abs d a ta) := by
  rintro - w ⟨⟩
  unfold decode
  rw [fop_fmtA]
  exact regs2_fmtA ..

theorem neg (d : RegName) (a : RegName) (ta : Bool) : Statement (.neg d a ta) := by
  rintro - w ⟨⟩
  unfold decode
  rw [fop_fmtA]
  exact regs2_fmtA ..

theorem cmp (d : RegName) (a : RegName) (any : Bool) (cc : Cond) (ta : Bool) (x : PredName) : Statement (.cmp d a any cc ta x) := by
  rintro - w ⟨⟩
  unfold decode
  rw [fop_fmtE]
  refine (?_ : (cmpE (fmtE 0x28 d a (0#1 ++ bit any ++ cc.code) ta x) : Except DecodeError Instr) = _)
  cases any <;> cases cc <;> simp [-BitVec.getLsbD_eq_getElem, cmpE] <;> rfl

theorem sel (d : RegName) (a : RegName) (neg : Bool) (ta : Bool) (x : PredName) : Statement (.sel d a neg ta x) := by
  rintro - w ⟨⟩
  unfold decode
  rw [fop_fmtE]
  refine (?_ : (if (fmtE 0x29 d a (0#5 ++ bit neg) ta x).extractLsb' 5 5 ≠ 0 then .error .unassignedSub else .ok (.sel (fd (fmtE 0x29 d a (0#5 ++ bit neg) ta x)) (fa (fmtE 0x29 d a (0#5 ++ bit neg) ta x)) ((fmtE 0x29 d a (0#5 ++ bit neg) ta x).getLsbD 4) ((fmtE 0x29 d a (0#5 ++ bit neg) ta x).getLsbD 3) (fx (fmtE 0x29 d a (0#5 ++ bit neg) ta x))) : Except DecodeError Instr) = _)
  cases neg <;> simp [-BitVec.getLsbD_eq_getElem] <;> rfl

theorem addi (d : RegName) (a : RegName) (imm : BitVec 8) (ta : Bool) : Statement (.addi d a imm ta) := by
  rintro - w ⟨⟩
  unfold decode
  rw [fop_fmtB]
  exact immB_fmtB ..

theorem movl (d : RegName) (imm : BitVec 16) : Statement (.movl d imm) := by
  rintro - w ⟨⟩
  unfold decode
  rw [fop_fmtC]
  refine (?_ : (if fk (fmtC 0x2B d imm false) then .error .reservedField else .ok (.movl (fd (fmtC 0x2B d imm false)) (fimm16 (fmtC 0x2B d imm false))) : Except DecodeError Instr) = _)
  simp [-BitVec.getLsbD_eq_getElem]

theorem movh (d : RegName) (imm : BitVec 16) (k : Bool) : Statement (.movh d imm k) := by
  rintro - w ⟨⟩
  unfold decode
  rw [fop_fmtC]
  refine (?_ : (.ok (.movh (fd (fmtC 0x2C d imm k)) (fimm16 (fmtC 0x2C d imm k)) (fk (fmtC 0x2C d imm k))) : Except DecodeError Instr) = _)
  simp [-BitVec.getLsbD_eq_getElem]

theorem mov (d : RegName) (a : RegName) (ta : Bool) : Statement (.mov d a ta) := by
  rintro - w ⟨⟩
  unfold decode
  rw [fop_fmtA]
  exact regs2_fmtA ..

theorem clamp (d : RegName) (a : RegName) (b : RegName) (ta : Bool) (tb : Bool) (k : Bool) : Statement (.clamp d a b ta tb k) := by
  rintro - w ⟨⟩
  unfold decode
  rw [fop_fmtA]
  exact regs3k_fmtA ..

theorem mulh (d : RegName) (a : RegName) (b : RegName) (ta : Bool) (tb : Bool) : Statement (.mulh d a b ta tb) := by
  rintro - w ⟨⟩
  unfold decode
  rw [fop_fmtA]
  exact regs3_fmtA ..

theorem div (d : RegName) (a : RegName) (b : RegName) (ta : Bool) (tb : Bool) : Statement (.div d a b ta tb) := by
  rintro - w ⟨⟩
  unfold decode
  rw [fop_fmtA]
  exact regs3_fmtA ..

theorem rem (d : RegName) (a : RegName) (b : RegName) (ta : Bool) (tb : Bool) : Statement (.rem d a b ta tb) := by
  rintro - w ⟨⟩
  unfold decode
  rw [fop_fmtA]
  exact regs3_fmtA ..

theorem addc (d : RegName) (a : RegName) (b : RegName) (ta : Bool) (tb : Bool) (k : Bool) : Statement (.addc d a b ta tb k) := by
  rintro - w ⟨⟩
  unfold decode
  rw [fop_fmtA]
  exact regs3k_fmtA ..

theorem subb (d : RegName) (a : RegName) (b : RegName) (ta : Bool) (tb : Bool) (k : Bool) : Statement (.subb d a b ta tb k) := by
  rintro - w ⟨⟩
  unfold decode
  rw [fop_fmtA]
  exact regs3k_fmtA ..

theorem and (d : RegName) (a : RegName) (b : RegName) (ta : Bool) (tb : Bool) : Statement (.and d a b ta tb) := by
  rintro - w ⟨⟩
  unfold decode
  rw [fop_fmtA]
  exact regs3_fmtA ..

theorem or (d : RegName) (a : RegName) (b : RegName) (ta : Bool) (tb : Bool) : Statement (.or d a b ta tb) := by
  rintro - w ⟨⟩
  unfold decode
  rw [fop_fmtA]
  exact regs3_fmtA ..

theorem xor (d : RegName) (a : RegName) (b : RegName) (ta : Bool) (tb : Bool) : Statement (.xor d a b ta tb) := by
  rintro - w ⟨⟩
  unfold decode
  rw [fop_fmtA]
  exact regs3_fmtA ..

theorem andn (d : RegName) (a : RegName) (b : RegName) (ta : Bool) (tb : Bool) : Statement (.andn d a b ta tb) := by
  rintro - w ⟨⟩
  unfold decode
  rw [fop_fmtA]
  exact regs3_fmtA ..

theorem not (d : RegName) (a : RegName) (ta : Bool) : Statement (.not d a ta) := by
  rintro - w ⟨⟩
  unfold decode
  rw [fop_fmtA]
  exact regs2_fmtA ..

theorem shl (d : RegName) (a : RegName) (b : RegName) (ta : Bool) (tb : Bool) : Statement (.shl d a b ta tb) := by
  rintro - w ⟨⟩
  unfold decode
  rw [fop_fmtA]
  exact regs3_fmtA ..

theorem shr (d : RegName) (a : RegName) (b : RegName) (ta : Bool) (tb : Bool) : Statement (.shr d a b ta tb) := by
  rintro - w ⟨⟩
  unfold decode
  rw [fop_fmtA]
  exact regs3_fmtA ..

theorem rot (d : RegName) (a : RegName) (b : RegName) (ta : Bool) (tb : Bool) : Statement (.rot d a b ta tb) := by
  rintro - w ⟨⟩
  unfold decode
  rw [fop_fmtA]
  exact regs3_fmtA ..

theorem shli (d : RegName) (a : RegName) (n : BitVec 6) (ta : Bool) : Statement (.shli d a n ta) := by
  rintro - w ⟨⟩
  unfold decode
  rw [fop_fmtB]
  exact countB_fmtB ..

theorem shri (d : RegName) (a : RegName) (n : BitVec 6) (ta : Bool) : Statement (.shri d a n ta) := by
  rintro - w ⟨⟩
  unfold decode
  rw [fop_fmtB]
  exact countB_fmtB ..

theorem andi (d : RegName) (a : RegName) (imm : BitVec 8) (ta : Bool) : Statement (.andi d a imm ta) := by
  rintro - w ⟨⟩
  unfold decode
  rw [fop_fmtB]
  exact immB_fmtB ..

theorem ori (d : RegName) (a : RegName) (imm : BitVec 8) (ta : Bool) : Statement (.ori d a imm ta) := by
  rintro - w ⟨⟩
  unfold decode
  rw [fop_fmtB]
  exact immB_fmtB ..

theorem xori (d : RegName) (a : RegName) (imm : BitVec 8) (ta : Bool) : Statement (.xori d a imm ta) := by
  rintro - w ⟨⟩
  unfold decode
  rw [fop_fmtB]
  exact immB_fmtB ..

theorem bfe (d : RegName) (a : RegName) (b : RegName) (ta : Bool) (tb : Bool) : Statement (.bfe d a b ta tb) := by
  rintro - w ⟨⟩
  unfold decode
  rw [fop_fmtA]
  exact regs3_fmtA ..

theorem bfi (d : RegName) (a : RegName) (b : RegName) (ta : Bool) (tb : Bool) (k : Bool) : Statement (.bfi d a b ta tb k) := by
  rintro - w ⟨⟩
  unfold decode
  rw [fop_fmtA]
  exact regs3k_fmtA ..

theorem popc (d : RegName) (a : RegName) (ta : Bool) : Statement (.popc d a ta) := by
  rintro - w ⟨⟩
  unfold decode
  rw [fop_fmtA]
  exact regs2_fmtA ..

theorem clz (d : RegName) (a : RegName) (ta : Bool) : Statement (.clz d a ta) := by
  rintro - w ⟨⟩
  unfold decode
  rw [fop_fmtA]
  exact regs2_fmtA ..

theorem ctz (d : RegName) (a : RegName) (ta : Bool) : Statement (.ctz d a ta) := by
  rintro - w ⟨⟩
  unfold decode
  rw [fop_fmtA]
  exact regs2_fmtA ..

theorem brev (d : RegName) (a : RegName) (ta : Bool) : Statement (.brev d a ta) := by
  rintro - w ⟨⟩
  unfold decode
  rw [fop_fmtA]
  exact regs2_fmtA ..

theorem perm (d : RegName) (a : RegName) (b : RegName) (ta : Bool) (tb : Bool) (k : Bool) : Statement (.perm d a b ta tb k) := by
  rintro - w ⟨⟩
  unfold decode
  rw [fop_fmtA]
  exact regs3k_fmtA ..

theorem lea (d : RegName) (a : RegName) (zx : Bool) (sh : BitVec 3) (ta : Bool) : Statement (.lea d a zx sh ta) := by
  rintro - w ⟨⟩
  unfold decode
  rw [fop_fmtE]
  refine (?_ : (if (fmtE 0x49 d a (0#2 ++ bit zx ++ sh) ta 0).extractLsb' 8 2 ≠ 0 || fx (fmtE 0x49 d a (0#2 ++ bit zx ++ sh) ta 0) ≠ 0 then .error .reservedField else .ok (.lea (fd (fmtE 0x49 d a (0#2 ++ bit zx ++ sh) ta 0)) (fa (fmtE 0x49 d a (0#2 ++ bit zx ++ sh) ta 0)) ((fmtE 0x49 d a (0#2 ++ bit zx ++ sh) ta 0).getLsbD 7) ((fmtE 0x49 d a (0#2 ++ bit zx ++ sh) ta 0).extractLsb' 4 3) ((fmtE 0x49 d a (0#2 ++ bit zx ++ sh) ta 0).getLsbD 3)) : Except DecodeError Instr) = _)
  simp [-BitVec.getLsbD_eq_getElem]

theorem rcp (d : RegName) (a : RegName) (ta : Bool) : Statement (.rcp d a ta) := by
  rintro - w ⟨⟩
  unfold decode
  rw [fop_fmtA]
  exact regs2_fmtA ..

theorem rsq (d : RegName) (a : RegName) (ta : Bool) : Statement (.rsq d a ta) := by
  rintro - w ⟨⟩
  unfold decode
  rw [fop_fmtA]
  exact regs2_fmtA ..

theorem sqrt (d : RegName) (a : RegName) (ta : Bool) : Statement (.sqrt d a ta) := by
  rintro - w ⟨⟩
  unfold decode
  rw [fop_fmtA]
  exact regs2_fmtA ..

theorem exp2 (d : RegName) (a : RegName) (ta : Bool) : Statement (.exp2 d a ta) := by
  rintro - w ⟨⟩
  unfold decode
  rw [fop_fmtA]
  exact regs2_fmtA ..

theorem log2 (d : RegName) (a : RegName) (ta : Bool) : Statement (.log2 d a ta) := by
  rintro - w ⟨⟩
  unfold decode
  rw [fop_fmtA]
  exact regs2_fmtA ..

theorem sin (d : RegName) (a : RegName) (ta : Bool) : Statement (.sin d a ta) := by
  rintro - w ⟨⟩
  unfold decode
  rw [fop_fmtA]
  exact regs2_fmtA ..

theorem cos (d : RegName) (a : RegName) (ta : Bool) : Statement (.cos d a ta) := by
  rintro - w ⟨⟩
  unfold decode
  rw [fop_fmtA]
  exact regs2_fmtA ..

theorem fract (d : RegName) (a : RegName) (ta : Bool) : Statement (.fract d a ta) := by
  rintro - w ⟨⟩
  unfold decode
  rw [fop_fmtA]
  exact regs2_fmtA ..

theorem rnd (d : RegName) (a : RegName) (ta : Bool) : Statement (.rnd d a ta) := by
  rintro - w ⟨⟩
  unfold decode
  rw [fop_fmtA]
  exact regs2_fmtA ..

theorem ldexp (d : RegName) (a : RegName) (b : RegName) (ta : Bool) (tb : Bool) : Statement (.ldexp d a b ta tb) := by
  rintro - w ⟨⟩
  unfold decode
  rw [fop_fmtA]
  exact regs3_fmtA ..

theorem frexpm (d : RegName) (a : RegName) (ta : Bool) : Statement (.frexpm d a ta) := by
  rintro - w ⟨⟩
  unfold decode
  rw [fop_fmtA]
  exact regs2_fmtA ..

theorem frexpe (d : RegName) (a : RegName) (ta : Bool) : Statement (.frexpe d a ta) := by
  rintro - w ⟨⟩
  unfold decode
  rw [fop_fmtA]
  exact regs2_fmtA ..

theorem fpClass (sel : SignSel) (a : RegName) (cls : BitVec 6) (ta : Bool) (x : PredName) : Statement (.fpClass sel a cls ta x) := by
  rintro - w ⟨⟩
  unfold decode
  rw [fop_fmtE]
  refine (?_ : (classE (fmtE 0x6C (0#5 ++ sel.code) a cls ta x) : Except DecodeError Instr) = _)
  cases sel <;> simp [-BitVec.getLsbD_eq_getElem, classE] <;> rfl

theorem cvt (d : RegName) (a : RegName) (src : MType) (ta : Bool) : Statement (.cvt d a src ta) := by
  rintro - w ⟨⟩
  unfold decode
  rw [fop_fmtE]
  refine (?_ : (cvtE (fmtE 0x6D d a (0#1 ++ src.code) ta 0) : Except DecodeError Instr) = _)
  cases src <;> simp [-BitVec.getLsbD_eq_getElem, cvtE] <;> rfl

theorem pack (d : RegName) (a : RegName) (ta : Bool) : Statement (.pack d a ta) := by
  rintro - w ⟨⟩
  unfold decode
  rw [fop_fmtA]
  exact regs2_fmtA ..

theorem unpack (d : RegName) (a : RegName) (ta : Bool) : Statement (.unpack d a ta) := by
  rintro - w ⟨⟩
  unfold decode
  rw [fop_fmtA]
  exact regs2_fmtA ..

theorem copysign (d : RegName) (a : RegName) (b : RegName) (ta : Bool) (tb : Bool) : Statement (.copysign d a b ta tb) := by
  rintro - w ⟨⟩
  unfold decode
  rw [fop_fmtA]
  exact regs3_fmtA ..

theorem dot2 (d : RegName) (a : RegName) (b : RegName) (ta : Bool) (tb : Bool) (k : Bool) : Statement (.dot2 d a b ta tb k) := by
  rintro - w ⟨⟩
  unfold decode
  rw [fop_fmtA]
  exact regs3k_fmtA ..

theorem shfl (d : RegName) (a : RegName) (b : RegName) (ta : Bool) (tb : Bool) : Statement (.shfl d a b ta tb) := by
  rintro - w ⟨⟩
  unfold decode
  rw [fop_fmtA]
  exact regs3_fmtA ..

theorem shflx (d : RegName) (a : RegName) (b : RegName) (ta : Bool) (tb : Bool) : Statement (.shflx d a b ta tb) := by
  rintro - w ⟨⟩
  unfold decode
  rw [fop_fmtA]
  exact regs3_fmtA ..

theorem shflu (d : RegName) (a : RegName) (b : RegName) (ta : Bool) (tb : Bool) : Statement (.shflu d a b ta tb) := by
  rintro - w ⟨⟩
  unfold decode
  rw [fop_fmtA]
  exact regs3_fmtA ..

theorem shfld (d : RegName) (a : RegName) (b : RegName) (ta : Bool) (tb : Bool) : Statement (.shfld d a b ta tb) := by
  rintro - w ⟨⟩
  unfold decode
  rw [fop_fmtA]
  exact regs3_fmtA ..

theorem pfold (pd : PredName) (neg : Bool) (kind : FoldKind) (x : PredName) : Statement (.pfold pd neg kind x) := by
  rintro - w ⟨⟩
  unfold decode
  rw [fop_fmtE]
  refine (?_ : (pfoldE (fmtE 0x84 (0#4 ++ pd) 0 (0#2 ++ bit neg ++ 0#1 ++ kind.code) false x) : Except DecodeError Instr) = _)
  cases neg <;> cases kind <;> simp [-BitVec.getLsbD_eq_getElem, pfoldE] <;> rfl

theorem ballot (d : RegName) (neg : Bool) (x : PredName) : Statement (.ballot d neg x) := by
  rintro - w ⟨⟩
  unfold decode
  rw [fop_fmtE]
  refine (?_ : (ballotE (fmtE 0x85 d 0 (0#2 ++ bit neg ++ 0#3) false x) : Except DecodeError Instr) = _)
  cases neg <;> simp [-BitVec.getLsbD_eq_getElem, ballotE] <;> rfl

theorem rdfirst (d : RegName) (a : RegName) (ta : Bool) : Statement (.rdfirst d a ta) := by
  rintro - w ⟨⟩
  unfold decode
  rw [fop_fmtA]
  exact regs2_fmtA ..

theorem rdlane (d : RegName) (a : RegName) (b : RegName) (ta : Bool) (tb : Bool) : Statement (.rdlane d a b ta tb) := by
  rintro - w ⟨⟩
  unfold decode
  rw [fop_fmtA]
  exact regs3_fmtA ..

theorem wrlane (d : RegName) (a : RegName) (b : RegName) (ta : Bool) (tb : Bool) (k : Bool) : Statement (.wrlane d a b ta tb k) := by
  rintro - w ⟨⟩
  unfold decode
  rw [fop_fmtA]
  exact regs3k_fmtA ..

theorem matchLanes (d : RegName) (a : RegName) (ta : Bool) : Statement (.matchLanes d a ta) := by
  rintro - w ⟨⟩
  unfold decode
  rw [fop_fmtA]
  exact regs2_fmtA ..

theorem reduce (d : RegName) (a : RegName) (op : LaneOp) (ta : Bool) : Statement (.reduce d a op ta) := by
  rintro - w ⟨⟩
  unfold decode
  rw [fop_fmtE]
  refine (?_ : (reduceE (fmtE 0x8A d a (0#3 ++ op.code) ta 0) : Except DecodeError Instr) = _)
  cases op <;> simp [-BitVec.getLsbD_eq_getElem, reduceE] <;> rfl

theorem scan (d : RegName) (a : RegName) (ex : Bool) (op : LaneOp) (ta : Bool) : Statement (.scan d a ex op ta) := by
  rintro - w ⟨⟩
  unfold decode
  rw [fop_fmtE]
  refine (?_ : (scanE (fmtE 0x8B d a (0#2 ++ bit ex ++ op.code) ta 0) : Except DecodeError Instr) = _)
  cases ex <;> cases op <;> simp [-BitVec.getLsbD_eq_getElem, scanE] <;> rfl

theorem aff (d : RegName) (a : RegName) (b : RegName) (ta : Bool) (tb : Bool) : Statement (.aff d a b ta tb) := by
  rintro - w ⟨⟩
  unfold decode
  rw [fop_fmtA]
  exact regs3_fmtA ..

theorem shape (d : RegName) (a : RegName) (ta : Bool) : Statement (.shape d a ta) := by
  rintro - w ⟨⟩
  unfold decode
  rw [fop_fmtA]
  exact regs2_fmtA ..

theorem gen (d : RegName) (a : RegName) (ta : Bool) : Statement (.gen d a ta) := by
  rintro - w ⟨⟩
  unfold decode
  rw [fop_fmtA]
  exact regs2_fmtA ..

theorem uni (d : RegName) (a : RegName) (ta : Bool) : Statement (.uni d a ta) := by
  rintro - w ⟨⟩
  unfold decode
  rw [fop_fmtA]
  exact regs2_fmtA ..

theorem ld (d : RegName) (a : RegName) (sz : AccSize) (off : BitVec 6) (ta : Bool) : Statement (.ld d a sz off ta) := by
  rintro - w ⟨⟩
  unfold decode
  rw [fop_fmtM]
  exact loadM_fmtM ..

theorem st (d : RegName) (a : RegName) (sz : AccSize) (off : BitVec 6) (ta : Bool) (k : Bool) : Statement (.st d a sz off ta k) := by
  rintro - w ⟨⟩
  unfold decode
  rw [fop_fmtM]
  exact storeM_fmtM ..

theorem ldb (d : RegName) (a : RegName) (sx : Bool) (off : BitVec 6) (ta : Bool) : Statement (.ldb d a sx off ta) := by
  rintro - w ⟨⟩
  unfold decode
  rw [fop_fmtM]
  refine (?_ : (if (fmtM 0xA2 d a (0#1 ++ bit sx) off ta false).getLsbD 9 || fk (fmtM 0xA2 d a (0#1 ++ bit sx) off ta false) then .error .reservedField else .ok (.ldb (fd (fmtM 0xA2 d a (0#1 ++ bit sx) off ta false)) (fa (fmtM 0xA2 d a (0#1 ++ bit sx) off ta false)) ((fmtM 0xA2 d a (0#1 ++ bit sx) off ta false).getLsbD 8) (foff6 (fmtM 0xA2 d a (0#1 ++ bit sx) off ta false)) ((fmtM 0xA2 d a (0#1 ++ bit sx) off ta false).getLsbD 1)) : Except DecodeError Instr) = _)
  cases sx <;> simp [-BitVec.getLsbD_eq_getElem] <;> rfl

theorem stb (d : RegName) (a : RegName) (off : BitVec 6) (ta : Bool) (k : Bool) : Statement (.stb d a off ta k) := by
  rintro - w ⟨⟩
  unfold decode
  rw [fop_fmtM]
  refine (?_ : (if fsz (fmtM 0xA3 d a 0 off ta k) ≠ 0 then .error .reservedField else .ok (.stb (fd (fmtM 0xA3 d a 0 off ta k)) (fa (fmtM 0xA3 d a 0 off ta k)) (foff6 (fmtM 0xA3 d a 0 off ta k)) ((fmtM 0xA3 d a 0 off ta k).getLsbD 1) (fk (fmtM 0xA3 d a 0 off ta k))) : Except DecodeError Instr) = _)
  simp [-BitVec.getLsbD_eq_getElem]

theorem lds (d : RegName) (a : RegName) (sz : AccSize) (off : BitVec 6) (ta : Bool) : Statement (.lds d a sz off ta) := by
  rintro - w ⟨⟩
  unfold decode
  rw [fop_fmtM]
  exact loadM_fmtM ..

theorem sts (d : RegName) (a : RegName) (sz : AccSize) (off : BitVec 6) (ta : Bool) (k : Bool) : Statement (.sts d a sz off ta k) := by
  rintro - w ⟨⟩
  unfold decode
  rw [fop_fmtM]
  exact storeM_fmtM ..

theorem ldw (d : RegName) (a : RegName) (sz : AccSize) (off : BitVec 6) (ta : Bool) : Statement (.ldw d a sz off ta) := by
  rintro - w ⟨⟩
  unfold decode
  rw [fop_fmtM]
  exact loadM_fmtM ..

theorem stw (d : RegName) (a : RegName) (sz : AccSize) (off : BitVec 6) (ta : Bool) (k : Bool) : Statement (.stw d a sz off ta k) := by
  rintro - w ⟨⟩
  unfold decode
  rw [fop_fmtM]
  exact storeM_fmtM ..

theorem atom (d : RegName) (a : RegName) (home : Bool) (op : AtomOp) (ta : Bool) (w64 : Bool) : Statement (.atom d a home op ta w64) := by
  rintro - w ⟨⟩
  unfold decode
  rw [fop_fmtE]
  refine (?_ : (atomE (fmtE 0xA8 d a (bit home ++ op.code) ta (0#2 ++ bit w64)) .atom : Except DecodeError Instr) = _)
  cases home <;> cases op <;> cases w64 <;> simp [-BitVec.getLsbD_eq_getElem, atomE] <;> rfl

theorem red (d : RegName) (a : RegName) (op : AtomOp) (ta : Bool) (w64 : Bool) : Statement (.red d a op ta w64) := by
  rintro hw w ⟨⟩
  unfold decode
  rw [fop_fmtE]
  refine (?_ : (redE (fmtE 0xA9 d a (0#1 ++ op.code) ta (0#2 ++ bit w64)) : Except DecodeError Instr) = _)
  cases op <;> cases w64 <;> simp [-BitVec.getLsbD_eq_getElem, Instr.wellFormed] at hw <;> simp [-BitVec.getLsbD_eq_getElem, redE] <;> rfl

theorem atoms (d : RegName) (a : RegName) (win : Bool) (op : AtomOp) (ta : Bool) (w64 : Bool) : Statement (.atoms d a win op ta w64) := by
  rintro - w ⟨⟩
  unfold decode
  rw [fop_fmtE]
  refine (?_ : (atomE (fmtE 0xAA d a (bit win ++ op.code) ta (0#2 ++ bit w64)) .atoms : Except DecodeError Instr) = _)
  cases win <;> cases op <;> cases w64 <;> simp [-BitVec.getLsbD_eq_getElem, atomE] <;> rfl

theorem pref (a : RegName) (sz : AccSize) (off : BitVec 6) (ta : Bool) : Statement (.pref a sz off ta) := by
  rintro - w ⟨⟩
  unfold decode
  rw [fop_fmtM]
  refine (?_ : (if fd (fmtM 0xAB 0 a sz.code off ta false) ≠ 0 || fk (fmtM 0xAB 0 a sz.code off ta false) then .error .reservedField else .ok (.pref (fa (fmtM 0xAB 0 a sz.code off ta false)) (.ofCode (fsz (fmtM 0xAB 0 a sz.code off ta false))) (foff6 (fmtM 0xAB 0 a sz.code off ta false)) ((fmtM 0xAB 0 a sz.code off ta false).getLsbD 1)) : Except DecodeError Instr) = _)
  cases sz <;> simp [-BitVec.getLsbD_eq_getElem] <;> rfl

theorem ldone (d : RegName) (a : RegName) (sz : AccSize) (off : BitVec 6) (ta : Bool) : Statement (.ldone d a sz off ta) := by
  rintro - w ⟨⟩
  unfold decode
  rw [fop_fmtM]
  exact loadM_fmtM ..

theorem wopen (d : RegName) (a : RegName) (sw : Bool) (ta : Bool) : Statement (.wopen d a sw ta) := by
  rintro - w ⟨⟩
  unfold decode
  rw [fop_fmtB]
  refine (?_ : (if (fmtB 0xAD d a (0#7 ++ bit sw) ta false).extractLsb' 3 7 ≠ 0 || fk (fmtB 0xAD d a (0#7 ++ bit sw) ta false) then .error .reservedField else .ok (.wopen (fd (fmtB 0xAD d a (0#7 ++ bit sw) ta false)) (fa (fmtB 0xAD d a (0#7 ++ bit sw) ta false)) ((fmtB 0xAD d a (0#7 ++ bit sw) ta false).getLsbD 2) ((fmtB 0xAD d a (0#7 ++ bit sw) ta false).getLsbD 1)) : Except DecodeError Instr) = _)
  cases sw <;> simp [-BitVec.getLsbD_eq_getElem] <;> rfl

theorem wclose (a : RegName) (ta : Bool) : Statement (.wclose a ta) := by
  rintro - w ⟨⟩
  unfold decode
  rw [fop_fmtA]
  exact regs1_fmtA ..

theorem fence (scope : Scope) : Statement (.fence scope) := by
  rintro - w ⟨⟩
  unfold decode
  rw [fop_fmtC]
  exact (imm3C_fmtC ..).trans (by cases scope <;> rfl)

theorem waitc (a : RegName) (b : RegName) (ta : Bool) (tb : Bool) : Statement (.waitc a b ta tb) := by
  rintro - w ⟨⟩
  unfold decode
  rw [fop_fmtA]
  exact regs2s_fmtA ..

theorem ticket (d : RegName) (a : RegName) (ta : Bool) : Statement (.ticket d a ta) := by
  rintro - w ⟨⟩
  unfold decode
  rw [fop_fmtA]
  exact regs2_fmtA ..

theorem serve (a : RegName) (ta : Bool) : Statement (.serve a ta) := by
  rintro - w ⟨⟩
  unfold decode
  rw [fop_fmtA]
  exact regs1_fmtA ..

theorem waitt (a : RegName) (b : RegName) (ta : Bool) (tb : Bool) : Statement (.waitt a b ta tb) := by
  rintro - w ⟨⟩
  unfold decode
  rw [fop_fmtA]
  exact regs2s_fmtA ..

theorem taskdec (a : RegName) (n : BitVec 8) (ta : Bool) : Statement (.taskdec a n ta) := by
  rintro - w ⟨⟩
  unfold decode
  rw [fop_fmtB]
  refine (?_ : (if fd (fmtB 0xC5 0 a n ta false) ≠ 0 || fk (fmtB 0xC5 0 a n ta false) then .error .reservedField else .ok (.taskdec (fa (fmtB 0xC5 0 a n ta false)) (fimm8 (fmtB 0xC5 0 a n ta false)) ((fmtB 0xC5 0 a n ta false).getLsbD 1)) : Except DecodeError Instr) = _)
  simp [-BitVec.getLsbD_eq_getElem]

theorem mcfg (a : RegName) (ta : Bool) : Statement (.mcfg a ta) := by
  rintro - w ⟨⟩
  unfold decode
  rw [fop_fmtA]
  exact regs1_fmtA ..

theorem mma (a : RegName) (ta : Bool) : Statement (.mma a ta) := by
  rintro - w ⟨⟩
  unfold decode
  rw [fop_fmtA]
  exact regs1_fmtA ..

theorem mloop (a : RegName) (ta : Bool) : Statement (.mloop a ta) := by
  rintro - w ⟨⟩
  unfold decode
  rw [fop_fmtA]
  exact regs1_fmtA ..

theorem mrd (d : RegName) (a : RegName) (b : RegName) (ta : Bool) (tb : Bool) : Statement (.mrd d a b ta tb) := by
  rintro - w ⟨⟩
  unfold decode
  rw [fop_fmtA]
  exact regs3_fmtA ..

theorem mwr (d : RegName) (a : RegName) (b : RegName) (ta : Bool) (tb : Bool) (k : Bool) : Statement (.mwr d a b ta tb k) := by
  rintro - w ⟨⟩
  unfold decode
  rw [fop_fmtA]
  exact regs3k_fmtA ..

theorem mclr (a : RegName) (ta : Bool) : Statement (.mclr a ta) := by
  rintro - w ⟨⟩
  unfold decode
  rw [fop_fmtA]
  exact regs1_fmtA ..

theorem mcvt (d : RegName) (a : RegName) (target : TileType) (ta : Bool) : Statement (.mcvt d a target ta) := by
  rintro - w ⟨⟩
  unfold decode
  rw [fop_fmtE]
  refine (?_ : (mcvtE (fmtE 0xD6 d a (0#1 ++ target.type.code) ta 0) : Except DecodeError Instr) = _)
  cases target <;> simp [-BitVec.getLsbD_eq_getElem, mcvtE] <;> rfl

theorem copy (a : RegName) (ta : Bool) : Statement (.copy a ta) := by
  rintro - w ⟨⟩
  unfold decode
  rw [fop_fmtA]
  exact regs1_fmtA ..

theorem copyt (a : RegName) (ta : Bool) : Statement (.copyt a ta) := by
  rintro - w ⟨⟩
  unfold decode
  rw [fop_fmtA]
  exact regs1_fmtA ..

theorem bin (a : RegName) (ta : Bool) : Statement (.bin a ta) := by
  rintro - w ⟨⟩
  unfold decode
  rw [fop_fmtA]
  exact regs1_fmtA ..

theorem dice (a : RegName) (ta : Bool) : Statement (.dice a ta) := by
  rintro - w ⟨⟩
  unfold decode
  rw [fop_fmtA]
  exact regs1_fmtA ..

theorem gld (d : RegName) (a : RegName) (sz : AccSize) (off : BitVec 6) (ta : Bool) : Statement (.gld d a sz off ta) := by
  rintro - w ⟨⟩
  unfold decode
  rw [fop_fmtM]
  exact loadM_fmtM ..

theorem gst (d : RegName) (a : RegName) (sz : AccSize) (off : BitVec 6) (ta : Bool) (k : Bool) : Statement (.gst d a sz off ta k) := by
  rintro - w ⟨⟩
  unfold decode
  rw [fop_fmtM]
  exact storeM_fmtM ..

theorem rast5 (d : RegName) (a : RegName) (b : RegName) (ta : Bool) (tb : Bool) : Statement (.rast5 d a b ta tb) := by
  rintro - w ⟨⟩
  unfold decode
  rw [fop_fmtA]
  exact regs3_fmtA ..

theorem rast3 (d : RegName) (a : RegName) (b : RegName) (ta : Bool) (tb : Bool) : Statement (.rast3 d a b ta tb) := by
  rintro - w ⟨⟩
  unfold decode
  rw [fop_fmtA]
  exact regs3_fmtA ..

theorem swr (d : RegName) (a : RegName) (ta : Bool) (k : Bool) : Statement (.swr d a ta k) := by
  rintro - w ⟨⟩
  unfold decode
  rw [fop_fmtA]
  exact regs2k_fmtA ..

theorem resolve (a : RegName) (ta : Bool) : Statement (.resolve a ta) := by
  rintro - w ⟨⟩
  unfold decode
  rw [fop_fmtA]
  exact regs1_fmtA ..

theorem trace (d : RegName) (a : RegName) (b : RegName) (ta : Bool) (tb : Bool) : Statement (.trace d a b ta tb) := by
  rintro - w ⟨⟩
  unfold decode
  rw [fop_fmtA]
  exact regs3_fmtA ..

theorem regroup (d : RegName) (a : RegName) (ta : Bool) (k : Bool) : Statement (.regroup d a ta k) := by
  rintro - w ⟨⟩
  unfold decode
  rw [fop_fmtA]
  exact regs2k_fmtA ..

theorem enq (a : RegName) (ta : Bool) : Statement (.enq a ta) := by
  rintro - w ⟨⟩
  unfold decode
  rw [fop_fmtA]
  exact regs1_fmtA ..

theorem sample (d : RegName) (a : RegName) (b : RegName) (ta : Bool) (tb : Bool) : Statement (.sample d a b ta tb) := by
  rintro - w ⟨⟩
  unfold decode
  rw [fop_fmtA]
  exact regs3_fmtA ..

theorem sampleg (d : RegName) (a : RegName) (b : RegName) (ta : Bool) (tb : Bool) : Statement (.sampleg d a b ta tb) := by
  rintro - w ⟨⟩
  unfold decode
  rw [fop_fmtA]
  exact regs3_fmtA ..

theorem bktOpen (d : RegName) (a : RegName) (ta : Bool) : Statement (.bktOpen d a ta) := by
  rintro - w ⟨⟩
  unfold decode
  rw [fop_fmtA]
  refine (?_ : (bktA (fmtA 0xED d a 0 ta false false) : Except DecodeError Instr) = _)
  simp [-BitVec.getLsbD_eq_getElem, bktA]

theorem bktSeal (a : RegName) (ta : Bool) : Statement (.bktSeal a ta) := by
  rintro - w ⟨⟩
  unfold decode
  rw [fop_fmtA]
  refine (?_ : (bktA (fmtA 0xED 0 a 1 ta false false) : Except DecodeError Instr) = _)
  simp [-BitVec.getLsbD_eq_getElem, bktA]

theorem bktClaim (d : RegName) (a : RegName) (ta : Bool) : Statement (.bktClaim d a ta) := by
  rintro - w ⟨⟩
  unfold decode
  rw [fop_fmtA]
  refine (?_ : (bktA (fmtA 0xED d a 2 ta false false) : Except DecodeError Instr) = _)
  simp [-BitVec.getLsbD_eq_getElem, bktA]

theorem bktClose (d : RegName) (a : RegName) (ta : Bool) : Statement (.bktClose d a ta) := by
  rintro - w ⟨⟩
  unfold decode
  rw [fop_fmtA]
  refine (?_ : (bktA (fmtA 0xED d a 3 ta false false) : Except DecodeError Instr) = _)
  simp [-BitVec.getLsbD_eq_getElem, bktA]

theorem bktFree (a : RegName) (ta : Bool) : Statement (.bktFree a ta) := by
  rintro - w ⟨⟩
  unfold decode
  rw [fop_fmtA]
  refine (?_ : (bktA (fmtA 0xED 0 a 4 ta false false) : Except DecodeError Instr) = _)
  simp [-BitVec.getLsbD_eq_getElem, bktA]

theorem xst (d : RegName) (a : RegName) (b : RegName) (ta : Bool) (tb : Bool) (k : Bool) : Statement (.xst d a b ta tb k) := by
  rintro - w ⟨⟩
  unfold decode
  rw [fop_fmtA]
  exact regs3k_fmtA ..

theorem present (a : RegName) (ta : Bool) : Statement (.present a ta) := by
  rintro - w ⟨⟩
  unfold decode
  rw [fop_fmtA]
  exact regs1_fmtA ..

theorem csrr (d : RegName) (csr : BitVec 12) : Statement (.csrr d csr) := by
  rintro - w ⟨⟩
  unfold decode
  rw [fop_fmtS]
  refine (?_ : (if (fmtS 0xF2 d csr 0).extractLsb' 0 5 ≠ 0 then .error .reservedField else .ok (.csrr (fd (fmtS 0xF2 d csr 0)) ((fmtS 0xF2 d csr 0).extractLsb' 5 12)) : Except DecodeError Instr) = _)
  simp [-BitVec.getLsbD_eq_getElem]

theorem csrw (d : RegName) (csr : BitVec 12) (k : Bool) : Statement (.csrw d csr k) := by
  rintro - w ⟨⟩
  unfold decode
  rw [fop_fmtS]
  refine (?_ : (if (fmtS 0xF3 d csr (0#4 ++ bit k)).extractLsb' 1 4 ≠ 0 then .error .reservedField else .ok (.csrw (fd (fmtS 0xF3 d csr (0#4 ++ bit k))) ((fmtS 0xF3 d csr (0#4 ++ bit k)).extractLsb' 5 12) ((fmtS 0xF3 d csr (0#4 ++ bit k)).getLsbD 0)) : Except DecodeError Instr) = _)
  cases k <;> simp [-BitVec.getLsbD_eq_getElem] <;> rfl

theorem trap (n : BitVec 16) : Statement (.trap n) := by
  rintro - w ⟨⟩
  unfold decode
  rw [fop_fmtC]
  exact imm16C_fmtC ..

theorem rft (next : Bool) : Statement (.rft next) := by
  rintro - w ⟨⟩
  unfold decode
  rw [fop_fmtC]
  refine (?_ : (if fd (fmtC 0xF5 0 (0#15 ++ bit next) false) ≠ 0 || fk (fmtC 0xF5 0 (0#15 ++ bit next) false) || (fmtC 0xF5 0 (0#15 ++ bit next) false).extractLsb' 2 15 ≠ 0 then .error .reservedField else .ok (.rft ((fmtC 0xF5 0 (0#15 ++ bit next) false).getLsbD 1)) : Except DecodeError Instr) = _)
  cases next <;> simp [-BitVec.getLsbD_eq_getElem] <;> rfl

theorem save (a : RegName) (ta : Bool) : Statement (.save a ta) := by
  rintro - w ⟨⟩
  unfold decode
  rw [fop_fmtA]
  exact regs1_fmtA ..

theorem rest (a : RegName) (ta : Bool) : Statement (.rest a ta) := by
  rintro - w ⟨⟩
  unfold decode
  rw [fop_fmtA]
  exact regs1_fmtA ..

theorem watchdog (g : Nat) : Statement (.watchdog g) :=
  fun _ _ h => nomatch h

theorem sleepExpiry (g : Nat) (slotB : Bool) : Statement (.sleepExpiry g slotB) :=
  fun _ _ h => nomatch h

theorem forcedSwitch (g : Nat) : Statement (.forcedSwitch g) :=
  fun _ _ h => nomatch h

theorem producerComplete (g : Nat) (id : Nat) : Statement (.producerComplete g id) :=
  fun _ _ h => nomatch h

theorem windowCommit (g : Nat) : Statement (.windowCommit g) :=
  fun _ _ h => nomatch h

theorem anchorGrant (g : Nat) (line : Nat) : Statement (.anchorGrant g line) :=
  fun _ _ h => nomatch h

theorem anchorTimeout (g : Nat) : Statement (.anchorTimeout g) :=
  fun _ _ h => nomatch h

theorem atomHoldTimeout (g : Nat) : Statement (.atomHoldTimeout g) :=
  fun _ _ h => nomatch h

theorem ownershipRequest (core : Nat) (line : Nat) : Statement (.ownershipRequest core line) :=
  fun _ _ h => nomatch h

theorem ownershipGrant (core : Nat) (line : Nat) : Statement (.ownershipGrant core line) :=
  fun _ _ h => nomatch h

theorem invalidation (holder : Nat) (line : Nat) : Statement (.invalidation holder line) :=
  fun _ _ h => nomatch h

theorem invalidationAcknowledgement (core : Nat) (line : Nat) : Statement (.invalidationAcknowledgement core line) :=
  fun _ _ h => nomatch h

theorem homeAtomicPerform (g : Nat) : Statement (.homeAtomicPerform g) :=
  fun _ _ h => nomatch h

theorem activeMessage (core : Nat) : Statement (.activeMessage core) :=
  fun _ _ h => nomatch h

theorem monitorWake (line : Nat) : Statement (.monitorWake line) :=
  fun _ _ h => nomatch h

theorem monitorRecheck (g : Nat) (slotB : Bool) : Statement (.monitorRecheck g slotB) :=
  fun _ _ h => nomatch h

theorem engineOpStart (id : Nat) : Statement (.engineOpStart id) :=
  fun _ _ h => nomatch h

theorem singlePoint (id : Nat) : Statement (.singlePoint id) :=
  fun _ _ h => nomatch h

theorem diceService (die : Nat) (cluster : Nat) : Statement (.diceService die cluster) :=
  fun _ _ h => nomatch h

theorem binPerform (id : Nat) : Statement (.binPerform id) :=
  fun _ _ h => nomatch h

theorem poolLimitWake (addr : Nat) : Statement (.poolLimitWake addr) :=
  fun _ _ h => nomatch h

theorem frameSealEffect (vf : Nat) (dev : Nat) (h : Nat) : Statement (.frameSealEffect vf dev h) :=
  fun _ _ h => nomatch h

theorem resolveStart (id : Nat) : Statement (.resolveStart id) :=
  fun _ _ h => nomatch h

theorem resolveComplete (id : Nat) : Statement (.resolveComplete id) :=
  fun _ _ h => nomatch h

theorem bucketReturn (team : Nat) : Statement (.bucketReturn team) :=
  fun _ _ h => nomatch h

theorem remainingCountUpdate (die : Nat) (src : Nat) : Statement (.remainingCountUpdate die src) :=
  fun _ _ h => nomatch h

theorem stealServe (die : Nat) : Statement (.stealServe die) :=
  fun _ _ h => nomatch h

theorem stealComplete (die : Nat) : Statement (.stealComplete die) :=
  fun _ _ h => nomatch h

theorem teamPlacement (launch : Nat) : Statement (.teamPlacement launch) :=
  fun _ _ h => nomatch h

theorem reservationTimeout (launch : Nat) : Statement (.reservationTimeout launch) :=
  fun _ _ h => nomatch h

theorem queueRowLaunch (launch : Nat) (die : Nat) (queue : Nat) : Statement (.queueRowLaunch launch die queue) :=
  fun _ _ h => nomatch h

theorem rowAgeLimit (launch : Nat) (die : Nat) (queue : Nat) : Statement (.rowAgeLimit launch die queue) :=
  fun _ _ h => nomatch h

theorem pipelineDrain (launch : Nat) : Statement (.pipelineDrain launch) :=
  fun _ _ h => nomatch h

theorem swapOut (team : Nat) : Statement (.swapOut team) :=
  fun _ _ h => nomatch h

theorem preemptDecision (launch : Nat) : Statement (.preemptDecision launch) :=
  fun _ _ h => nomatch h

theorem preempt (team : Nat) : Statement (.preempt team) :=
  fun _ _ h => nomatch h

theorem teamSaveDone (team : Nat) : Statement (.teamSaveDone team) :=
  fun _ _ h => nomatch h

theorem teamRestore (team : Nat) : Statement (.teamRestore team) :=
  fun _ _ h => nomatch h

theorem leaveGrant (die : Nat) : Statement (.leaveGrant die) :=
  fun _ _ h => nomatch h

theorem traceBurstIdle (core : Nat) : Statement (.traceBurstIdle core) :=
  fun _ _ h => nomatch h

theorem arbiterGrant (arb : Nat) : Statement (.arbiterGrant arb) :=
  fun _ _ h => nomatch h

theorem meshOutputArbitration (output : Nat) : Statement (.meshOutputArbitration output) :=
  fun _ _ h => nomatch h

theorem headPromoted (output : Nat) (input : Nat) : Statement (.headPromoted output input) :=
  fun _ _ h => nomatch h

theorem wayReclaimEviction (slice : Nat) : Statement (.wayReclaimEviction slice) :=
  fun _ _ h => nomatch h

theorem invalidateDone (vf : Nat) : Statement (.invalidateDone vf) :=
  fun _ _ h => nomatch h

theorem faultPost (vf : Nat) : Statement (.faultPost vf) :=
  fun _ _ h => nomatch h

theorem heatFlush (die : Nat) (idx : Nat) : Statement (.heatFlush die idx) :=
  fun _ _ h => nomatch h

theorem linePacketReceive (p : LineReceipt) : Statement (.linePacketReceive p) :=
  fun _ _ h => nomatch h

theorem resync (dir : Nat) : Statement (.resync dir) :=
  fun _ _ h => nomatch h

theorem oppPathSwitch (die : Nat) : Statement (.oppPathSwitch die) :=
  fun _ _ h => nomatch h

theorem startupStageDone (ok : Bool) : Statement (.startupStageDone ok) :=
  fun _ _ h => nomatch h

theorem tailLineInvalidate (vf : Nat) (q : Nat) : Statement (.tailLineInvalidate vf q) :=
  fun _ _ h => nomatch h

theorem abortDone (vf : Nat) (q : Nat) : Statement (.abortDone vf q) :=
  fun _ _ h => nomatch h

theorem launch (vf : Nat) (q : Nat) : Statement (.launch vf q) :=
  fun _ _ h => nomatch h

theorem signal (vf : Nat) (q : Nat) : Statement (.signal vf q) :=
  fun _ _ h => nomatch h

theorem waitmem (vf : Nat) (q : Nat) : Statement (.waitmem vf q) :=
  fun _ _ h => nomatch h

theorem counter (vf : Nat) (q : Nat) : Statement (.counter vf q) :=
  fun _ _ h => nomatch h

theorem nopRecord (vf : Nat) (q : Nat) : Statement (.nopRecord vf q) :=
  fun _ _ h => nomatch h

theorem recordStart (vf : Nat) (q : Nat) (seq : Nat) : Statement (.recordStart vf q seq) :=
  fun _ _ h => nomatch h

theorem launchComplete (launch : Nat) : Statement (.launchComplete launch) :=
  fun _ _ h => nomatch h

theorem completionWrite (vf : Nat) (q : Nat) : Statement (.completionWrite vf q) :=
  fun _ _ h => nomatch h

theorem illegalOpcode (w : Word) : Statement (.illegalOpcode w) :=
  fun _ _ h => nomatch h

theorem pcieReadReturn (g : Nat) : Statement (.pcieReadReturn g) :=
  fun _ _ h => nomatch h

theorem badOpRecord (vf : Nat) (q : Nat) : Statement (.badOpRecord vf q) :=
  fun _ _ h => nomatch h

theorem invalidate (vf : Nat) : Statement (.invalidate vf) :=
  fun _ _ h => nomatch h

theorem translationResume (vf : Nat) (tag : Nat) : Statement (.translationResume vf tag) :=
  fun _ _ h => nomatch h

theorem mrtailWrite (v : Nat) : Statement (.mrtailWrite v) :=
  fun _ _ h => nomatch h

theorem patrolScrub (line : Nat) (outcome : Nat) : Statement (.patrolScrub line outcome) :=
  fun _ _ h => nomatch h

theorem dieLinkFlitCrcFail (link : Nat) : Statement (.dieLinkFlitCrcFail link) :=
  fun _ _ h => nomatch h

theorem linkRetrain (link : Nat) : Statement (.linkRetrain link) :=
  fun _ _ h => nomatch h

theorem linkRetrainDone (link : Nat) : Statement (.linkRetrainDone link) :=
  fun _ _ h => nomatch h

theorem linkOutOfService (link : Nat) : Statement (.linkOutOfService link) :=
  fun _ _ h => nomatch h

theorem linePacketSend (p : LineSend) (line : BitVec 1024) : Statement (.linePacketSend p line) :=
  fun _ _ h => nomatch h

theorem cumulativeAcknowledgement (dir : Nat) (seq : Nat) : Statement (.cumulativeAcknowledgement dir seq) :=
  fun _ _ h => nomatch h

theorem dlctlWrite (link : Nat) (v : Nat) : Statement (.dlctlWrite link v) :=
  fun _ _ h => nomatch h

theorem fabricFlitCrcFail (port : Nat) : Statement (.fabricFlitCrcFail port) :=
  fun _ _ h => nomatch h

theorem xstArrival (header : BitVec 128) (payload : List Word) : Statement (.xstArrival header payload) :=
  fun _ _ h => nomatch h

theorem xack (src : Nat) (seq : Nat) : Statement (.xack src seq) :=
  fun _ _ h => nomatch h

theorem arrive (header : BitVec 512) : Statement (.arrive header) :=
  fun _ _ h => nomatch h

theorem release (header : BitVec 512) : Statement (.release header) :=
  fun _ _ h => nomatch h

theorem repeatDecision (header : BitVec 512) : Statement (.repeatDecision header) :=
  fun _ _ h => nomatch h

theorem time (header : BitVec 512) : Statement (.time header) :=
  fun _ _ h => nomatch h

theorem headerFlitDiscard (header : BitVec 128) : Statement (.headerFlitDiscard header) :=
  fun _ _ h => nomatch h

theorem frouteWrite (dev : Nat) (v : Nat) : Statement (.frouteWrite dev v) :=
  fun _ _ h => nomatch h

theorem thermalThrottle (die : Nat) : Statement (.thermalThrottle die) :=
  fun _ _ h => nomatch h

theorem thermalThrottleEnd (die : Nat) : Statement (.thermalThrottleEnd die) :=
  fun _ _ h => nomatch h

theorem dpctlWrite (port : Nat) (v : Nat) : Statement (.dpctlWrite port v) :=
  fun _ _ h => nomatch h

theorem dpLinkTrained (port : Nat) : Statement (.dpLinkTrained port) :=
  fun _ _ h => nomatch h

theorem dpLinkLost (port : Nat) : Statement (.dpLinkLost port) :=
  fun _ _ h => nomatch h

theorem line0Start (port : Nat) : Statement (.line0Start port) :=
  fun _ _ h => nomatch h

theorem latchLine (port : Nat) : Statement (.latchLine port) :=
  fun _ _ h => nomatch h

theorem bandWindowOpen (port : Nat) (band : Nat) : Statement (.bandWindowOpen port band) :=
  fun _ _ h => nomatch h

theorem bandDeadline (port : Nat) (band : Nat) : Statement (.bandDeadline port band) :=
  fun _ _ h => nomatch h

theorem genlockLocked (r : GenlockEdge) : Statement (.genlockLocked r) :=
  fun _ _ h => nomatch h

theorem genlockLost (port : Nat) : Statement (.genlockLost port) :=
  fun _ _ h => nomatch h

theorem doorbellWrite (vf : Nat) (q : Nat) (v : Nat) : Statement (.doorbellWrite vf q v) :=
  fun _ _ h => nomatch h

theorem queueEnable (vf : Nat) (q : Nat) : Statement (.queueEnable vf q) :=
  fun _ _ h => nomatch h

theorem destroy (vf : Nat) (q : Nat) : Statement (.destroy vf q) :=
  fun _ _ h => nomatch h

theorem abort (vf : Nat) (q : Nat) : Statement (.abort vf q) :=
  fun _ _ h => nomatch h

theorem resume (vf : Nat) (q : Nat) : Statement (.resume vf q) :=
  fun _ _ h => nomatch h

theorem ackedWrite (vf : Nat) (q : Nat) (v : Nat) : Statement (.ackedWrite vf q v) :=
  fun _ _ h => nomatch h

theorem vfFunctionLevelReset (vf : Nat) : Statement (.vfFunctionLevelReset vf) :=
  fun _ _ h => nomatch h

theorem securityAlarm (cause : Nat) : Statement (.securityAlarm cause) :=
  fun _ _ h => nomatch h

theorem firmwareRemeasurement (ok : Bool) : Statement (.firmwareRemeasurement ok) :=
  fun _ _ h => nomatch h

theorem spdmRequest (code : Nat) : Statement (.spdmRequest code) :=
  fun _ _ h => nomatch h

theorem hostCxlCacheAccess (addr : Nat) (write : Bool) (data : List Byte) : Statement (.hostCxlCacheAccess addr write data) :=
  fun _ _ h => nomatch h

theorem hostCxlMemAccess (addr : Nat) (write : Bool) (data : List Byte) : Statement (.hostCxlMemAccess addr write data) :=
  fun _ _ h => nomatch h

theorem bar2Access (addr : Nat) (write : Bool) (data : List Byte) : Statement (.bar2Access addr write data) :=
  fun _ _ h => nomatch h

theorem vfbindWrite (owner : Nat) (v : Nat) : Statement (.vfbindWrite owner v) :=
  fun _ _ h => nomatch h

theorem shareEntryWrite (off : Nat) (v : Nat) : Statement (.shareEntryWrite off v) :=
  fun _ _ h => nomatch h

theorem taskallotWrite (vf : Nat) (v : Nat) : Statement (.taskallotWrite vf v) :=
  fun _ _ h => nomatch h

theorem vfmodeWrite (vf : Nat) (v : Nat) : Statement (.vfmodeWrite vf v) :=
  fun _ _ h => nomatch h

theorem boothallotWrite (vf : Nat) (v : Nat) : Statement (.boothallotWrite vf v) :=
  fun _ _ h => nomatch h

theorem savecntWrite (vf : Nat) (v : Nat) : Statement (.savecntWrite vf v) :=
  fun _ _ h => nomatch h

theorem registerWrite (off : Nat) (v : Nat) : Statement (.registerWrite off v) :=
  fun _ _ h => nomatch h

theorem frheadWrite (vf : Nat) (v : Nat) : Statement (.frheadWrite vf v) :=
  fun _ _ h => nomatch h

theorem mailboxBadCommand (code : Nat) : Statement (.mailboxBadCommand code) :=
  fun _ _ h => nomatch h

theorem taskDecrement : Statement .taskDecrement :=
  fun _ _ h => nomatch h

theorem epochBoundary : Statement .epochBoundary :=
  fun _ _ h => nomatch h

theorem moveRelease : Statement .moveRelease :=
  fun _ _ h => nomatch h

theorem migrationRecord : Statement .migrationRecord :=
  fun _ _ h => nomatch h

theorem powerOn : Statement .powerOn :=
  fun _ _ h => nomatch h

theorem thermalTrip : Statement .thermalTrip :=
  fun _ _ h => nomatch h

theorem frameRecordRead : Statement .frameRecordRead :=
  fun _ _ h => nomatch h

theorem cutoffLine : Statement .cutoffLine :=
  fun _ _ h => nomatch h

theorem pfFunctionLevelReset : Statement .pfFunctionLevelReset :=
  fun _ _ h => nomatch h

theorem hotReset : Statement .hotReset :=
  fun _ _ h => nomatch h

theorem readLifetimeRecord : Statement .readLifetimeRecord :=
  fun _ _ h => nomatch h

theorem writeFirmwareImage : Statement .writeFirmwareImage :=
  fun _ _ h => nomatch h

theorem commitSvn : Statement .commitSvn :=
  fun _ _ h => nomatch h

theorem writeConfigurationRecord : Statement .writeConfigurationRecord :=
  fun _ _ h => nomatch h

theorem displayLinkQuery : Statement .displayLinkQuery :=
  fun _ _ h => nomatch h

theorem lifetimeRecordRewrite : Statement .lifetimeRecordRewrite :=
  fun _ _ h => nomatch h

theorem instructionFetchFault : Statement .instructionFetchFault :=
  fun _ _ h => nomatch h

theorem internalUncorrectableError : Statement .internalUncorrectableError :=
  fun _ _ h => nomatch h

theorem powerOff : Statement .powerOff :=
  fun _ _ h => nomatch h

end Laws.RoundTrip

end Sys2Proof
end

