-- ==== Sys2Proof/Laws/State.lean ====
section
/-!
SUPPORT. What each basic update of State leaves alone: one lemma for each field and update.
-/

namespace Sys2Proof.Machine

/-! ### setTeam -/

@[simp] theorem State.setTeam_cycle (s : State) (t : Team) : (s.setTeam t).cycle = s.cycle := rfl
@[simp] theorem State.setTeam_agenda (s : State) (t : Team) : (s.setTeam t).agenda = s.agenda := rfl
@[simp] theorem State.setTeam_turns (s : State) (t : Team) : (s.setTeam t).turns = s.turns := rfl
@[simp] theorem State.setTeam_cur (s : State) (t : Team) : (s.setTeam t).cur = s.cur := rfl
@[simp] theorem State.setTeam_curB (s : State) (t : Team) : (s.setTeam t).curB = s.curB := rfl
@[simp] theorem State.setTeam_draw (s : State) (t : Team) : (s.setTeam t).draw = s.draw := rfl
@[simp] theorem State.setTeam_nextId (s : State) (t : Team) : (s.setTeam t).nextId = s.nextId := rfl
@[simp] theorem State.setTeam_groups (s : State) (t : Team) : (s.setTeam t).groups = s.groups := rfl
@[simp] theorem State.setTeam_launches (s : State) (t : Team) : (s.setTeam t).launches = s.launches := rfl
@[simp] theorem State.setTeam_mem (s : State) (t : Team) : (s.setTeam t).mem = s.mem := rfl
@[simp] theorem State.setTeam_poison (s : State) (t : Team) : (s.setTeam t).poison = s.poison := rfl
@[simp] theorem State.setTeam_symErrs (s : State) (t : Team) : (s.setTeam t).symErrs = s.symErrs := rfl
@[simp] theorem State.setTeam_caches (s : State) (t : Team) : (s.setTeam t).caches = s.caches := rfl
@[simp] theorem State.setTeam_homes (s : State) (t : Team) : (s.setTeam t).homes = s.homes := rfl
@[simp] theorem State.setTeam_own (s : State) (t : Team) : (s.setTeam t).own = s.own := rfl
@[simp] theorem State.setTeam_inval (s : State) (t : Team) : (s.setTeam t).inval = s.inval := rfl
@[simp] theorem State.setTeam_tlb (s : State) (t : Team) : (s.setTeam t).tlb = s.tlb := rfl
@[simp] theorem State.setTeam_locks (s : State) (t : Team) : (s.setTeam t).locks = s.locks := rfl
@[simp] theorem State.setTeam_faults (s : State) (t : Team) : (s.setTeam t).faults = s.faults := rfl
@[simp] theorem State.setTeam_moves (s : State) (t : Team) : (s.setTeam t).moves = s.moves := rfl
@[simp] theorem State.setTeam_oddPass (s : State) (t : Team) : (s.setTeam t).oddPass = s.oddPass := rfl
@[simp] theorem State.setTeam_hot (s : State) (t : Team) : (s.setTeam t).hot = s.hot := rfl
@[simp] theorem State.setTeam_decs (s : State) (t : Team) : (s.setTeam t).decs = s.decs := rfl
@[simp] theorem State.setTeam_wins (s : State) (t : Team) : (s.setTeam t).wins = s.wins := rfl
@[simp] theorem State.setTeam_msgs (s : State) (t : Team) : (s.setTeam t).msgs = s.msgs := rfl
@[simp] theorem State.setTeam_homeAtoms (s : State) (t : Team) : (s.setTeam t).homeAtoms = s.homeAtoms := rfl
@[simp] theorem State.setTeam_booths (s : State) (t : Team) : (s.setTeam t).booths = s.booths := rfl
@[simp] theorem State.setTeam_tasks (s : State) (t : Team) : (s.setTeam t).tasks = s.tasks := rfl
@[simp] theorem State.setTeam_ops (s : State) (t : Team) : (s.setTeam t).ops = s.ops := rfl
@[simp] theorem State.setTeam_tileOps (s : State) (t : Team) : (s.setTeam t).tileOps = s.tileOps := rfl
@[simp] theorem State.setTeam_poolOrder (s : State) (t : Team) : (s.setTeam t).poolOrder = s.poolOrder := rfl
@[simp] theorem State.setTeam_msix (s : State) (t : Team) : (s.setTeam t).msix = s.msix := rfl
@[simp] theorem State.setTeam_frames (s : State) (t : Team) : (s.setTeam t).frames = s.frames := rfl
@[simp] theorem State.setTeam_stores (s : State) (t : Team) : (s.setTeam t).stores = s.stores := rfl
@[simp] theorem State.setTeam_rows (s : State) (t : Team) : (s.setTeam t).rows = s.rows := rfl
@[simp] theorem State.setTeam_cxl (s : State) (t : Team) : (s.setTeam t).cxl = s.cxl := rfl
@[simp] theorem State.setTeam_pf (s : State) (t : Team) : (s.setTeam t).pf = s.pf := rfl
@[simp] theorem State.setTeam_vfq (s : State) (t : Team) : (s.setTeam t).vfq = s.vfq := rfl
@[simp] theorem State.setTeam_queues (s : State) (t : Team) : (s.setTeam t).queues = s.queues := rfl
@[simp] theorem State.setTeam_stopped (s : State) (t : Team) : (s.setTeam t).stopped = s.stopped := rfl
@[simp] theorem State.setTeam_shares (s : State) (t : Team) : (s.setTeam t).shares = s.shares := rfl
@[simp] theorem State.setTeam_epoch (s : State) (t : Team) : (s.setTeam t).epoch = s.epoch := rfl
@[simp] theorem State.setTeam_levels (s : State) (t : Team) : (s.setTeam t).levels = s.levels := rfl
@[simp] theorem State.setTeam_requests (s : State) (t : Team) : (s.setTeam t).requests = s.requests := rfl
@[simp] theorem State.setTeam_roundRobin (s : State) (t : Team) : (s.setTeam t).roundRobin = s.roundRobin := rfl
@[simp] theorem State.setTeam_slices (s : State) (t : Team) : (s.setTeam t).slices = s.slices := rfl
@[simp] theorem State.setTeam_meshHeads (s : State) (t : Team) : (s.setTeam t).meshHeads = s.meshHeads := rfl
@[simp] theorem State.setTeam_meshOuts (s : State) (t : Team) : (s.setTeam t).meshOuts = s.meshOuts := rfl
@[simp] theorem State.setTeam_leaves (s : State) (t : Team) : (s.setTeam t).leaves = s.leaves := rfl
@[simp] theorem State.setTeam_raysIdle (s : State) (t : Team) : (s.setTeam t).raysIdle = s.raysIdle := rfl
@[simp] theorem State.setTeam_linkDirs (s : State) (t : Team) : (s.setTeam t).linkDirs = s.linkDirs := rfl
@[simp] theorem State.setTeam_linkLayers (s : State) (t : Team) : (s.setTeam t).linkLayers = s.linkLayers := rfl
@[simp] theorem State.setTeam_oppPaths (s : State) (t : Team) : (s.setTeam t).oppPaths = s.oppPaths := rfl
@[simp] theorem State.setTeam_fabWaiting (s : State) (t : Team) : (s.setTeam t).fabWaiting = s.fabWaiting := rfl
@[simp] theorem State.setTeam_fabSeq (s : State) (t : Team) : (s.setTeam t).fabSeq = s.fabSeq := rfl
@[simp] theorem State.setTeam_fabUnacked (s : State) (t : Team) : (s.setTeam t).fabUnacked = s.fabUnacked := rfl
@[simp] theorem State.setTeam_fabSent (s : State) (t : Team) : (s.setTeam t).fabSent = s.fabSent := rfl
@[simp] theorem State.setTeam_fabHeld (s : State) (t : Team) : (s.setTeam t).fabHeld = s.fabHeld := rfl
@[simp] theorem State.setTeam_fabDown (s : State) (t : Team) : (s.setTeam t).fabDown = s.fabDown := rfl
@[simp] theorem State.setTeam_fabReplays (s : State) (t : Team) : (s.setTeam t).fabReplays = s.fabReplays := rfl
@[simp] theorem State.setTeam_device (s : State) (t : Team) : (s.setTeam t).device = s.device := rfl
@[simp] theorem State.setTeam_ports (s : State) (t : Team) : (s.setTeam t).ports = s.ports := rfl
@[simp] theorem State.setTeam_presents (s : State) (t : Team) : (s.setTeam t).presents = s.presents := rfl
@[simp] theorem State.setTeam_swap (s : State) (t : Team) : (s.setTeam t).swap = s.swap := rfl
@[simp] theorem State.setTeam_mgmt (s : State) (t : Team) : (s.setTeam t).mgmt = s.mgmt := rfl
@[simp] theorem State.setTeam_reserved (s : State) (t : Team) : (s.setTeam t).reserved = s.reserved := rfl

/-! ### setGroup -/

@[simp] theorem State.setGroup_cycle (s : State) (g : Group) : (s.setGroup g).cycle = s.cycle := rfl
@[simp] theorem State.setGroup_agenda (s : State) (g : Group) : (s.setGroup g).agenda = s.agenda := rfl
@[simp] theorem State.setGroup_turns (s : State) (g : Group) : (s.setGroup g).turns = s.turns := rfl
@[simp] theorem State.setGroup_cur (s : State) (g : Group) : (s.setGroup g).cur = s.cur := rfl
@[simp] theorem State.setGroup_curB (s : State) (g : Group) : (s.setGroup g).curB = s.curB := rfl
@[simp] theorem State.setGroup_draw (s : State) (g : Group) : (s.setGroup g).draw = s.draw := rfl
@[simp] theorem State.setGroup_nextId (s : State) (g : Group) : (s.setGroup g).nextId = s.nextId := rfl
@[simp] theorem State.setGroup_teams (s : State) (g : Group) : (s.setGroup g).teams = s.teams := rfl
@[simp] theorem State.setGroup_launches (s : State) (g : Group) : (s.setGroup g).launches = s.launches := rfl
@[simp] theorem State.setGroup_mem (s : State) (g : Group) : (s.setGroup g).mem = s.mem := rfl
@[simp] theorem State.setGroup_poison (s : State) (g : Group) : (s.setGroup g).poison = s.poison := rfl
@[simp] theorem State.setGroup_symErrs (s : State) (g : Group) : (s.setGroup g).symErrs = s.symErrs := rfl
@[simp] theorem State.setGroup_caches (s : State) (g : Group) : (s.setGroup g).caches = s.caches := rfl
@[simp] theorem State.setGroup_homes (s : State) (g : Group) : (s.setGroup g).homes = s.homes := rfl
@[simp] theorem State.setGroup_own (s : State) (g : Group) : (s.setGroup g).own = s.own := rfl
@[simp] theorem State.setGroup_inval (s : State) (g : Group) : (s.setGroup g).inval = s.inval := rfl
@[simp] theorem State.setGroup_tlb (s : State) (g : Group) : (s.setGroup g).tlb = s.tlb := rfl
@[simp] theorem State.setGroup_locks (s : State) (g : Group) : (s.setGroup g).locks = s.locks := rfl
@[simp] theorem State.setGroup_faults (s : State) (g : Group) : (s.setGroup g).faults = s.faults := rfl
@[simp] theorem State.setGroup_moves (s : State) (g : Group) : (s.setGroup g).moves = s.moves := rfl
@[simp] theorem State.setGroup_oddPass (s : State) (g : Group) : (s.setGroup g).oddPass = s.oddPass := rfl
@[simp] theorem State.setGroup_hot (s : State) (g : Group) : (s.setGroup g).hot = s.hot := rfl
@[simp] theorem State.setGroup_decs (s : State) (g : Group) : (s.setGroup g).decs = s.decs := rfl
@[simp] theorem State.setGroup_wins (s : State) (g : Group) : (s.setGroup g).wins = s.wins := rfl
@[simp] theorem State.setGroup_msgs (s : State) (g : Group) : (s.setGroup g).msgs = s.msgs := rfl
@[simp] theorem State.setGroup_homeAtoms (s : State) (g : Group) : (s.setGroup g).homeAtoms = s.homeAtoms := rfl
@[simp] theorem State.setGroup_booths (s : State) (g : Group) : (s.setGroup g).booths = s.booths := rfl
@[simp] theorem State.setGroup_tasks (s : State) (g : Group) : (s.setGroup g).tasks = s.tasks := rfl
@[simp] theorem State.setGroup_ops (s : State) (g : Group) : (s.setGroup g).ops = s.ops := rfl
@[simp] theorem State.setGroup_tileOps (s : State) (g : Group) : (s.setGroup g).tileOps = s.tileOps := rfl
@[simp] theorem State.setGroup_poolOrder (s : State) (g : Group) : (s.setGroup g).poolOrder = s.poolOrder := rfl
@[simp] theorem State.setGroup_msix (s : State) (g : Group) : (s.setGroup g).msix = s.msix := rfl
@[simp] theorem State.setGroup_frames (s : State) (g : Group) : (s.setGroup g).frames = s.frames := rfl
@[simp] theorem State.setGroup_stores (s : State) (g : Group) : (s.setGroup g).stores = s.stores := rfl
@[simp] theorem State.setGroup_rows (s : State) (g : Group) : (s.setGroup g).rows = s.rows := rfl
@[simp] theorem State.setGroup_cxl (s : State) (g : Group) : (s.setGroup g).cxl = s.cxl := rfl
@[simp] theorem State.setGroup_pf (s : State) (g : Group) : (s.setGroup g).pf = s.pf := rfl
@[simp] theorem State.setGroup_vfq (s : State) (g : Group) : (s.setGroup g).vfq = s.vfq := rfl
@[simp] theorem State.setGroup_queues (s : State) (g : Group) : (s.setGroup g).queues = s.queues := rfl
@[simp] theorem State.setGroup_stopped (s : State) (g : Group) : (s.setGroup g).stopped = s.stopped := rfl
@[simp] theorem State.setGroup_shares (s : State) (g : Group) : (s.setGroup g).shares = s.shares := rfl
@[simp] theorem State.setGroup_epoch (s : State) (g : Group) : (s.setGroup g).epoch = s.epoch := rfl
@[simp] theorem State.setGroup_levels (s : State) (g : Group) : (s.setGroup g).levels = s.levels := rfl
@[simp] theorem State.setGroup_requests (s : State) (g : Group) : (s.setGroup g).requests = s.requests := rfl
@[simp] theorem State.setGroup_roundRobin (s : State) (g : Group) : (s.setGroup g).roundRobin = s.roundRobin := rfl
@[simp] theorem State.setGroup_slices (s : State) (g : Group) : (s.setGroup g).slices = s.slices := rfl
@[simp] theorem State.setGroup_meshHeads (s : State) (g : Group) : (s.setGroup g).meshHeads = s.meshHeads := rfl
@[simp] theorem State.setGroup_meshOuts (s : State) (g : Group) : (s.setGroup g).meshOuts = s.meshOuts := rfl
@[simp] theorem State.setGroup_leaves (s : State) (g : Group) : (s.setGroup g).leaves = s.leaves := rfl
@[simp] theorem State.setGroup_raysIdle (s : State) (g : Group) : (s.setGroup g).raysIdle = s.raysIdle := rfl
@[simp] theorem State.setGroup_linkDirs (s : State) (g : Group) : (s.setGroup g).linkDirs = s.linkDirs := rfl
@[simp] theorem State.setGroup_linkLayers (s : State) (g : Group) : (s.setGroup g).linkLayers = s.linkLayers := rfl
@[simp] theorem State.setGroup_oppPaths (s : State) (g : Group) : (s.setGroup g).oppPaths = s.oppPaths := rfl
@[simp] theorem State.setGroup_fabWaiting (s : State) (g : Group) : (s.setGroup g).fabWaiting = s.fabWaiting := rfl
@[simp] theorem State.setGroup_fabSeq (s : State) (g : Group) : (s.setGroup g).fabSeq = s.fabSeq := rfl
@[simp] theorem State.setGroup_fabUnacked (s : State) (g : Group) : (s.setGroup g).fabUnacked = s.fabUnacked := rfl
@[simp] theorem State.setGroup_fabSent (s : State) (g : Group) : (s.setGroup g).fabSent = s.fabSent := rfl
@[simp] theorem State.setGroup_fabHeld (s : State) (g : Group) : (s.setGroup g).fabHeld = s.fabHeld := rfl
@[simp] theorem State.setGroup_fabDown (s : State) (g : Group) : (s.setGroup g).fabDown = s.fabDown := rfl
@[simp] theorem State.setGroup_fabReplays (s : State) (g : Group) : (s.setGroup g).fabReplays = s.fabReplays := rfl
@[simp] theorem State.setGroup_device (s : State) (g : Group) : (s.setGroup g).device = s.device := rfl
@[simp] theorem State.setGroup_ports (s : State) (g : Group) : (s.setGroup g).ports = s.ports := rfl
@[simp] theorem State.setGroup_presents (s : State) (g : Group) : (s.setGroup g).presents = s.presents := rfl
@[simp] theorem State.setGroup_swap (s : State) (g : Group) : (s.setGroup g).swap = s.swap := rfl
@[simp] theorem State.setGroup_mgmt (s : State) (g : Group) : (s.setGroup g).mgmt = s.mgmt := rfl
@[simp] theorem State.setGroup_reserved (s : State) (g : Group) : (s.setGroup g).reserved = s.reserved := rfl

/-! ### setLaunch -/

@[simp] theorem State.setLaunch_cycle (s : State) (l : Launch) : (s.setLaunch l).cycle = s.cycle := rfl
@[simp] theorem State.setLaunch_agenda (s : State) (l : Launch) : (s.setLaunch l).agenda = s.agenda := rfl
@[simp] theorem State.setLaunch_turns (s : State) (l : Launch) : (s.setLaunch l).turns = s.turns := rfl
@[simp] theorem State.setLaunch_cur (s : State) (l : Launch) : (s.setLaunch l).cur = s.cur := rfl
@[simp] theorem State.setLaunch_curB (s : State) (l : Launch) : (s.setLaunch l).curB = s.curB := rfl
@[simp] theorem State.setLaunch_draw (s : State) (l : Launch) : (s.setLaunch l).draw = s.draw := rfl
@[simp] theorem State.setLaunch_nextId (s : State) (l : Launch) : (s.setLaunch l).nextId = s.nextId := rfl
@[simp] theorem State.setLaunch_groups (s : State) (l : Launch) : (s.setLaunch l).groups = s.groups := rfl
@[simp] theorem State.setLaunch_teams (s : State) (l : Launch) : (s.setLaunch l).teams = s.teams := rfl
@[simp] theorem State.setLaunch_mem (s : State) (l : Launch) : (s.setLaunch l).mem = s.mem := rfl
@[simp] theorem State.setLaunch_poison (s : State) (l : Launch) : (s.setLaunch l).poison = s.poison := rfl
@[simp] theorem State.setLaunch_symErrs (s : State) (l : Launch) : (s.setLaunch l).symErrs = s.symErrs := rfl
@[simp] theorem State.setLaunch_caches (s : State) (l : Launch) : (s.setLaunch l).caches = s.caches := rfl
@[simp] theorem State.setLaunch_homes (s : State) (l : Launch) : (s.setLaunch l).homes = s.homes := rfl
@[simp] theorem State.setLaunch_own (s : State) (l : Launch) : (s.setLaunch l).own = s.own := rfl
@[simp] theorem State.setLaunch_inval (s : State) (l : Launch) : (s.setLaunch l).inval = s.inval := rfl
@[simp] theorem State.setLaunch_tlb (s : State) (l : Launch) : (s.setLaunch l).tlb = s.tlb := rfl
@[simp] theorem State.setLaunch_locks (s : State) (l : Launch) : (s.setLaunch l).locks = s.locks := rfl
@[simp] theorem State.setLaunch_faults (s : State) (l : Launch) : (s.setLaunch l).faults = s.faults := rfl
@[simp] theorem State.setLaunch_moves (s : State) (l : Launch) : (s.setLaunch l).moves = s.moves := rfl
@[simp] theorem State.setLaunch_oddPass (s : State) (l : Launch) : (s.setLaunch l).oddPass = s.oddPass := rfl
@[simp] theorem State.setLaunch_hot (s : State) (l : Launch) : (s.setLaunch l).hot = s.hot := rfl
@[simp] theorem State.setLaunch_decs (s : State) (l : Launch) : (s.setLaunch l).decs = s.decs := rfl
@[simp] theorem State.setLaunch_wins (s : State) (l : Launch) : (s.setLaunch l).wins = s.wins := rfl
@[simp] theorem State.setLaunch_msgs (s : State) (l : Launch) : (s.setLaunch l).msgs = s.msgs := rfl
@[simp] theorem State.setLaunch_homeAtoms (s : State) (l : Launch) : (s.setLaunch l).homeAtoms = s.homeAtoms := rfl
@[simp] theorem State.setLaunch_booths (s : State) (l : Launch) : (s.setLaunch l).booths = s.booths := rfl
@[simp] theorem State.setLaunch_tasks (s : State) (l : Launch) : (s.setLaunch l).tasks = s.tasks := rfl
@[simp] theorem State.setLaunch_ops (s : State) (l : Launch) : (s.setLaunch l).ops = s.ops := rfl
@[simp] theorem State.setLaunch_tileOps (s : State) (l : Launch) : (s.setLaunch l).tileOps = s.tileOps := rfl
@[simp] theorem State.setLaunch_poolOrder (s : State) (l : Launch) : (s.setLaunch l).poolOrder = s.poolOrder := rfl
@[simp] theorem State.setLaunch_msix (s : State) (l : Launch) : (s.setLaunch l).msix = s.msix := rfl
@[simp] theorem State.setLaunch_frames (s : State) (l : Launch) : (s.setLaunch l).frames = s.frames := rfl
@[simp] theorem State.setLaunch_stores (s : State) (l : Launch) : (s.setLaunch l).stores = s.stores := rfl
@[simp] theorem State.setLaunch_rows (s : State) (l : Launch) : (s.setLaunch l).rows = s.rows := rfl
@[simp] theorem State.setLaunch_cxl (s : State) (l : Launch) : (s.setLaunch l).cxl = s.cxl := rfl
@[simp] theorem State.setLaunch_pf (s : State) (l : Launch) : (s.setLaunch l).pf = s.pf := rfl
@[simp] theorem State.setLaunch_vfq (s : State) (l : Launch) : (s.setLaunch l).vfq = s.vfq := rfl
@[simp] theorem State.setLaunch_queues (s : State) (l : Launch) : (s.setLaunch l).queues = s.queues := rfl
@[simp] theorem State.setLaunch_stopped (s : State) (l : Launch) : (s.setLaunch l).stopped = s.stopped := rfl
@[simp] theorem State.setLaunch_shares (s : State) (l : Launch) : (s.setLaunch l).shares = s.shares := rfl
@[simp] theorem State.setLaunch_epoch (s : State) (l : Launch) : (s.setLaunch l).epoch = s.epoch := rfl
@[simp] theorem State.setLaunch_levels (s : State) (l : Launch) : (s.setLaunch l).levels = s.levels := rfl
@[simp] theorem State.setLaunch_requests (s : State) (l : Launch) : (s.setLaunch l).requests = s.requests := rfl
@[simp] theorem State.setLaunch_roundRobin (s : State) (l : Launch) : (s.setLaunch l).roundRobin = s.roundRobin := rfl
@[simp] theorem State.setLaunch_slices (s : State) (l : Launch) : (s.setLaunch l).slices = s.slices := rfl
@[simp] theorem State.setLaunch_meshHeads (s : State) (l : Launch) : (s.setLaunch l).meshHeads = s.meshHeads := rfl
@[simp] theorem State.setLaunch_meshOuts (s : State) (l : Launch) : (s.setLaunch l).meshOuts = s.meshOuts := rfl
@[simp] theorem State.setLaunch_leaves (s : State) (l : Launch) : (s.setLaunch l).leaves = s.leaves := rfl
@[simp] theorem State.setLaunch_raysIdle (s : State) (l : Launch) : (s.setLaunch l).raysIdle = s.raysIdle := rfl
@[simp] theorem State.setLaunch_linkDirs (s : State) (l : Launch) : (s.setLaunch l).linkDirs = s.linkDirs := rfl
@[simp] theorem State.setLaunch_linkLayers (s : State) (l : Launch) : (s.setLaunch l).linkLayers = s.linkLayers := rfl
@[simp] theorem State.setLaunch_oppPaths (s : State) (l : Launch) : (s.setLaunch l).oppPaths = s.oppPaths := rfl
@[simp] theorem State.setLaunch_fabWaiting (s : State) (l : Launch) : (s.setLaunch l).fabWaiting = s.fabWaiting := rfl
@[simp] theorem State.setLaunch_fabSeq (s : State) (l : Launch) : (s.setLaunch l).fabSeq = s.fabSeq := rfl
@[simp] theorem State.setLaunch_fabUnacked (s : State) (l : Launch) : (s.setLaunch l).fabUnacked = s.fabUnacked := rfl
@[simp] theorem State.setLaunch_fabSent (s : State) (l : Launch) : (s.setLaunch l).fabSent = s.fabSent := rfl
@[simp] theorem State.setLaunch_fabHeld (s : State) (l : Launch) : (s.setLaunch l).fabHeld = s.fabHeld := rfl
@[simp] theorem State.setLaunch_fabDown (s : State) (l : Launch) : (s.setLaunch l).fabDown = s.fabDown := rfl
@[simp] theorem State.setLaunch_fabReplays (s : State) (l : Launch) : (s.setLaunch l).fabReplays = s.fabReplays := rfl
@[simp] theorem State.setLaunch_device (s : State) (l : Launch) : (s.setLaunch l).device = s.device := rfl
@[simp] theorem State.setLaunch_ports (s : State) (l : Launch) : (s.setLaunch l).ports = s.ports := rfl
@[simp] theorem State.setLaunch_presents (s : State) (l : Launch) : (s.setLaunch l).presents = s.presents := rfl
@[simp] theorem State.setLaunch_swap (s : State) (l : Launch) : (s.setLaunch l).swap = s.swap := rfl
@[simp] theorem State.setLaunch_mgmt (s : State) (l : Launch) : (s.setLaunch l).mgmt = s.mgmt := rfl
@[simp] theorem State.setLaunch_reserved (s : State) (l : Launch) : (s.setLaunch l).reserved = s.reserved := rfl

/-! ### setOp -/

@[simp] theorem State.setOp_cycle (s : State) (o : EngineOp) : (s.setOp o).cycle = s.cycle := rfl
@[simp] theorem State.setOp_agenda (s : State) (o : EngineOp) : (s.setOp o).agenda = s.agenda := rfl
@[simp] theorem State.setOp_turns (s : State) (o : EngineOp) : (s.setOp o).turns = s.turns := rfl
@[simp] theorem State.setOp_cur (s : State) (o : EngineOp) : (s.setOp o).cur = s.cur := rfl
@[simp] theorem State.setOp_curB (s : State) (o : EngineOp) : (s.setOp o).curB = s.curB := rfl
@[simp] theorem State.setOp_draw (s : State) (o : EngineOp) : (s.setOp o).draw = s.draw := rfl
@[simp] theorem State.setOp_nextId (s : State) (o : EngineOp) : (s.setOp o).nextId = s.nextId := rfl
@[simp] theorem State.setOp_groups (s : State) (o : EngineOp) : (s.setOp o).groups = s.groups := rfl
@[simp] theorem State.setOp_teams (s : State) (o : EngineOp) : (s.setOp o).teams = s.teams := rfl
@[simp] theorem State.setOp_launches (s : State) (o : EngineOp) : (s.setOp o).launches = s.launches := rfl
@[simp] theorem State.setOp_mem (s : State) (o : EngineOp) : (s.setOp o).mem = s.mem := rfl
@[simp] theorem State.setOp_poison (s : State) (o : EngineOp) : (s.setOp o).poison = s.poison := rfl
@[simp] theorem State.setOp_symErrs (s : State) (o : EngineOp) : (s.setOp o).symErrs = s.symErrs := rfl
@[simp] theorem State.setOp_caches (s : State) (o : EngineOp) : (s.setOp o).caches = s.caches := rfl
@[simp] theorem State.setOp_homes (s : State) (o : EngineOp) : (s.setOp o).homes = s.homes := rfl
@[simp] theorem State.setOp_own (s : State) (o : EngineOp) : (s.setOp o).own = s.own := rfl
@[simp] theorem State.setOp_inval (s : State) (o : EngineOp) : (s.setOp o).inval = s.inval := rfl
@[simp] theorem State.setOp_tlb (s : State) (o : EngineOp) : (s.setOp o).tlb = s.tlb := rfl
@[simp] theorem State.setOp_locks (s : State) (o : EngineOp) : (s.setOp o).locks = s.locks := rfl
@[simp] theorem State.setOp_faults (s : State) (o : EngineOp) : (s.setOp o).faults = s.faults := rfl
@[simp] theorem State.setOp_moves (s : State) (o : EngineOp) : (s.setOp o).moves = s.moves := rfl
@[simp] theorem State.setOp_oddPass (s : State) (o : EngineOp) : (s.setOp o).oddPass = s.oddPass := rfl
@[simp] theorem State.setOp_hot (s : State) (o : EngineOp) : (s.setOp o).hot = s.hot := rfl
@[simp] theorem State.setOp_decs (s : State) (o : EngineOp) : (s.setOp o).decs = s.decs := rfl
@[simp] theorem State.setOp_wins (s : State) (o : EngineOp) : (s.setOp o).wins = s.wins := rfl
@[simp] theorem State.setOp_msgs (s : State) (o : EngineOp) : (s.setOp o).msgs = s.msgs := rfl
@[simp] theorem State.setOp_homeAtoms (s : State) (o : EngineOp) : (s.setOp o).homeAtoms = s.homeAtoms := rfl
@[simp] theorem State.setOp_booths (s : State) (o : EngineOp) : (s.setOp o).booths = s.booths := rfl
@[simp] theorem State.setOp_tasks (s : State) (o : EngineOp) : (s.setOp o).tasks = s.tasks := rfl
@[simp] theorem State.setOp_tileOps (s : State) (o : EngineOp) : (s.setOp o).tileOps = s.tileOps := rfl
@[simp] theorem State.setOp_poolOrder (s : State) (o : EngineOp) : (s.setOp o).poolOrder = s.poolOrder := rfl
@[simp] theorem State.setOp_msix (s : State) (o : EngineOp) : (s.setOp o).msix = s.msix := rfl
@[simp] theorem State.setOp_frames (s : State) (o : EngineOp) : (s.setOp o).frames = s.frames := rfl
@[simp] theorem State.setOp_stores (s : State) (o : EngineOp) : (s.setOp o).stores = s.stores := rfl
@[simp] theorem State.setOp_rows (s : State) (o : EngineOp) : (s.setOp o).rows = s.rows := rfl
@[simp] theorem State.setOp_cxl (s : State) (o : EngineOp) : (s.setOp o).cxl = s.cxl := rfl
@[simp] theorem State.setOp_pf (s : State) (o : EngineOp) : (s.setOp o).pf = s.pf := rfl
@[simp] theorem State.setOp_vfq (s : State) (o : EngineOp) : (s.setOp o).vfq = s.vfq := rfl
@[simp] theorem State.setOp_queues (s : State) (o : EngineOp) : (s.setOp o).queues = s.queues := rfl
@[simp] theorem State.setOp_stopped (s : State) (o : EngineOp) : (s.setOp o).stopped = s.stopped := rfl
@[simp] theorem State.setOp_shares (s : State) (o : EngineOp) : (s.setOp o).shares = s.shares := rfl
@[simp] theorem State.setOp_epoch (s : State) (o : EngineOp) : (s.setOp o).epoch = s.epoch := rfl
@[simp] theorem State.setOp_levels (s : State) (o : EngineOp) : (s.setOp o).levels = s.levels := rfl
@[simp] theorem State.setOp_requests (s : State) (o : EngineOp) : (s.setOp o).requests = s.requests := rfl
@[simp] theorem State.setOp_roundRobin (s : State) (o : EngineOp) : (s.setOp o).roundRobin = s.roundRobin := rfl
@[simp] theorem State.setOp_slices (s : State) (o : EngineOp) : (s.setOp o).slices = s.slices := rfl
@[simp] theorem State.setOp_meshHeads (s : State) (o : EngineOp) : (s.setOp o).meshHeads = s.meshHeads := rfl
@[simp] theorem State.setOp_meshOuts (s : State) (o : EngineOp) : (s.setOp o).meshOuts = s.meshOuts := rfl
@[simp] theorem State.setOp_leaves (s : State) (o : EngineOp) : (s.setOp o).leaves = s.leaves := rfl
@[simp] theorem State.setOp_raysIdle (s : State) (o : EngineOp) : (s.setOp o).raysIdle = s.raysIdle := rfl
@[simp] theorem State.setOp_linkDirs (s : State) (o : EngineOp) : (s.setOp o).linkDirs = s.linkDirs := rfl
@[simp] theorem State.setOp_linkLayers (s : State) (o : EngineOp) : (s.setOp o).linkLayers = s.linkLayers := rfl
@[simp] theorem State.setOp_oppPaths (s : State) (o : EngineOp) : (s.setOp o).oppPaths = s.oppPaths := rfl
@[simp] theorem State.setOp_fabWaiting (s : State) (o : EngineOp) : (s.setOp o).fabWaiting = s.fabWaiting := rfl
@[simp] theorem State.setOp_fabSeq (s : State) (o : EngineOp) : (s.setOp o).fabSeq = s.fabSeq := rfl
@[simp] theorem State.setOp_fabUnacked (s : State) (o : EngineOp) : (s.setOp o).fabUnacked = s.fabUnacked := rfl
@[simp] theorem State.setOp_fabSent (s : State) (o : EngineOp) : (s.setOp o).fabSent = s.fabSent := rfl
@[simp] theorem State.setOp_fabHeld (s : State) (o : EngineOp) : (s.setOp o).fabHeld = s.fabHeld := rfl
@[simp] theorem State.setOp_fabDown (s : State) (o : EngineOp) : (s.setOp o).fabDown = s.fabDown := rfl
@[simp] theorem State.setOp_fabReplays (s : State) (o : EngineOp) : (s.setOp o).fabReplays = s.fabReplays := rfl
@[simp] theorem State.setOp_device (s : State) (o : EngineOp) : (s.setOp o).device = s.device := rfl
@[simp] theorem State.setOp_ports (s : State) (o : EngineOp) : (s.setOp o).ports = s.ports := rfl
@[simp] theorem State.setOp_presents (s : State) (o : EngineOp) : (s.setOp o).presents = s.presents := rfl
@[simp] theorem State.setOp_swap (s : State) (o : EngineOp) : (s.setOp o).swap = s.swap := rfl
@[simp] theorem State.setOp_mgmt (s : State) (o : EngineOp) : (s.setOp o).mgmt = s.mgmt := rfl
@[simp] theorem State.setOp_reserved (s : State) (o : EngineOp) : (s.setOp o).reserved = s.reserved := rfl

/-! ### modTeam -/

@[simp] theorem State.modTeam_cycle (s : State) (t : Nat) (f : Team → Team) : (s.modTeam t f).cycle = s.cycle := rfl
@[simp] theorem State.modTeam_agenda (s : State) (t : Nat) (f : Team → Team) : (s.modTeam t f).agenda = s.agenda := rfl
@[simp] theorem State.modTeam_turns (s : State) (t : Nat) (f : Team → Team) : (s.modTeam t f).turns = s.turns := rfl
@[simp] theorem State.modTeam_cur (s : State) (t : Nat) (f : Team → Team) : (s.modTeam t f).cur = s.cur := rfl
@[simp] theorem State.modTeam_curB (s : State) (t : Nat) (f : Team → Team) : (s.modTeam t f).curB = s.curB := rfl
@[simp] theorem State.modTeam_draw (s : State) (t : Nat) (f : Team → Team) : (s.modTeam t f).draw = s.draw := rfl
@[simp] theorem State.modTeam_nextId (s : State) (t : Nat) (f : Team → Team) : (s.modTeam t f).nextId = s.nextId := rfl
@[simp] theorem State.modTeam_groups (s : State) (t : Nat) (f : Team → Team) : (s.modTeam t f).groups = s.groups := rfl
@[simp] theorem State.modTeam_launches (s : State) (t : Nat) (f : Team → Team) : (s.modTeam t f).launches = s.launches := rfl
@[simp] theorem State.modTeam_mem (s : State) (t : Nat) (f : Team → Team) : (s.modTeam t f).mem = s.mem := rfl
@[simp] theorem State.modTeam_poison (s : State) (t : Nat) (f : Team → Team) : (s.modTeam t f).poison = s.poison := rfl
@[simp] theorem State.modTeam_symErrs (s : State) (t : Nat) (f : Team → Team) : (s.modTeam t f).symErrs = s.symErrs := rfl
@[simp] theorem State.modTeam_caches (s : State) (t : Nat) (f : Team → Team) : (s.modTeam t f).caches = s.caches := rfl
@[simp] theorem State.modTeam_homes (s : State) (t : Nat) (f : Team → Team) : (s.modTeam t f).homes = s.homes := rfl
@[simp] theorem State.modTeam_own (s : State) (t : Nat) (f : Team → Team) : (s.modTeam t f).own = s.own := rfl
@[simp] theorem State.modTeam_inval (s : State) (t : Nat) (f : Team → Team) : (s.modTeam t f).inval = s.inval := rfl
@[simp] theorem State.modTeam_tlb (s : State) (t : Nat) (f : Team → Team) : (s.modTeam t f).tlb = s.tlb := rfl
@[simp] theorem State.modTeam_locks (s : State) (t : Nat) (f : Team → Team) : (s.modTeam t f).locks = s.locks := rfl
@[simp] theorem State.modTeam_faults (s : State) (t : Nat) (f : Team → Team) : (s.modTeam t f).faults = s.faults := rfl
@[simp] theorem State.modTeam_moves (s : State) (t : Nat) (f : Team → Team) : (s.modTeam t f).moves = s.moves := rfl
@[simp] theorem State.modTeam_oddPass (s : State) (t : Nat) (f : Team → Team) : (s.modTeam t f).oddPass = s.oddPass := rfl
@[simp] theorem State.modTeam_hot (s : State) (t : Nat) (f : Team → Team) : (s.modTeam t f).hot = s.hot := rfl
@[simp] theorem State.modTeam_decs (s : State) (t : Nat) (f : Team → Team) : (s.modTeam t f).decs = s.decs := rfl
@[simp] theorem State.modTeam_wins (s : State) (t : Nat) (f : Team → Team) : (s.modTeam t f).wins = s.wins := rfl
@[simp] theorem State.modTeam_msgs (s : State) (t : Nat) (f : Team → Team) : (s.modTeam t f).msgs = s.msgs := rfl
@[simp] theorem State.modTeam_homeAtoms (s : State) (t : Nat) (f : Team → Team) : (s.modTeam t f).homeAtoms = s.homeAtoms := rfl
@[simp] theorem State.modTeam_booths (s : State) (t : Nat) (f : Team → Team) : (s.modTeam t f).booths = s.booths := rfl
@[simp] theorem State.modTeam_tasks (s : State) (t : Nat) (f : Team → Team) : (s.modTeam t f).tasks = s.tasks := rfl
@[simp] theorem State.modTeam_ops (s : State) (t : Nat) (f : Team → Team) : (s.modTeam t f).ops = s.ops := rfl
@[simp] theorem State.modTeam_tileOps (s : State) (t : Nat) (f : Team → Team) : (s.modTeam t f).tileOps = s.tileOps := rfl
@[simp] theorem State.modTeam_poolOrder (s : State) (t : Nat) (f : Team → Team) : (s.modTeam t f).poolOrder = s.poolOrder := rfl
@[simp] theorem State.modTeam_msix (s : State) (t : Nat) (f : Team → Team) : (s.modTeam t f).msix = s.msix := rfl
@[simp] theorem State.modTeam_frames (s : State) (t : Nat) (f : Team → Team) : (s.modTeam t f).frames = s.frames := rfl
@[simp] theorem State.modTeam_stores (s : State) (t : Nat) (f : Team → Team) : (s.modTeam t f).stores = s.stores := rfl
@[simp] theorem State.modTeam_rows (s : State) (t : Nat) (f : Team → Team) : (s.modTeam t f).rows = s.rows := rfl
@[simp] theorem State.modTeam_cxl (s : State) (t : Nat) (f : Team → Team) : (s.modTeam t f).cxl = s.cxl := rfl
@[simp] theorem State.modTeam_pf (s : State) (t : Nat) (f : Team → Team) : (s.modTeam t f).pf = s.pf := rfl
@[simp] theorem State.modTeam_vfq (s : State) (t : Nat) (f : Team → Team) : (s.modTeam t f).vfq = s.vfq := rfl
@[simp] theorem State.modTeam_queues (s : State) (t : Nat) (f : Team → Team) : (s.modTeam t f).queues = s.queues := rfl
@[simp] theorem State.modTeam_stopped (s : State) (t : Nat) (f : Team → Team) : (s.modTeam t f).stopped = s.stopped := rfl
@[simp] theorem State.modTeam_shares (s : State) (t : Nat) (f : Team → Team) : (s.modTeam t f).shares = s.shares := rfl
@[simp] theorem State.modTeam_epoch (s : State) (t : Nat) (f : Team → Team) : (s.modTeam t f).epoch = s.epoch := rfl
@[simp] theorem State.modTeam_levels (s : State) (t : Nat) (f : Team → Team) : (s.modTeam t f).levels = s.levels := rfl
@[simp] theorem State.modTeam_requests (s : State) (t : Nat) (f : Team → Team) : (s.modTeam t f).requests = s.requests := rfl
@[simp] theorem State.modTeam_roundRobin (s : State) (t : Nat) (f : Team → Team) : (s.modTeam t f).roundRobin = s.roundRobin := rfl
@[simp] theorem State.modTeam_slices (s : State) (t : Nat) (f : Team → Team) : (s.modTeam t f).slices = s.slices := rfl
@[simp] theorem State.modTeam_meshHeads (s : State) (t : Nat) (f : Team → Team) : (s.modTeam t f).meshHeads = s.meshHeads := rfl
@[simp] theorem State.modTeam_meshOuts (s : State) (t : Nat) (f : Team → Team) : (s.modTeam t f).meshOuts = s.meshOuts := rfl
@[simp] theorem State.modTeam_leaves (s : State) (t : Nat) (f : Team → Team) : (s.modTeam t f).leaves = s.leaves := rfl
@[simp] theorem State.modTeam_raysIdle (s : State) (t : Nat) (f : Team → Team) : (s.modTeam t f).raysIdle = s.raysIdle := rfl
@[simp] theorem State.modTeam_linkDirs (s : State) (t : Nat) (f : Team → Team) : (s.modTeam t f).linkDirs = s.linkDirs := rfl
@[simp] theorem State.modTeam_linkLayers (s : State) (t : Nat) (f : Team → Team) : (s.modTeam t f).linkLayers = s.linkLayers := rfl
@[simp] theorem State.modTeam_oppPaths (s : State) (t : Nat) (f : Team → Team) : (s.modTeam t f).oppPaths = s.oppPaths := rfl
@[simp] theorem State.modTeam_fabWaiting (s : State) (t : Nat) (f : Team → Team) : (s.modTeam t f).fabWaiting = s.fabWaiting := rfl
@[simp] theorem State.modTeam_fabSeq (s : State) (t : Nat) (f : Team → Team) : (s.modTeam t f).fabSeq = s.fabSeq := rfl
@[simp] theorem State.modTeam_fabUnacked (s : State) (t : Nat) (f : Team → Team) : (s.modTeam t f).fabUnacked = s.fabUnacked := rfl
@[simp] theorem State.modTeam_fabSent (s : State) (t : Nat) (f : Team → Team) : (s.modTeam t f).fabSent = s.fabSent := rfl
@[simp] theorem State.modTeam_fabHeld (s : State) (t : Nat) (f : Team → Team) : (s.modTeam t f).fabHeld = s.fabHeld := rfl
@[simp] theorem State.modTeam_fabDown (s : State) (t : Nat) (f : Team → Team) : (s.modTeam t f).fabDown = s.fabDown := rfl
@[simp] theorem State.modTeam_fabReplays (s : State) (t : Nat) (f : Team → Team) : (s.modTeam t f).fabReplays = s.fabReplays := rfl
@[simp] theorem State.modTeam_device (s : State) (t : Nat) (f : Team → Team) : (s.modTeam t f).device = s.device := rfl
@[simp] theorem State.modTeam_ports (s : State) (t : Nat) (f : Team → Team) : (s.modTeam t f).ports = s.ports := rfl
@[simp] theorem State.modTeam_presents (s : State) (t : Nat) (f : Team → Team) : (s.modTeam t f).presents = s.presents := rfl
@[simp] theorem State.modTeam_swap (s : State) (t : Nat) (f : Team → Team) : (s.modTeam t f).swap = s.swap := rfl
@[simp] theorem State.modTeam_mgmt (s : State) (t : Nat) (f : Team → Team) : (s.modTeam t f).mgmt = s.mgmt := rfl
@[simp] theorem State.modTeam_reserved (s : State) (t : Nat) (f : Team → Team) : (s.modTeam t f).reserved = s.reserved := rfl

/-! ### modGroup -/

@[simp] theorem State.modGroup_cycle (s : State) (g : Nat) (f : Group → Group) : (s.modGroup g f).cycle = s.cycle := rfl
@[simp] theorem State.modGroup_agenda (s : State) (g : Nat) (f : Group → Group) : (s.modGroup g f).agenda = s.agenda := rfl
@[simp] theorem State.modGroup_turns (s : State) (g : Nat) (f : Group → Group) : (s.modGroup g f).turns = s.turns := rfl
@[simp] theorem State.modGroup_cur (s : State) (g : Nat) (f : Group → Group) : (s.modGroup g f).cur = s.cur := rfl
@[simp] theorem State.modGroup_curB (s : State) (g : Nat) (f : Group → Group) : (s.modGroup g f).curB = s.curB := rfl
@[simp] theorem State.modGroup_draw (s : State) (g : Nat) (f : Group → Group) : (s.modGroup g f).draw = s.draw := rfl
@[simp] theorem State.modGroup_nextId (s : State) (g : Nat) (f : Group → Group) : (s.modGroup g f).nextId = s.nextId := rfl
@[simp] theorem State.modGroup_teams (s : State) (g : Nat) (f : Group → Group) : (s.modGroup g f).teams = s.teams := rfl
@[simp] theorem State.modGroup_launches (s : State) (g : Nat) (f : Group → Group) : (s.modGroup g f).launches = s.launches := rfl
@[simp] theorem State.modGroup_mem (s : State) (g : Nat) (f : Group → Group) : (s.modGroup g f).mem = s.mem := rfl
@[simp] theorem State.modGroup_poison (s : State) (g : Nat) (f : Group → Group) : (s.modGroup g f).poison = s.poison := rfl
@[simp] theorem State.modGroup_symErrs (s : State) (g : Nat) (f : Group → Group) : (s.modGroup g f).symErrs = s.symErrs := rfl
@[simp] theorem State.modGroup_caches (s : State) (g : Nat) (f : Group → Group) : (s.modGroup g f).caches = s.caches := rfl
@[simp] theorem State.modGroup_homes (s : State) (g : Nat) (f : Group → Group) : (s.modGroup g f).homes = s.homes := rfl
@[simp] theorem State.modGroup_own (s : State) (g : Nat) (f : Group → Group) : (s.modGroup g f).own = s.own := rfl
@[simp] theorem State.modGroup_inval (s : State) (g : Nat) (f : Group → Group) : (s.modGroup g f).inval = s.inval := rfl
@[simp] theorem State.modGroup_tlb (s : State) (g : Nat) (f : Group → Group) : (s.modGroup g f).tlb = s.tlb := rfl
@[simp] theorem State.modGroup_locks (s : State) (g : Nat) (f : Group → Group) : (s.modGroup g f).locks = s.locks := rfl
@[simp] theorem State.modGroup_faults (s : State) (g : Nat) (f : Group → Group) : (s.modGroup g f).faults = s.faults := rfl
@[simp] theorem State.modGroup_moves (s : State) (g : Nat) (f : Group → Group) : (s.modGroup g f).moves = s.moves := rfl
@[simp] theorem State.modGroup_oddPass (s : State) (g : Nat) (f : Group → Group) : (s.modGroup g f).oddPass = s.oddPass := rfl
@[simp] theorem State.modGroup_hot (s : State) (g : Nat) (f : Group → Group) : (s.modGroup g f).hot = s.hot := rfl
@[simp] theorem State.modGroup_decs (s : State) (g : Nat) (f : Group → Group) : (s.modGroup g f).decs = s.decs := rfl
@[simp] theorem State.modGroup_wins (s : State) (g : Nat) (f : Group → Group) : (s.modGroup g f).wins = s.wins := rfl
@[simp] theorem State.modGroup_msgs (s : State) (g : Nat) (f : Group → Group) : (s.modGroup g f).msgs = s.msgs := rfl
@[simp] theorem State.modGroup_homeAtoms (s : State) (g : Nat) (f : Group → Group) : (s.modGroup g f).homeAtoms = s.homeAtoms := rfl
@[simp] theorem State.modGroup_booths (s : State) (g : Nat) (f : Group → Group) : (s.modGroup g f).booths = s.booths := rfl
@[simp] theorem State.modGroup_tasks (s : State) (g : Nat) (f : Group → Group) : (s.modGroup g f).tasks = s.tasks := rfl
@[simp] theorem State.modGroup_ops (s : State) (g : Nat) (f : Group → Group) : (s.modGroup g f).ops = s.ops := rfl
@[simp] theorem State.modGroup_tileOps (s : State) (g : Nat) (f : Group → Group) : (s.modGroup g f).tileOps = s.tileOps := rfl
@[simp] theorem State.modGroup_poolOrder (s : State) (g : Nat) (f : Group → Group) : (s.modGroup g f).poolOrder = s.poolOrder := rfl
@[simp] theorem State.modGroup_msix (s : State) (g : Nat) (f : Group → Group) : (s.modGroup g f).msix = s.msix := rfl
@[simp] theorem State.modGroup_frames (s : State) (g : Nat) (f : Group → Group) : (s.modGroup g f).frames = s.frames := rfl
@[simp] theorem State.modGroup_stores (s : State) (g : Nat) (f : Group → Group) : (s.modGroup g f).stores = s.stores := rfl
@[simp] theorem State.modGroup_rows (s : State) (g : Nat) (f : Group → Group) : (s.modGroup g f).rows = s.rows := rfl
@[simp] theorem State.modGroup_cxl (s : State) (g : Nat) (f : Group → Group) : (s.modGroup g f).cxl = s.cxl := rfl
@[simp] theorem State.modGroup_pf (s : State) (g : Nat) (f : Group → Group) : (s.modGroup g f).pf = s.pf := rfl
@[simp] theorem State.modGroup_vfq (s : State) (g : Nat) (f : Group → Group) : (s.modGroup g f).vfq = s.vfq := rfl
@[simp] theorem State.modGroup_queues (s : State) (g : Nat) (f : Group → Group) : (s.modGroup g f).queues = s.queues := rfl
@[simp] theorem State.modGroup_stopped (s : State) (g : Nat) (f : Group → Group) : (s.modGroup g f).stopped = s.stopped := rfl
@[simp] theorem State.modGroup_shares (s : State) (g : Nat) (f : Group → Group) : (s.modGroup g f).shares = s.shares := rfl
@[simp] theorem State.modGroup_epoch (s : State) (g : Nat) (f : Group → Group) : (s.modGroup g f).epoch = s.epoch := rfl
@[simp] theorem State.modGroup_levels (s : State) (g : Nat) (f : Group → Group) : (s.modGroup g f).levels = s.levels := rfl
@[simp] theorem State.modGroup_requests (s : State) (g : Nat) (f : Group → Group) : (s.modGroup g f).requests = s.requests := rfl
@[simp] theorem State.modGroup_roundRobin (s : State) (g : Nat) (f : Group → Group) : (s.modGroup g f).roundRobin = s.roundRobin := rfl
@[simp] theorem State.modGroup_slices (s : State) (g : Nat) (f : Group → Group) : (s.modGroup g f).slices = s.slices := rfl
@[simp] theorem State.modGroup_meshHeads (s : State) (g : Nat) (f : Group → Group) : (s.modGroup g f).meshHeads = s.meshHeads := rfl
@[simp] theorem State.modGroup_meshOuts (s : State) (g : Nat) (f : Group → Group) : (s.modGroup g f).meshOuts = s.meshOuts := rfl
@[simp] theorem State.modGroup_leaves (s : State) (g : Nat) (f : Group → Group) : (s.modGroup g f).leaves = s.leaves := rfl
@[simp] theorem State.modGroup_raysIdle (s : State) (g : Nat) (f : Group → Group) : (s.modGroup g f).raysIdle = s.raysIdle := rfl
@[simp] theorem State.modGroup_linkDirs (s : State) (g : Nat) (f : Group → Group) : (s.modGroup g f).linkDirs = s.linkDirs := rfl
@[simp] theorem State.modGroup_linkLayers (s : State) (g : Nat) (f : Group → Group) : (s.modGroup g f).linkLayers = s.linkLayers := rfl
@[simp] theorem State.modGroup_oppPaths (s : State) (g : Nat) (f : Group → Group) : (s.modGroup g f).oppPaths = s.oppPaths := rfl
@[simp] theorem State.modGroup_fabWaiting (s : State) (g : Nat) (f : Group → Group) : (s.modGroup g f).fabWaiting = s.fabWaiting := rfl
@[simp] theorem State.modGroup_fabSeq (s : State) (g : Nat) (f : Group → Group) : (s.modGroup g f).fabSeq = s.fabSeq := rfl
@[simp] theorem State.modGroup_fabUnacked (s : State) (g : Nat) (f : Group → Group) : (s.modGroup g f).fabUnacked = s.fabUnacked := rfl
@[simp] theorem State.modGroup_fabSent (s : State) (g : Nat) (f : Group → Group) : (s.modGroup g f).fabSent = s.fabSent := rfl
@[simp] theorem State.modGroup_fabHeld (s : State) (g : Nat) (f : Group → Group) : (s.modGroup g f).fabHeld = s.fabHeld := rfl
@[simp] theorem State.modGroup_fabDown (s : State) (g : Nat) (f : Group → Group) : (s.modGroup g f).fabDown = s.fabDown := rfl
@[simp] theorem State.modGroup_fabReplays (s : State) (g : Nat) (f : Group → Group) : (s.modGroup g f).fabReplays = s.fabReplays := rfl
@[simp] theorem State.modGroup_device (s : State) (g : Nat) (f : Group → Group) : (s.modGroup g f).device = s.device := rfl
@[simp] theorem State.modGroup_ports (s : State) (g : Nat) (f : Group → Group) : (s.modGroup g f).ports = s.ports := rfl
@[simp] theorem State.modGroup_presents (s : State) (g : Nat) (f : Group → Group) : (s.modGroup g f).presents = s.presents := rfl
@[simp] theorem State.modGroup_swap (s : State) (g : Nat) (f : Group → Group) : (s.modGroup g f).swap = s.swap := rfl
@[simp] theorem State.modGroup_mgmt (s : State) (g : Nat) (f : Group → Group) : (s.modGroup g f).mgmt = s.mgmt := rfl
@[simp] theorem State.modGroup_reserved (s : State) (g : Nat) (f : Group → Group) : (s.modGroup g f).reserved = s.reserved := rfl

/-! ### modLaunch -/

@[simp] theorem State.modLaunch_cycle (s : State) (l : Nat) (f : Launch → Launch) : (s.modLaunch l f).cycle = s.cycle := rfl
@[simp] theorem State.modLaunch_agenda (s : State) (l : Nat) (f : Launch → Launch) : (s.modLaunch l f).agenda = s.agenda := rfl
@[simp] theorem State.modLaunch_turns (s : State) (l : Nat) (f : Launch → Launch) : (s.modLaunch l f).turns = s.turns := rfl
@[simp] theorem State.modLaunch_cur (s : State) (l : Nat) (f : Launch → Launch) : (s.modLaunch l f).cur = s.cur := rfl
@[simp] theorem State.modLaunch_curB (s : State) (l : Nat) (f : Launch → Launch) : (s.modLaunch l f).curB = s.curB := rfl
@[simp] theorem State.modLaunch_draw (s : State) (l : Nat) (f : Launch → Launch) : (s.modLaunch l f).draw = s.draw := rfl
@[simp] theorem State.modLaunch_nextId (s : State) (l : Nat) (f : Launch → Launch) : (s.modLaunch l f).nextId = s.nextId := rfl
@[simp] theorem State.modLaunch_groups (s : State) (l : Nat) (f : Launch → Launch) : (s.modLaunch l f).groups = s.groups := rfl
@[simp] theorem State.modLaunch_teams (s : State) (l : Nat) (f : Launch → Launch) : (s.modLaunch l f).teams = s.teams := rfl
@[simp] theorem State.modLaunch_mem (s : State) (l : Nat) (f : Launch → Launch) : (s.modLaunch l f).mem = s.mem := rfl
@[simp] theorem State.modLaunch_poison (s : State) (l : Nat) (f : Launch → Launch) : (s.modLaunch l f).poison = s.poison := rfl
@[simp] theorem State.modLaunch_symErrs (s : State) (l : Nat) (f : Launch → Launch) : (s.modLaunch l f).symErrs = s.symErrs := rfl
@[simp] theorem State.modLaunch_caches (s : State) (l : Nat) (f : Launch → Launch) : (s.modLaunch l f).caches = s.caches := rfl
@[simp] theorem State.modLaunch_homes (s : State) (l : Nat) (f : Launch → Launch) : (s.modLaunch l f).homes = s.homes := rfl
@[simp] theorem State.modLaunch_own (s : State) (l : Nat) (f : Launch → Launch) : (s.modLaunch l f).own = s.own := rfl
@[simp] theorem State.modLaunch_inval (s : State) (l : Nat) (f : Launch → Launch) : (s.modLaunch l f).inval = s.inval := rfl
@[simp] theorem State.modLaunch_tlb (s : State) (l : Nat) (f : Launch → Launch) : (s.modLaunch l f).tlb = s.tlb := rfl
@[simp] theorem State.modLaunch_locks (s : State) (l : Nat) (f : Launch → Launch) : (s.modLaunch l f).locks = s.locks := rfl
@[simp] theorem State.modLaunch_faults (s : State) (l : Nat) (f : Launch → Launch) : (s.modLaunch l f).faults = s.faults := rfl
@[simp] theorem State.modLaunch_moves (s : State) (l : Nat) (f : Launch → Launch) : (s.modLaunch l f).moves = s.moves := rfl
@[simp] theorem State.modLaunch_oddPass (s : State) (l : Nat) (f : Launch → Launch) : (s.modLaunch l f).oddPass = s.oddPass := rfl
@[simp] theorem State.modLaunch_hot (s : State) (l : Nat) (f : Launch → Launch) : (s.modLaunch l f).hot = s.hot := rfl
@[simp] theorem State.modLaunch_decs (s : State) (l : Nat) (f : Launch → Launch) : (s.modLaunch l f).decs = s.decs := rfl
@[simp] theorem State.modLaunch_wins (s : State) (l : Nat) (f : Launch → Launch) : (s.modLaunch l f).wins = s.wins := rfl
@[simp] theorem State.modLaunch_msgs (s : State) (l : Nat) (f : Launch → Launch) : (s.modLaunch l f).msgs = s.msgs := rfl
@[simp] theorem State.modLaunch_homeAtoms (s : State) (l : Nat) (f : Launch → Launch) : (s.modLaunch l f).homeAtoms = s.homeAtoms := rfl
@[simp] theorem State.modLaunch_booths (s : State) (l : Nat) (f : Launch → Launch) : (s.modLaunch l f).booths = s.booths := rfl
@[simp] theorem State.modLaunch_tasks (s : State) (l : Nat) (f : Launch → Launch) : (s.modLaunch l f).tasks = s.tasks := rfl
@[simp] theorem State.modLaunch_ops (s : State) (l : Nat) (f : Launch → Launch) : (s.modLaunch l f).ops = s.ops := rfl
@[simp] theorem State.modLaunch_tileOps (s : State) (l : Nat) (f : Launch → Launch) : (s.modLaunch l f).tileOps = s.tileOps := rfl
@[simp] theorem State.modLaunch_poolOrder (s : State) (l : Nat) (f : Launch → Launch) : (s.modLaunch l f).poolOrder = s.poolOrder := rfl
@[simp] theorem State.modLaunch_msix (s : State) (l : Nat) (f : Launch → Launch) : (s.modLaunch l f).msix = s.msix := rfl
@[simp] theorem State.modLaunch_frames (s : State) (l : Nat) (f : Launch → Launch) : (s.modLaunch l f).frames = s.frames := rfl
@[simp] theorem State.modLaunch_stores (s : State) (l : Nat) (f : Launch → Launch) : (s.modLaunch l f).stores = s.stores := rfl
@[simp] theorem State.modLaunch_rows (s : State) (l : Nat) (f : Launch → Launch) : (s.modLaunch l f).rows = s.rows := rfl
@[simp] theorem State.modLaunch_cxl (s : State) (l : Nat) (f : Launch → Launch) : (s.modLaunch l f).cxl = s.cxl := rfl
@[simp] theorem State.modLaunch_pf (s : State) (l : Nat) (f : Launch → Launch) : (s.modLaunch l f).pf = s.pf := rfl
@[simp] theorem State.modLaunch_vfq (s : State) (l : Nat) (f : Launch → Launch) : (s.modLaunch l f).vfq = s.vfq := rfl
@[simp] theorem State.modLaunch_queues (s : State) (l : Nat) (f : Launch → Launch) : (s.modLaunch l f).queues = s.queues := rfl
@[simp] theorem State.modLaunch_stopped (s : State) (l : Nat) (f : Launch → Launch) : (s.modLaunch l f).stopped = s.stopped := rfl
@[simp] theorem State.modLaunch_shares (s : State) (l : Nat) (f : Launch → Launch) : (s.modLaunch l f).shares = s.shares := rfl
@[simp] theorem State.modLaunch_epoch (s : State) (l : Nat) (f : Launch → Launch) : (s.modLaunch l f).epoch = s.epoch := rfl
@[simp] theorem State.modLaunch_levels (s : State) (l : Nat) (f : Launch → Launch) : (s.modLaunch l f).levels = s.levels := rfl
@[simp] theorem State.modLaunch_requests (s : State) (l : Nat) (f : Launch → Launch) : (s.modLaunch l f).requests = s.requests := rfl
@[simp] theorem State.modLaunch_roundRobin (s : State) (l : Nat) (f : Launch → Launch) : (s.modLaunch l f).roundRobin = s.roundRobin := rfl
@[simp] theorem State.modLaunch_slices (s : State) (l : Nat) (f : Launch → Launch) : (s.modLaunch l f).slices = s.slices := rfl
@[simp] theorem State.modLaunch_meshHeads (s : State) (l : Nat) (f : Launch → Launch) : (s.modLaunch l f).meshHeads = s.meshHeads := rfl
@[simp] theorem State.modLaunch_meshOuts (s : State) (l : Nat) (f : Launch → Launch) : (s.modLaunch l f).meshOuts = s.meshOuts := rfl
@[simp] theorem State.modLaunch_leaves (s : State) (l : Nat) (f : Launch → Launch) : (s.modLaunch l f).leaves = s.leaves := rfl
@[simp] theorem State.modLaunch_raysIdle (s : State) (l : Nat) (f : Launch → Launch) : (s.modLaunch l f).raysIdle = s.raysIdle := rfl
@[simp] theorem State.modLaunch_linkDirs (s : State) (l : Nat) (f : Launch → Launch) : (s.modLaunch l f).linkDirs = s.linkDirs := rfl
@[simp] theorem State.modLaunch_linkLayers (s : State) (l : Nat) (f : Launch → Launch) : (s.modLaunch l f).linkLayers = s.linkLayers := rfl
@[simp] theorem State.modLaunch_oppPaths (s : State) (l : Nat) (f : Launch → Launch) : (s.modLaunch l f).oppPaths = s.oppPaths := rfl
@[simp] theorem State.modLaunch_fabWaiting (s : State) (l : Nat) (f : Launch → Launch) : (s.modLaunch l f).fabWaiting = s.fabWaiting := rfl
@[simp] theorem State.modLaunch_fabSeq (s : State) (l : Nat) (f : Launch → Launch) : (s.modLaunch l f).fabSeq = s.fabSeq := rfl
@[simp] theorem State.modLaunch_fabUnacked (s : State) (l : Nat) (f : Launch → Launch) : (s.modLaunch l f).fabUnacked = s.fabUnacked := rfl
@[simp] theorem State.modLaunch_fabSent (s : State) (l : Nat) (f : Launch → Launch) : (s.modLaunch l f).fabSent = s.fabSent := rfl
@[simp] theorem State.modLaunch_fabHeld (s : State) (l : Nat) (f : Launch → Launch) : (s.modLaunch l f).fabHeld = s.fabHeld := rfl
@[simp] theorem State.modLaunch_fabDown (s : State) (l : Nat) (f : Launch → Launch) : (s.modLaunch l f).fabDown = s.fabDown := rfl
@[simp] theorem State.modLaunch_fabReplays (s : State) (l : Nat) (f : Launch → Launch) : (s.modLaunch l f).fabReplays = s.fabReplays := rfl
@[simp] theorem State.modLaunch_device (s : State) (l : Nat) (f : Launch → Launch) : (s.modLaunch l f).device = s.device := rfl
@[simp] theorem State.modLaunch_ports (s : State) (l : Nat) (f : Launch → Launch) : (s.modLaunch l f).ports = s.ports := rfl
@[simp] theorem State.modLaunch_presents (s : State) (l : Nat) (f : Launch → Launch) : (s.modLaunch l f).presents = s.presents := rfl
@[simp] theorem State.modLaunch_swap (s : State) (l : Nat) (f : Launch → Launch) : (s.modLaunch l f).swap = s.swap := rfl
@[simp] theorem State.modLaunch_mgmt (s : State) (l : Nat) (f : Launch → Launch) : (s.modLaunch l f).mgmt = s.mgmt := rfl
@[simp] theorem State.modLaunch_reserved (s : State) (l : Nat) (f : Launch → Launch) : (s.modLaunch l f).reserved = s.reserved := rfl

/-! ### modOp -/

@[simp] theorem State.modOp_cycle (s : State) (o : Nat) (f : EngineOp → EngineOp) : (s.modOp o f).cycle = s.cycle := rfl
@[simp] theorem State.modOp_agenda (s : State) (o : Nat) (f : EngineOp → EngineOp) : (s.modOp o f).agenda = s.agenda := rfl
@[simp] theorem State.modOp_turns (s : State) (o : Nat) (f : EngineOp → EngineOp) : (s.modOp o f).turns = s.turns := rfl
@[simp] theorem State.modOp_cur (s : State) (o : Nat) (f : EngineOp → EngineOp) : (s.modOp o f).cur = s.cur := rfl
@[simp] theorem State.modOp_curB (s : State) (o : Nat) (f : EngineOp → EngineOp) : (s.modOp o f).curB = s.curB := rfl
@[simp] theorem State.modOp_draw (s : State) (o : Nat) (f : EngineOp → EngineOp) : (s.modOp o f).draw = s.draw := rfl
@[simp] theorem State.modOp_nextId (s : State) (o : Nat) (f : EngineOp → EngineOp) : (s.modOp o f).nextId = s.nextId := rfl
@[simp] theorem State.modOp_groups (s : State) (o : Nat) (f : EngineOp → EngineOp) : (s.modOp o f).groups = s.groups := rfl
@[simp] theorem State.modOp_teams (s : State) (o : Nat) (f : EngineOp → EngineOp) : (s.modOp o f).teams = s.teams := rfl
@[simp] theorem State.modOp_launches (s : State) (o : Nat) (f : EngineOp → EngineOp) : (s.modOp o f).launches = s.launches := rfl
@[simp] theorem State.modOp_mem (s : State) (o : Nat) (f : EngineOp → EngineOp) : (s.modOp o f).mem = s.mem := rfl
@[simp] theorem State.modOp_poison (s : State) (o : Nat) (f : EngineOp → EngineOp) : (s.modOp o f).poison = s.poison := rfl
@[simp] theorem State.modOp_symErrs (s : State) (o : Nat) (f : EngineOp → EngineOp) : (s.modOp o f).symErrs = s.symErrs := rfl
@[simp] theorem State.modOp_caches (s : State) (o : Nat) (f : EngineOp → EngineOp) : (s.modOp o f).caches = s.caches := rfl
@[simp] theorem State.modOp_homes (s : State) (o : Nat) (f : EngineOp → EngineOp) : (s.modOp o f).homes = s.homes := rfl
@[simp] theorem State.modOp_own (s : State) (o : Nat) (f : EngineOp → EngineOp) : (s.modOp o f).own = s.own := rfl
@[simp] theorem State.modOp_inval (s : State) (o : Nat) (f : EngineOp → EngineOp) : (s.modOp o f).inval = s.inval := rfl
@[simp] theorem State.modOp_tlb (s : State) (o : Nat) (f : EngineOp → EngineOp) : (s.modOp o f).tlb = s.tlb := rfl
@[simp] theorem State.modOp_locks (s : State) (o : Nat) (f : EngineOp → EngineOp) : (s.modOp o f).locks = s.locks := rfl
@[simp] theorem State.modOp_faults (s : State) (o : Nat) (f : EngineOp → EngineOp) : (s.modOp o f).faults = s.faults := rfl
@[simp] theorem State.modOp_moves (s : State) (o : Nat) (f : EngineOp → EngineOp) : (s.modOp o f).moves = s.moves := rfl
@[simp] theorem State.modOp_oddPass (s : State) (o : Nat) (f : EngineOp → EngineOp) : (s.modOp o f).oddPass = s.oddPass := rfl
@[simp] theorem State.modOp_hot (s : State) (o : Nat) (f : EngineOp → EngineOp) : (s.modOp o f).hot = s.hot := rfl
@[simp] theorem State.modOp_decs (s : State) (o : Nat) (f : EngineOp → EngineOp) : (s.modOp o f).decs = s.decs := rfl
@[simp] theorem State.modOp_wins (s : State) (o : Nat) (f : EngineOp → EngineOp) : (s.modOp o f).wins = s.wins := rfl
@[simp] theorem State.modOp_msgs (s : State) (o : Nat) (f : EngineOp → EngineOp) : (s.modOp o f).msgs = s.msgs := rfl
@[simp] theorem State.modOp_homeAtoms (s : State) (o : Nat) (f : EngineOp → EngineOp) : (s.modOp o f).homeAtoms = s.homeAtoms := rfl
@[simp] theorem State.modOp_booths (s : State) (o : Nat) (f : EngineOp → EngineOp) : (s.modOp o f).booths = s.booths := rfl
@[simp] theorem State.modOp_tasks (s : State) (o : Nat) (f : EngineOp → EngineOp) : (s.modOp o f).tasks = s.tasks := rfl
@[simp] theorem State.modOp_tileOps (s : State) (o : Nat) (f : EngineOp → EngineOp) : (s.modOp o f).tileOps = s.tileOps := rfl
@[simp] theorem State.modOp_poolOrder (s : State) (o : Nat) (f : EngineOp → EngineOp) : (s.modOp o f).poolOrder = s.poolOrder := rfl
@[simp] theorem State.modOp_msix (s : State) (o : Nat) (f : EngineOp → EngineOp) : (s.modOp o f).msix = s.msix := rfl
@[simp] theorem State.modOp_frames (s : State) (o : Nat) (f : EngineOp → EngineOp) : (s.modOp o f).frames = s.frames := rfl
@[simp] theorem State.modOp_stores (s : State) (o : Nat) (f : EngineOp → EngineOp) : (s.modOp o f).stores = s.stores := rfl
@[simp] theorem State.modOp_rows (s : State) (o : Nat) (f : EngineOp → EngineOp) : (s.modOp o f).rows = s.rows := rfl
@[simp] theorem State.modOp_cxl (s : State) (o : Nat) (f : EngineOp → EngineOp) : (s.modOp o f).cxl = s.cxl := rfl
@[simp] theorem State.modOp_pf (s : State) (o : Nat) (f : EngineOp → EngineOp) : (s.modOp o f).pf = s.pf := rfl
@[simp] theorem State.modOp_vfq (s : State) (o : Nat) (f : EngineOp → EngineOp) : (s.modOp o f).vfq = s.vfq := rfl
@[simp] theorem State.modOp_queues (s : State) (o : Nat) (f : EngineOp → EngineOp) : (s.modOp o f).queues = s.queues := rfl
@[simp] theorem State.modOp_stopped (s : State) (o : Nat) (f : EngineOp → EngineOp) : (s.modOp o f).stopped = s.stopped := rfl
@[simp] theorem State.modOp_shares (s : State) (o : Nat) (f : EngineOp → EngineOp) : (s.modOp o f).shares = s.shares := rfl
@[simp] theorem State.modOp_epoch (s : State) (o : Nat) (f : EngineOp → EngineOp) : (s.modOp o f).epoch = s.epoch := rfl
@[simp] theorem State.modOp_levels (s : State) (o : Nat) (f : EngineOp → EngineOp) : (s.modOp o f).levels = s.levels := rfl
@[simp] theorem State.modOp_requests (s : State) (o : Nat) (f : EngineOp → EngineOp) : (s.modOp o f).requests = s.requests := rfl
@[simp] theorem State.modOp_roundRobin (s : State) (o : Nat) (f : EngineOp → EngineOp) : (s.modOp o f).roundRobin = s.roundRobin := rfl
@[simp] theorem State.modOp_slices (s : State) (o : Nat) (f : EngineOp → EngineOp) : (s.modOp o f).slices = s.slices := rfl
@[simp] theorem State.modOp_meshHeads (s : State) (o : Nat) (f : EngineOp → EngineOp) : (s.modOp o f).meshHeads = s.meshHeads := rfl
@[simp] theorem State.modOp_meshOuts (s : State) (o : Nat) (f : EngineOp → EngineOp) : (s.modOp o f).meshOuts = s.meshOuts := rfl
@[simp] theorem State.modOp_leaves (s : State) (o : Nat) (f : EngineOp → EngineOp) : (s.modOp o f).leaves = s.leaves := rfl
@[simp] theorem State.modOp_raysIdle (s : State) (o : Nat) (f : EngineOp → EngineOp) : (s.modOp o f).raysIdle = s.raysIdle := rfl
@[simp] theorem State.modOp_linkDirs (s : State) (o : Nat) (f : EngineOp → EngineOp) : (s.modOp o f).linkDirs = s.linkDirs := rfl
@[simp] theorem State.modOp_linkLayers (s : State) (o : Nat) (f : EngineOp → EngineOp) : (s.modOp o f).linkLayers = s.linkLayers := rfl
@[simp] theorem State.modOp_oppPaths (s : State) (o : Nat) (f : EngineOp → EngineOp) : (s.modOp o f).oppPaths = s.oppPaths := rfl
@[simp] theorem State.modOp_fabWaiting (s : State) (o : Nat) (f : EngineOp → EngineOp) : (s.modOp o f).fabWaiting = s.fabWaiting := rfl
@[simp] theorem State.modOp_fabSeq (s : State) (o : Nat) (f : EngineOp → EngineOp) : (s.modOp o f).fabSeq = s.fabSeq := rfl
@[simp] theorem State.modOp_fabUnacked (s : State) (o : Nat) (f : EngineOp → EngineOp) : (s.modOp o f).fabUnacked = s.fabUnacked := rfl
@[simp] theorem State.modOp_fabSent (s : State) (o : Nat) (f : EngineOp → EngineOp) : (s.modOp o f).fabSent = s.fabSent := rfl
@[simp] theorem State.modOp_fabHeld (s : State) (o : Nat) (f : EngineOp → EngineOp) : (s.modOp o f).fabHeld = s.fabHeld := rfl
@[simp] theorem State.modOp_fabDown (s : State) (o : Nat) (f : EngineOp → EngineOp) : (s.modOp o f).fabDown = s.fabDown := rfl
@[simp] theorem State.modOp_fabReplays (s : State) (o : Nat) (f : EngineOp → EngineOp) : (s.modOp o f).fabReplays = s.fabReplays := rfl
@[simp] theorem State.modOp_device (s : State) (o : Nat) (f : EngineOp → EngineOp) : (s.modOp o f).device = s.device := rfl
@[simp] theorem State.modOp_ports (s : State) (o : Nat) (f : EngineOp → EngineOp) : (s.modOp o f).ports = s.ports := rfl
@[simp] theorem State.modOp_presents (s : State) (o : Nat) (f : EngineOp → EngineOp) : (s.modOp o f).presents = s.presents := rfl
@[simp] theorem State.modOp_swap (s : State) (o : Nat) (f : EngineOp → EngineOp) : (s.modOp o f).swap = s.swap := rfl
@[simp] theorem State.modOp_mgmt (s : State) (o : Nat) (f : EngineOp → EngineOp) : (s.modOp o f).mgmt = s.mgmt := rfl
@[simp] theorem State.modOp_reserved (s : State) (o : Nat) (f : EngineOp → EngineOp) : (s.modOp o f).reserved = s.reserved := rfl

/-! ### pfSet -/

@[simp] theorem State.pfSet_cycle (s : State) (off v : Nat) : (s.pfSet off v).cycle = s.cycle := rfl
@[simp] theorem State.pfSet_agenda (s : State) (off v : Nat) : (s.pfSet off v).agenda = s.agenda := rfl
@[simp] theorem State.pfSet_turns (s : State) (off v : Nat) : (s.pfSet off v).turns = s.turns := rfl
@[simp] theorem State.pfSet_cur (s : State) (off v : Nat) : (s.pfSet off v).cur = s.cur := rfl
@[simp] theorem State.pfSet_curB (s : State) (off v : Nat) : (s.pfSet off v).curB = s.curB := rfl
@[simp] theorem State.pfSet_draw (s : State) (off v : Nat) : (s.pfSet off v).draw = s.draw := rfl
@[simp] theorem State.pfSet_nextId (s : State) (off v : Nat) : (s.pfSet off v).nextId = s.nextId := rfl
@[simp] theorem State.pfSet_groups (s : State) (off v : Nat) : (s.pfSet off v).groups = s.groups := rfl
@[simp] theorem State.pfSet_teams (s : State) (off v : Nat) : (s.pfSet off v).teams = s.teams := rfl
@[simp] theorem State.pfSet_launches (s : State) (off v : Nat) : (s.pfSet off v).launches = s.launches := rfl
@[simp] theorem State.pfSet_mem (s : State) (off v : Nat) : (s.pfSet off v).mem = s.mem := rfl
@[simp] theorem State.pfSet_poison (s : State) (off v : Nat) : (s.pfSet off v).poison = s.poison := rfl
@[simp] theorem State.pfSet_symErrs (s : State) (off v : Nat) : (s.pfSet off v).symErrs = s.symErrs := rfl
@[simp] theorem State.pfSet_caches (s : State) (off v : Nat) : (s.pfSet off v).caches = s.caches := rfl
@[simp] theorem State.pfSet_homes (s : State) (off v : Nat) : (s.pfSet off v).homes = s.homes := rfl
@[simp] theorem State.pfSet_own (s : State) (off v : Nat) : (s.pfSet off v).own = s.own := rfl
@[simp] theorem State.pfSet_inval (s : State) (off v : Nat) : (s.pfSet off v).inval = s.inval := rfl
@[simp] theorem State.pfSet_tlb (s : State) (off v : Nat) : (s.pfSet off v).tlb = s.tlb := rfl
@[simp] theorem State.pfSet_locks (s : State) (off v : Nat) : (s.pfSet off v).locks = s.locks := rfl
@[simp] theorem State.pfSet_faults (s : State) (off v : Nat) : (s.pfSet off v).faults = s.faults := rfl
@[simp] theorem State.pfSet_moves (s : State) (off v : Nat) : (s.pfSet off v).moves = s.moves := rfl
@[simp] theorem State.pfSet_oddPass (s : State) (off v : Nat) : (s.pfSet off v).oddPass = s.oddPass := rfl
@[simp] theorem State.pfSet_hot (s : State) (off v : Nat) : (s.pfSet off v).hot = s.hot := rfl
@[simp] theorem State.pfSet_decs (s : State) (off v : Nat) : (s.pfSet off v).decs = s.decs := rfl
@[simp] theorem State.pfSet_wins (s : State) (off v : Nat) : (s.pfSet off v).wins = s.wins := rfl
@[simp] theorem State.pfSet_msgs (s : State) (off v : Nat) : (s.pfSet off v).msgs = s.msgs := rfl
@[simp] theorem State.pfSet_homeAtoms (s : State) (off v : Nat) : (s.pfSet off v).homeAtoms = s.homeAtoms := rfl
@[simp] theorem State.pfSet_booths (s : State) (off v : Nat) : (s.pfSet off v).booths = s.booths := rfl
@[simp] theorem State.pfSet_tasks (s : State) (off v : Nat) : (s.pfSet off v).tasks = s.tasks := rfl
@[simp] theorem State.pfSet_ops (s : State) (off v : Nat) : (s.pfSet off v).ops = s.ops := rfl
@[simp] theorem State.pfSet_tileOps (s : State) (off v : Nat) : (s.pfSet off v).tileOps = s.tileOps := rfl
@[simp] theorem State.pfSet_poolOrder (s : State) (off v : Nat) : (s.pfSet off v).poolOrder = s.poolOrder := rfl
@[simp] theorem State.pfSet_msix (s : State) (off v : Nat) : (s.pfSet off v).msix = s.msix := rfl
@[simp] theorem State.pfSet_frames (s : State) (off v : Nat) : (s.pfSet off v).frames = s.frames := rfl
@[simp] theorem State.pfSet_stores (s : State) (off v : Nat) : (s.pfSet off v).stores = s.stores := rfl
@[simp] theorem State.pfSet_rows (s : State) (off v : Nat) : (s.pfSet off v).rows = s.rows := rfl
@[simp] theorem State.pfSet_cxl (s : State) (off v : Nat) : (s.pfSet off v).cxl = s.cxl := rfl
@[simp] theorem State.pfSet_vfq (s : State) (off v : Nat) : (s.pfSet off v).vfq = s.vfq := rfl
@[simp] theorem State.pfSet_queues (s : State) (off v : Nat) : (s.pfSet off v).queues = s.queues := rfl
@[simp] theorem State.pfSet_stopped (s : State) (off v : Nat) : (s.pfSet off v).stopped = s.stopped := rfl
@[simp] theorem State.pfSet_shares (s : State) (off v : Nat) : (s.pfSet off v).shares = s.shares := rfl
@[simp] theorem State.pfSet_epoch (s : State) (off v : Nat) : (s.pfSet off v).epoch = s.epoch := rfl
@[simp] theorem State.pfSet_levels (s : State) (off v : Nat) : (s.pfSet off v).levels = s.levels := rfl
@[simp] theorem State.pfSet_requests (s : State) (off v : Nat) : (s.pfSet off v).requests = s.requests := rfl
@[simp] theorem State.pfSet_roundRobin (s : State) (off v : Nat) : (s.pfSet off v).roundRobin = s.roundRobin := rfl
@[simp] theorem State.pfSet_slices (s : State) (off v : Nat) : (s.pfSet off v).slices = s.slices := rfl
@[simp] theorem State.pfSet_meshHeads (s : State) (off v : Nat) : (s.pfSet off v).meshHeads = s.meshHeads := rfl
@[simp] theorem State.pfSet_meshOuts (s : State) (off v : Nat) : (s.pfSet off v).meshOuts = s.meshOuts := rfl
@[simp] theorem State.pfSet_leaves (s : State) (off v : Nat) : (s.pfSet off v).leaves = s.leaves := rfl
@[simp] theorem State.pfSet_raysIdle (s : State) (off v : Nat) : (s.pfSet off v).raysIdle = s.raysIdle := rfl
@[simp] theorem State.pfSet_linkDirs (s : State) (off v : Nat) : (s.pfSet off v).linkDirs = s.linkDirs := rfl
@[simp] theorem State.pfSet_linkLayers (s : State) (off v : Nat) : (s.pfSet off v).linkLayers = s.linkLayers := rfl
@[simp] theorem State.pfSet_oppPaths (s : State) (off v : Nat) : (s.pfSet off v).oppPaths = s.oppPaths := rfl
@[simp] theorem State.pfSet_fabWaiting (s : State) (off v : Nat) : (s.pfSet off v).fabWaiting = s.fabWaiting := rfl
@[simp] theorem State.pfSet_fabSeq (s : State) (off v : Nat) : (s.pfSet off v).fabSeq = s.fabSeq := rfl
@[simp] theorem State.pfSet_fabUnacked (s : State) (off v : Nat) : (s.pfSet off v).fabUnacked = s.fabUnacked := rfl
@[simp] theorem State.pfSet_fabSent (s : State) (off v : Nat) : (s.pfSet off v).fabSent = s.fabSent := rfl
@[simp] theorem State.pfSet_fabHeld (s : State) (off v : Nat) : (s.pfSet off v).fabHeld = s.fabHeld := rfl
@[simp] theorem State.pfSet_fabDown (s : State) (off v : Nat) : (s.pfSet off v).fabDown = s.fabDown := rfl
@[simp] theorem State.pfSet_fabReplays (s : State) (off v : Nat) : (s.pfSet off v).fabReplays = s.fabReplays := rfl
@[simp] theorem State.pfSet_device (s : State) (off v : Nat) : (s.pfSet off v).device = s.device := rfl
@[simp] theorem State.pfSet_ports (s : State) (off v : Nat) : (s.pfSet off v).ports = s.ports := rfl
@[simp] theorem State.pfSet_presents (s : State) (off v : Nat) : (s.pfSet off v).presents = s.presents := rfl
@[simp] theorem State.pfSet_swap (s : State) (off v : Nat) : (s.pfSet off v).swap = s.swap := rfl
@[simp] theorem State.pfSet_mgmt (s : State) (off v : Nat) : (s.pfSet off v).mgmt = s.mgmt := rfl
@[simp] theorem State.pfSet_reserved (s : State) (off v : Nat) : (s.pfSet off v).reserved = s.reserved := rfl

/-! ### qSet -/

@[simp] theorem State.qSet_cycle (s : State) (vf q off v : Nat) : (s.qSet vf q off v).cycle = s.cycle := rfl
@[simp] theorem State.qSet_agenda (s : State) (vf q off v : Nat) : (s.qSet vf q off v).agenda = s.agenda := rfl
@[simp] theorem State.qSet_turns (s : State) (vf q off v : Nat) : (s.qSet vf q off v).turns = s.turns := rfl
@[simp] theorem State.qSet_cur (s : State) (vf q off v : Nat) : (s.qSet vf q off v).cur = s.cur := rfl
@[simp] theorem State.qSet_curB (s : State) (vf q off v : Nat) : (s.qSet vf q off v).curB = s.curB := rfl
@[simp] theorem State.qSet_draw (s : State) (vf q off v : Nat) : (s.qSet vf q off v).draw = s.draw := rfl
@[simp] theorem State.qSet_nextId (s : State) (vf q off v : Nat) : (s.qSet vf q off v).nextId = s.nextId := rfl
@[simp] theorem State.qSet_groups (s : State) (vf q off v : Nat) : (s.qSet vf q off v).groups = s.groups := rfl
@[simp] theorem State.qSet_teams (s : State) (vf q off v : Nat) : (s.qSet vf q off v).teams = s.teams := rfl
@[simp] theorem State.qSet_launches (s : State) (vf q off v : Nat) : (s.qSet vf q off v).launches = s.launches := rfl
@[simp] theorem State.qSet_mem (s : State) (vf q off v : Nat) : (s.qSet vf q off v).mem = s.mem := rfl
@[simp] theorem State.qSet_poison (s : State) (vf q off v : Nat) : (s.qSet vf q off v).poison = s.poison := rfl
@[simp] theorem State.qSet_symErrs (s : State) (vf q off v : Nat) : (s.qSet vf q off v).symErrs = s.symErrs := rfl
@[simp] theorem State.qSet_caches (s : State) (vf q off v : Nat) : (s.qSet vf q off v).caches = s.caches := rfl
@[simp] theorem State.qSet_homes (s : State) (vf q off v : Nat) : (s.qSet vf q off v).homes = s.homes := rfl
@[simp] theorem State.qSet_own (s : State) (vf q off v : Nat) : (s.qSet vf q off v).own = s.own := rfl
@[simp] theorem State.qSet_inval (s : State) (vf q off v : Nat) : (s.qSet vf q off v).inval = s.inval := rfl
@[simp] theorem State.qSet_tlb (s : State) (vf q off v : Nat) : (s.qSet vf q off v).tlb = s.tlb := rfl
@[simp] theorem State.qSet_locks (s : State) (vf q off v : Nat) : (s.qSet vf q off v).locks = s.locks := rfl
@[simp] theorem State.qSet_faults (s : State) (vf q off v : Nat) : (s.qSet vf q off v).faults = s.faults := rfl
@[simp] theorem State.qSet_moves (s : State) (vf q off v : Nat) : (s.qSet vf q off v).moves = s.moves := rfl
@[simp] theorem State.qSet_oddPass (s : State) (vf q off v : Nat) : (s.qSet vf q off v).oddPass = s.oddPass := rfl
@[simp] theorem State.qSet_hot (s : State) (vf q off v : Nat) : (s.qSet vf q off v).hot = s.hot := rfl
@[simp] theorem State.qSet_decs (s : State) (vf q off v : Nat) : (s.qSet vf q off v).decs = s.decs := rfl
@[simp] theorem State.qSet_wins (s : State) (vf q off v : Nat) : (s.qSet vf q off v).wins = s.wins := rfl
@[simp] theorem State.qSet_msgs (s : State) (vf q off v : Nat) : (s.qSet vf q off v).msgs = s.msgs := rfl
@[simp] theorem State.qSet_homeAtoms (s : State) (vf q off v : Nat) : (s.qSet vf q off v).homeAtoms = s.homeAtoms := rfl
@[simp] theorem State.qSet_booths (s : State) (vf q off v : Nat) : (s.qSet vf q off v).booths = s.booths := rfl
@[simp] theorem State.qSet_tasks (s : State) (vf q off v : Nat) : (s.qSet vf q off v).tasks = s.tasks := rfl
@[simp] theorem State.qSet_ops (s : State) (vf q off v : Nat) : (s.qSet vf q off v).ops = s.ops := rfl
@[simp] theorem State.qSet_tileOps (s : State) (vf q off v : Nat) : (s.qSet vf q off v).tileOps = s.tileOps := rfl
@[simp] theorem State.qSet_poolOrder (s : State) (vf q off v : Nat) : (s.qSet vf q off v).poolOrder = s.poolOrder := rfl
@[simp] theorem State.qSet_msix (s : State) (vf q off v : Nat) : (s.qSet vf q off v).msix = s.msix := rfl
@[simp] theorem State.qSet_frames (s : State) (vf q off v : Nat) : (s.qSet vf q off v).frames = s.frames := rfl
@[simp] theorem State.qSet_stores (s : State) (vf q off v : Nat) : (s.qSet vf q off v).stores = s.stores := rfl
@[simp] theorem State.qSet_rows (s : State) (vf q off v : Nat) : (s.qSet vf q off v).rows = s.rows := rfl
@[simp] theorem State.qSet_cxl (s : State) (vf q off v : Nat) : (s.qSet vf q off v).cxl = s.cxl := rfl
@[simp] theorem State.qSet_pf (s : State) (vf q off v : Nat) : (s.qSet vf q off v).pf = s.pf := rfl
@[simp] theorem State.qSet_queues (s : State) (vf q off v : Nat) : (s.qSet vf q off v).queues = s.queues := rfl
@[simp] theorem State.qSet_stopped (s : State) (vf q off v : Nat) : (s.qSet vf q off v).stopped = s.stopped := rfl
@[simp] theorem State.qSet_shares (s : State) (vf q off v : Nat) : (s.qSet vf q off v).shares = s.shares := rfl
@[simp] theorem State.qSet_epoch (s : State) (vf q off v : Nat) : (s.qSet vf q off v).epoch = s.epoch := rfl
@[simp] theorem State.qSet_levels (s : State) (vf q off v : Nat) : (s.qSet vf q off v).levels = s.levels := rfl
@[simp] theorem State.qSet_requests (s : State) (vf q off v : Nat) : (s.qSet vf q off v).requests = s.requests := rfl
@[simp] theorem State.qSet_roundRobin (s : State) (vf q off v : Nat) : (s.qSet vf q off v).roundRobin = s.roundRobin := rfl
@[simp] theorem State.qSet_slices (s : State) (vf q off v : Nat) : (s.qSet vf q off v).slices = s.slices := rfl
@[simp] theorem State.qSet_meshHeads (s : State) (vf q off v : Nat) : (s.qSet vf q off v).meshHeads = s.meshHeads := rfl
@[simp] theorem State.qSet_meshOuts (s : State) (vf q off v : Nat) : (s.qSet vf q off v).meshOuts = s.meshOuts := rfl
@[simp] theorem State.qSet_leaves (s : State) (vf q off v : Nat) : (s.qSet vf q off v).leaves = s.leaves := rfl
@[simp] theorem State.qSet_raysIdle (s : State) (vf q off v : Nat) : (s.qSet vf q off v).raysIdle = s.raysIdle := rfl
@[simp] theorem State.qSet_linkDirs (s : State) (vf q off v : Nat) : (s.qSet vf q off v).linkDirs = s.linkDirs := rfl
@[simp] theorem State.qSet_linkLayers (s : State) (vf q off v : Nat) : (s.qSet vf q off v).linkLayers = s.linkLayers := rfl
@[simp] theorem State.qSet_oppPaths (s : State) (vf q off v : Nat) : (s.qSet vf q off v).oppPaths = s.oppPaths := rfl
@[simp] theorem State.qSet_fabWaiting (s : State) (vf q off v : Nat) : (s.qSet vf q off v).fabWaiting = s.fabWaiting := rfl
@[simp] theorem State.qSet_fabSeq (s : State) (vf q off v : Nat) : (s.qSet vf q off v).fabSeq = s.fabSeq := rfl
@[simp] theorem State.qSet_fabUnacked (s : State) (vf q off v : Nat) : (s.qSet vf q off v).fabUnacked = s.fabUnacked := rfl
@[simp] theorem State.qSet_fabSent (s : State) (vf q off v : Nat) : (s.qSet vf q off v).fabSent = s.fabSent := rfl
@[simp] theorem State.qSet_fabHeld (s : State) (vf q off v : Nat) : (s.qSet vf q off v).fabHeld = s.fabHeld := rfl
@[simp] theorem State.qSet_fabDown (s : State) (vf q off v : Nat) : (s.qSet vf q off v).fabDown = s.fabDown := rfl
@[simp] theorem State.qSet_fabReplays (s : State) (vf q off v : Nat) : (s.qSet vf q off v).fabReplays = s.fabReplays := rfl
@[simp] theorem State.qSet_device (s : State) (vf q off v : Nat) : (s.qSet vf q off v).device = s.device := rfl
@[simp] theorem State.qSet_ports (s : State) (vf q off v : Nat) : (s.qSet vf q off v).ports = s.ports := rfl
@[simp] theorem State.qSet_presents (s : State) (vf q off v : Nat) : (s.qSet vf q off v).presents = s.presents := rfl
@[simp] theorem State.qSet_swap (s : State) (vf q off v : Nat) : (s.qSet vf q off v).swap = s.swap := rfl
@[simp] theorem State.qSet_mgmt (s : State) (vf q off v : Nat) : (s.qSet vf q off v).mgmt = s.mgmt := rfl
@[simp] theorem State.qSet_reserved (s : State) (vf q off v : Nat) : (s.qSet vf q off v).reserved = s.reserved := rfl

/-! ### wakeRetry -/

@[simp] theorem State.wakeRetry_cycle (s : State) : s.wakeRetry.cycle = s.cycle := rfl
@[simp] theorem State.wakeRetry_agenda (s : State) : s.wakeRetry.agenda = s.agenda := rfl
@[simp] theorem State.wakeRetry_turns (s : State) : s.wakeRetry.turns = s.turns := rfl
@[simp] theorem State.wakeRetry_cur (s : State) : s.wakeRetry.cur = s.cur := rfl
@[simp] theorem State.wakeRetry_curB (s : State) : s.wakeRetry.curB = s.curB := rfl
@[simp] theorem State.wakeRetry_draw (s : State) : s.wakeRetry.draw = s.draw := rfl
@[simp] theorem State.wakeRetry_nextId (s : State) : s.wakeRetry.nextId = s.nextId := rfl
@[simp] theorem State.wakeRetry_teams (s : State) : s.wakeRetry.teams = s.teams := rfl
@[simp] theorem State.wakeRetry_launches (s : State) : s.wakeRetry.launches = s.launches := rfl
@[simp] theorem State.wakeRetry_mem (s : State) : s.wakeRetry.mem = s.mem := rfl
@[simp] theorem State.wakeRetry_poison (s : State) : s.wakeRetry.poison = s.poison := rfl
@[simp] theorem State.wakeRetry_symErrs (s : State) : s.wakeRetry.symErrs = s.symErrs := rfl
@[simp] theorem State.wakeRetry_caches (s : State) : s.wakeRetry.caches = s.caches := rfl
@[simp] theorem State.wakeRetry_homes (s : State) : s.wakeRetry.homes = s.homes := rfl
@[simp] theorem State.wakeRetry_own (s : State) : s.wakeRetry.own = s.own := rfl
@[simp] theorem State.wakeRetry_inval (s : State) : s.wakeRetry.inval = s.inval := rfl
@[simp] theorem State.wakeRetry_tlb (s : State) : s.wakeRetry.tlb = s.tlb := rfl
@[simp] theorem State.wakeRetry_locks (s : State) : s.wakeRetry.locks = s.locks := rfl
@[simp] theorem State.wakeRetry_faults (s : State) : s.wakeRetry.faults = s.faults := rfl
@[simp] theorem State.wakeRetry_moves (s : State) : s.wakeRetry.moves = s.moves := rfl
@[simp] theorem State.wakeRetry_oddPass (s : State) : s.wakeRetry.oddPass = s.oddPass := rfl
@[simp] theorem State.wakeRetry_hot (s : State) : s.wakeRetry.hot = s.hot := rfl
@[simp] theorem State.wakeRetry_decs (s : State) : s.wakeRetry.decs = s.decs := rfl
@[simp] theorem State.wakeRetry_wins (s : State) : s.wakeRetry.wins = s.wins := rfl
@[simp] theorem State.wakeRetry_msgs (s : State) : s.wakeRetry.msgs = s.msgs := rfl
@[simp] theorem State.wakeRetry_homeAtoms (s : State) : s.wakeRetry.homeAtoms = s.homeAtoms := rfl
@[simp] theorem State.wakeRetry_booths (s : State) : s.wakeRetry.booths = s.booths := rfl
@[simp] theorem State.wakeRetry_tasks (s : State) : s.wakeRetry.tasks = s.tasks := rfl
@[simp] theorem State.wakeRetry_ops (s : State) : s.wakeRetry.ops = s.ops := rfl
@[simp] theorem State.wakeRetry_tileOps (s : State) : s.wakeRetry.tileOps = s.tileOps := rfl
@[simp] theorem State.wakeRetry_poolOrder (s : State) : s.wakeRetry.poolOrder = s.poolOrder := rfl
@[simp] theorem State.wakeRetry_msix (s : State) : s.wakeRetry.msix = s.msix := rfl
@[simp] theorem State.wakeRetry_frames (s : State) : s.wakeRetry.frames = s.frames := rfl
@[simp] theorem State.wakeRetry_stores (s : State) : s.wakeRetry.stores = s.stores := rfl
@[simp] theorem State.wakeRetry_rows (s : State) : s.wakeRetry.rows = s.rows := rfl
@[simp] theorem State.wakeRetry_cxl (s : State) : s.wakeRetry.cxl = s.cxl := rfl
@[simp] theorem State.wakeRetry_pf (s : State) : s.wakeRetry.pf = s.pf := rfl
@[simp] theorem State.wakeRetry_vfq (s : State) : s.wakeRetry.vfq = s.vfq := rfl
@[simp] theorem State.wakeRetry_queues (s : State) : s.wakeRetry.queues = s.queues := rfl
@[simp] theorem State.wakeRetry_stopped (s : State) : s.wakeRetry.stopped = s.stopped := rfl
@[simp] theorem State.wakeRetry_shares (s : State) : s.wakeRetry.shares = s.shares := rfl
@[simp] theorem State.wakeRetry_epoch (s : State) : s.wakeRetry.epoch = s.epoch := rfl
@[simp] theorem State.wakeRetry_levels (s : State) : s.wakeRetry.levels = s.levels := rfl
@[simp] theorem State.wakeRetry_requests (s : State) : s.wakeRetry.requests = s.requests := rfl
@[simp] theorem State.wakeRetry_roundRobin (s : State) : s.wakeRetry.roundRobin = s.roundRobin := rfl
@[simp] theorem State.wakeRetry_slices (s : State) : s.wakeRetry.slices = s.slices := rfl
@[simp] theorem State.wakeRetry_meshHeads (s : State) : s.wakeRetry.meshHeads = s.meshHeads := rfl
@[simp] theorem State.wakeRetry_meshOuts (s : State) : s.wakeRetry.meshOuts = s.meshOuts := rfl
@[simp] theorem State.wakeRetry_leaves (s : State) : s.wakeRetry.leaves = s.leaves := rfl
@[simp] theorem State.wakeRetry_raysIdle (s : State) : s.wakeRetry.raysIdle = s.raysIdle := rfl
@[simp] theorem State.wakeRetry_linkDirs (s : State) : s.wakeRetry.linkDirs = s.linkDirs := rfl
@[simp] theorem State.wakeRetry_linkLayers (s : State) : s.wakeRetry.linkLayers = s.linkLayers := rfl
@[simp] theorem State.wakeRetry_oppPaths (s : State) : s.wakeRetry.oppPaths = s.oppPaths := rfl
@[simp] theorem State.wakeRetry_fabWaiting (s : State) : s.wakeRetry.fabWaiting = s.fabWaiting := rfl
@[simp] theorem State.wakeRetry_fabSeq (s : State) : s.wakeRetry.fabSeq = s.fabSeq := rfl
@[simp] theorem State.wakeRetry_fabUnacked (s : State) : s.wakeRetry.fabUnacked = s.fabUnacked := rfl
@[simp] theorem State.wakeRetry_fabSent (s : State) : s.wakeRetry.fabSent = s.fabSent := rfl
@[simp] theorem State.wakeRetry_fabHeld (s : State) : s.wakeRetry.fabHeld = s.fabHeld := rfl
@[simp] theorem State.wakeRetry_fabDown (s : State) : s.wakeRetry.fabDown = s.fabDown := rfl
@[simp] theorem State.wakeRetry_fabReplays (s : State) : s.wakeRetry.fabReplays = s.fabReplays := rfl
@[simp] theorem State.wakeRetry_device (s : State) : s.wakeRetry.device = s.device := rfl
@[simp] theorem State.wakeRetry_ports (s : State) : s.wakeRetry.ports = s.ports := rfl
@[simp] theorem State.wakeRetry_presents (s : State) : s.wakeRetry.presents = s.presents := rfl
@[simp] theorem State.wakeRetry_swap (s : State) : s.wakeRetry.swap = s.swap := rfl
@[simp] theorem State.wakeRetry_mgmt (s : State) : s.wakeRetry.mgmt = s.mgmt := rfl
@[simp] theorem State.wakeRetry_reserved (s : State) : s.wakeRetry.reserved = s.reserved := rfl

/-! ### noteIdle -/

@[simp] theorem State.noteIdle_cycle (s : State) : s.noteIdle.cycle = s.cycle := rfl
@[simp] theorem State.noteIdle_agenda (s : State) : s.noteIdle.agenda = s.agenda := rfl
@[simp] theorem State.noteIdle_turns (s : State) : s.noteIdle.turns = s.turns := rfl
@[simp] theorem State.noteIdle_cur (s : State) : s.noteIdle.cur = s.cur := rfl
@[simp] theorem State.noteIdle_curB (s : State) : s.noteIdle.curB = s.curB := rfl
@[simp] theorem State.noteIdle_draw (s : State) : s.noteIdle.draw = s.draw := rfl
@[simp] theorem State.noteIdle_nextId (s : State) : s.noteIdle.nextId = s.nextId := rfl
@[simp] theorem State.noteIdle_groups (s : State) : s.noteIdle.groups = s.groups := rfl
@[simp] theorem State.noteIdle_launches (s : State) : s.noteIdle.launches = s.launches := rfl
@[simp] theorem State.noteIdle_mem (s : State) : s.noteIdle.mem = s.mem := rfl
@[simp] theorem State.noteIdle_poison (s : State) : s.noteIdle.poison = s.poison := rfl
@[simp] theorem State.noteIdle_symErrs (s : State) : s.noteIdle.symErrs = s.symErrs := rfl
@[simp] theorem State.noteIdle_caches (s : State) : s.noteIdle.caches = s.caches := rfl
@[simp] theorem State.noteIdle_homes (s : State) : s.noteIdle.homes = s.homes := rfl
@[simp] theorem State.noteIdle_own (s : State) : s.noteIdle.own = s.own := rfl
@[simp] theorem State.noteIdle_inval (s : State) : s.noteIdle.inval = s.inval := rfl
@[simp] theorem State.noteIdle_tlb (s : State) : s.noteIdle.tlb = s.tlb := rfl
@[simp] theorem State.noteIdle_locks (s : State) : s.noteIdle.locks = s.locks := rfl
@[simp] theorem State.noteIdle_faults (s : State) : s.noteIdle.faults = s.faults := rfl
@[simp] theorem State.noteIdle_moves (s : State) : s.noteIdle.moves = s.moves := rfl
@[simp] theorem State.noteIdle_oddPass (s : State) : s.noteIdle.oddPass = s.oddPass := rfl
@[simp] theorem State.noteIdle_hot (s : State) : s.noteIdle.hot = s.hot := rfl
@[simp] theorem State.noteIdle_decs (s : State) : s.noteIdle.decs = s.decs := rfl
@[simp] theorem State.noteIdle_wins (s : State) : s.noteIdle.wins = s.wins := rfl
@[simp] theorem State.noteIdle_msgs (s : State) : s.noteIdle.msgs = s.msgs := rfl
@[simp] theorem State.noteIdle_homeAtoms (s : State) : s.noteIdle.homeAtoms = s.homeAtoms := rfl
@[simp] theorem State.noteIdle_booths (s : State) : s.noteIdle.booths = s.booths := rfl
@[simp] theorem State.noteIdle_tasks (s : State) : s.noteIdle.tasks = s.tasks := rfl
@[simp] theorem State.noteIdle_ops (s : State) : s.noteIdle.ops = s.ops := rfl
@[simp] theorem State.noteIdle_tileOps (s : State) : s.noteIdle.tileOps = s.tileOps := rfl
@[simp] theorem State.noteIdle_poolOrder (s : State) : s.noteIdle.poolOrder = s.poolOrder := rfl
@[simp] theorem State.noteIdle_msix (s : State) : s.noteIdle.msix = s.msix := rfl
@[simp] theorem State.noteIdle_frames (s : State) : s.noteIdle.frames = s.frames := rfl
@[simp] theorem State.noteIdle_stores (s : State) : s.noteIdle.stores = s.stores := rfl
@[simp] theorem State.noteIdle_rows (s : State) : s.noteIdle.rows = s.rows := rfl
@[simp] theorem State.noteIdle_cxl (s : State) : s.noteIdle.cxl = s.cxl := rfl
@[simp] theorem State.noteIdle_pf (s : State) : s.noteIdle.pf = s.pf := rfl
@[simp] theorem State.noteIdle_vfq (s : State) : s.noteIdle.vfq = s.vfq := rfl
@[simp] theorem State.noteIdle_queues (s : State) : s.noteIdle.queues = s.queues := rfl
@[simp] theorem State.noteIdle_stopped (s : State) : s.noteIdle.stopped = s.stopped := rfl
@[simp] theorem State.noteIdle_shares (s : State) : s.noteIdle.shares = s.shares := rfl
@[simp] theorem State.noteIdle_epoch (s : State) : s.noteIdle.epoch = s.epoch := rfl
@[simp] theorem State.noteIdle_levels (s : State) : s.noteIdle.levels = s.levels := rfl
@[simp] theorem State.noteIdle_requests (s : State) : s.noteIdle.requests = s.requests := rfl
@[simp] theorem State.noteIdle_roundRobin (s : State) : s.noteIdle.roundRobin = s.roundRobin := rfl
@[simp] theorem State.noteIdle_slices (s : State) : s.noteIdle.slices = s.slices := rfl
@[simp] theorem State.noteIdle_meshHeads (s : State) : s.noteIdle.meshHeads = s.meshHeads := rfl
@[simp] theorem State.noteIdle_meshOuts (s : State) : s.noteIdle.meshOuts = s.meshOuts := rfl
@[simp] theorem State.noteIdle_linkDirs (s : State) : s.noteIdle.linkDirs = s.linkDirs := rfl
@[simp] theorem State.noteIdle_linkLayers (s : State) : s.noteIdle.linkLayers = s.linkLayers := rfl
@[simp] theorem State.noteIdle_oppPaths (s : State) : s.noteIdle.oppPaths = s.oppPaths := rfl
@[simp] theorem State.noteIdle_fabWaiting (s : State) : s.noteIdle.fabWaiting = s.fabWaiting := rfl
@[simp] theorem State.noteIdle_fabSeq (s : State) : s.noteIdle.fabSeq = s.fabSeq := rfl
@[simp] theorem State.noteIdle_fabUnacked (s : State) : s.noteIdle.fabUnacked = s.fabUnacked := rfl
@[simp] theorem State.noteIdle_fabSent (s : State) : s.noteIdle.fabSent = s.fabSent := rfl
@[simp] theorem State.noteIdle_fabHeld (s : State) : s.noteIdle.fabHeld = s.fabHeld := rfl
@[simp] theorem State.noteIdle_fabDown (s : State) : s.noteIdle.fabDown = s.fabDown := rfl
@[simp] theorem State.noteIdle_fabReplays (s : State) : s.noteIdle.fabReplays = s.fabReplays := rfl
@[simp] theorem State.noteIdle_device (s : State) : s.noteIdle.device = s.device := rfl
@[simp] theorem State.noteIdle_ports (s : State) : s.noteIdle.ports = s.ports := rfl
@[simp] theorem State.noteIdle_presents (s : State) : s.noteIdle.presents = s.presents := rfl
@[simp] theorem State.noteIdle_swap (s : State) : s.noteIdle.swap = s.swap := rfl
@[simp] theorem State.noteIdle_mgmt (s : State) : s.noteIdle.mgmt = s.mgmt := rfl
@[simp] theorem State.noteIdle_reserved (s : State) : s.noteIdle.reserved = s.reserved := rfl

/-! ### by_ -/

@[simp] theorem State.by__agenda (s : State) (c : Nat) : (s.by_ c).agenda = s.agenda := rfl
@[simp] theorem State.by__turns (s : State) (c : Nat) : (s.by_ c).turns = s.turns := rfl
@[simp] theorem State.by__cur (s : State) (c : Nat) : (s.by_ c).cur = s.cur := rfl
@[simp] theorem State.by__curB (s : State) (c : Nat) : (s.by_ c).curB = s.curB := rfl
@[simp] theorem State.by__draw (s : State) (c : Nat) : (s.by_ c).draw = s.draw := rfl
@[simp] theorem State.by__nextId (s : State) (c : Nat) : (s.by_ c).nextId = s.nextId := rfl
@[simp] theorem State.by__groups (s : State) (c : Nat) : (s.by_ c).groups = s.groups := rfl
@[simp] theorem State.by__teams (s : State) (c : Nat) : (s.by_ c).teams = s.teams := rfl
@[simp] theorem State.by__launches (s : State) (c : Nat) : (s.by_ c).launches = s.launches := rfl
@[simp] theorem State.by__mem (s : State) (c : Nat) : (s.by_ c).mem = s.mem := rfl
@[simp] theorem State.by__poison (s : State) (c : Nat) : (s.by_ c).poison = s.poison := rfl
@[simp] theorem State.by__symErrs (s : State) (c : Nat) : (s.by_ c).symErrs = s.symErrs := rfl
@[simp] theorem State.by__caches (s : State) (c : Nat) : (s.by_ c).caches = s.caches := rfl
@[simp] theorem State.by__homes (s : State) (c : Nat) : (s.by_ c).homes = s.homes := rfl
@[simp] theorem State.by__own (s : State) (c : Nat) : (s.by_ c).own = s.own := rfl
@[simp] theorem State.by__inval (s : State) (c : Nat) : (s.by_ c).inval = s.inval := rfl
@[simp] theorem State.by__tlb (s : State) (c : Nat) : (s.by_ c).tlb = s.tlb := rfl
@[simp] theorem State.by__locks (s : State) (c : Nat) : (s.by_ c).locks = s.locks := rfl
@[simp] theorem State.by__faults (s : State) (c : Nat) : (s.by_ c).faults = s.faults := rfl
@[simp] theorem State.by__moves (s : State) (c : Nat) : (s.by_ c).moves = s.moves := rfl
@[simp] theorem State.by__oddPass (s : State) (c : Nat) : (s.by_ c).oddPass = s.oddPass := rfl
@[simp] theorem State.by__hot (s : State) (c : Nat) : (s.by_ c).hot = s.hot := rfl
@[simp] theorem State.by__decs (s : State) (c : Nat) : (s.by_ c).decs = s.decs := rfl
@[simp] theorem State.by__wins (s : State) (c : Nat) : (s.by_ c).wins = s.wins := rfl
@[simp] theorem State.by__msgs (s : State) (c : Nat) : (s.by_ c).msgs = s.msgs := rfl
@[simp] theorem State.by__homeAtoms (s : State) (c : Nat) : (s.by_ c).homeAtoms = s.homeAtoms := rfl
@[simp] theorem State.by__booths (s : State) (c : Nat) : (s.by_ c).booths = s.booths := rfl
@[simp] theorem State.by__tasks (s : State) (c : Nat) : (s.by_ c).tasks = s.tasks := rfl
@[simp] theorem State.by__ops (s : State) (c : Nat) : (s.by_ c).ops = s.ops := rfl
@[simp] theorem State.by__tileOps (s : State) (c : Nat) : (s.by_ c).tileOps = s.tileOps := rfl
@[simp] theorem State.by__poolOrder (s : State) (c : Nat) : (s.by_ c).poolOrder = s.poolOrder := rfl
@[simp] theorem State.by__msix (s : State) (c : Nat) : (s.by_ c).msix = s.msix := rfl
@[simp] theorem State.by__frames (s : State) (c : Nat) : (s.by_ c).frames = s.frames := rfl
@[simp] theorem State.by__stores (s : State) (c : Nat) : (s.by_ c).stores = s.stores := rfl
@[simp] theorem State.by__rows (s : State) (c : Nat) : (s.by_ c).rows = s.rows := rfl
@[simp] theorem State.by__cxl (s : State) (c : Nat) : (s.by_ c).cxl = s.cxl := rfl
@[simp] theorem State.by__pf (s : State) (c : Nat) : (s.by_ c).pf = s.pf := rfl
@[simp] theorem State.by__vfq (s : State) (c : Nat) : (s.by_ c).vfq = s.vfq := rfl
@[simp] theorem State.by__queues (s : State) (c : Nat) : (s.by_ c).queues = s.queues := rfl
@[simp] theorem State.by__stopped (s : State) (c : Nat) : (s.by_ c).stopped = s.stopped := rfl
@[simp] theorem State.by__shares (s : State) (c : Nat) : (s.by_ c).shares = s.shares := rfl
@[simp] theorem State.by__epoch (s : State) (c : Nat) : (s.by_ c).epoch = s.epoch := rfl
@[simp] theorem State.by__levels (s : State) (c : Nat) : (s.by_ c).levels = s.levels := rfl
@[simp] theorem State.by__requests (s : State) (c : Nat) : (s.by_ c).requests = s.requests := rfl
@[simp] theorem State.by__roundRobin (s : State) (c : Nat) : (s.by_ c).roundRobin = s.roundRobin := rfl
@[simp] theorem State.by__slices (s : State) (c : Nat) : (s.by_ c).slices = s.slices := rfl
@[simp] theorem State.by__meshHeads (s : State) (c : Nat) : (s.by_ c).meshHeads = s.meshHeads := rfl
@[simp] theorem State.by__meshOuts (s : State) (c : Nat) : (s.by_ c).meshOuts = s.meshOuts := rfl
@[simp] theorem State.by__leaves (s : State) (c : Nat) : (s.by_ c).leaves = s.leaves := rfl
@[simp] theorem State.by__raysIdle (s : State) (c : Nat) : (s.by_ c).raysIdle = s.raysIdle := rfl
@[simp] theorem State.by__linkDirs (s : State) (c : Nat) : (s.by_ c).linkDirs = s.linkDirs := rfl
@[simp] theorem State.by__linkLayers (s : State) (c : Nat) : (s.by_ c).linkLayers = s.linkLayers := rfl
@[simp] theorem State.by__oppPaths (s : State) (c : Nat) : (s.by_ c).oppPaths = s.oppPaths := rfl
@[simp] theorem State.by__fabWaiting (s : State) (c : Nat) : (s.by_ c).fabWaiting = s.fabWaiting := rfl
@[simp] theorem State.by__fabSeq (s : State) (c : Nat) : (s.by_ c).fabSeq = s.fabSeq := rfl
@[simp] theorem State.by__fabUnacked (s : State) (c : Nat) : (s.by_ c).fabUnacked = s.fabUnacked := rfl
@[simp] theorem State.by__fabSent (s : State) (c : Nat) : (s.by_ c).fabSent = s.fabSent := rfl
@[simp] theorem State.by__fabHeld (s : State) (c : Nat) : (s.by_ c).fabHeld = s.fabHeld := rfl
@[simp] theorem State.by__fabDown (s : State) (c : Nat) : (s.by_ c).fabDown = s.fabDown := rfl
@[simp] theorem State.by__fabReplays (s : State) (c : Nat) : (s.by_ c).fabReplays = s.fabReplays := rfl
@[simp] theorem State.by__device (s : State) (c : Nat) : (s.by_ c).device = s.device := rfl
@[simp] theorem State.by__ports (s : State) (c : Nat) : (s.by_ c).ports = s.ports := rfl
@[simp] theorem State.by__presents (s : State) (c : Nat) : (s.by_ c).presents = s.presents := rfl
@[simp] theorem State.by__swap (s : State) (c : Nat) : (s.by_ c).swap = s.swap := rfl
@[simp] theorem State.by__mgmt (s : State) (c : Nat) : (s.by_ c).mgmt = s.mgmt := rfl
@[simp] theorem State.by__reserved (s : State) (c : Nat) : (s.by_ c).reserved = s.reserved := rfl

end Sys2Proof.Machine
end

