-- ==== Sys2Proof/Tests/Slice0.lean ====
section
/-!
SUPPORT. Tests on fixed values: words written out from the encoding tables, terms that WellFormed refuses, what single
instructions do on a small state, and for each claim a state and operands that meet its hypotheses.
-/

open Sys2Proof Sys2Proof.Machine

namespace Sys2Proof.Tests

set_option Elab.async false

/-! ### A small state: one group of 16 lanes, all names general and zero, stands at 0x1000 with a handler at 0x2000 -/

/-- Memory under the state: the tables that map the page of VA 0x1000, the word at 0x1000, and more bytes. -/
def cells (mid high : List Cell) : List Cell :=
  (0, 1) :: (2, 1) :: (4099, 1) :: (mid ++ (65536, 1) :: (65537, 16) :: (65538, 1) :: (69632, 1) :: (69633, 32) :: (69634, 1) ::
    (73736, 47) :: (73737, 64) :: high)
def wS : State := { State.reset.placeWord 0x01000000 with mem := cells [] [] }
theorem wS_is_placed : wS = State.reset.withFetchWord 32 0x01000000 := by decide +kernel
def wG : Group := Group.start 2 3 0 0 0 Kernel.single
def wAt (g : Group) : State := { wS with groups := [g] }

theorem group?_only {s : State} {g : Group} (h : s.groups = [g]) : s.group? g.id = some g := by
  simp [State.group?, h]

theorem issuing_of {s : State} {g : Group} (h : s.groups = [g]) (hc : s.cur = g.id) (hb : s.curB = false)
    (hm : g.slotA.mask ≠ 0) (hw : g.window = none) (hs : Shaped g) : Issuing s g false :=
  ⟨⟨by rw [hc]; exact group?_only h, hb⟩, hm, hw, hs⟩

theorem ready_of {s : State} {g : Group} {pc : DWord} (h : s.groups = [g]) (hc : s.cur = g.id) (hb : s.curB = false)
    (hm : g.slotA.mask ≠ 0) (hw : g.window = none) (hs : Shaped g) (hj : g.slotA.jpc ≠ some pc)
    (ho : g.slotB.mask = 0) (hk : g.stack = []) : Ready s g false pc :=
  ⟨issuing_of h hc hb hm hw hs, .inr ⟨hj, .inl ⟨ho, hk⟩⟩⟩

/-- What the hypotheses Issuing and Ready say of a state with one group, as one check. -/
def issuingB (s : State) (g : Group) : Bool :=
  decide (s.groups = [g]) && decide (s.cur = g.id) && !s.curB && decide (g.slotA.mask ≠ 0) && g.window.isNone &&
    decide (g.regs.length = 128 ∧ g.preds.length = 8 ∧ g.barPend.length = 8 ∧ g.pathCount.length = 4 ∧ g.pathFault.length = 4)

def readyB (s : State) (g : Group) (pc : DWord) : Bool :=
  issuingB s g && decide (g.slotA.jpc ≠ some pc) && decide (g.slotB.mask = 0) && g.stack.isEmpty

theorem issuing_b {s : State} {g : Group} (h : issuingB s g = true) : Issuing s g false := by
  simp only [issuingB, Bool.and_eq_true, decide_eq_true_eq, Bool.not_eq_true'] at h
  obtain ⟨⟨⟨⟨⟨h1, h2⟩, h3⟩, h4⟩, h5⟩, h6⟩ := h
  exact issuing_of h1 h2 h3 h4 (by simpa using h5) h6

theorem issuing_on (g : Group) (h : issuingB (wAt g) g = true) : Issuing (wAt g) g false := issuing_b h

theorem ready_b {s : State} {g : Group} {pc : DWord} (h : readyB s g pc = true) : Ready s g false pc := by
  simp only [readyB, Bool.and_eq_true, decide_eq_true_eq] at h
  obtain ⟨⟨⟨h1, h2⟩, h3⟩, h4⟩ := h
  exact ⟨issuing_b h1, .inr ⟨h2, .inl ⟨h3, by simpa using h4⟩⟩⟩

theorem settled_of {g : Group} {rs : List RegName} (h : rs.all (fun r => (g.reg r).full && !(g.reg r).poison) = true) :
    Settled g rs := by
  intro r hr
  have := List.all_eq_true.mp h r hr
  simpa using this

theorem shaped_wG : Shaped wG := by unfold Shaped; decide +kernel

/-- The group with one of its plain fields changed is shaped as before. -/
theorem shaped_of {g : Group} (h : g.regs.length = 128 ∧ g.preds.length = 8 ∧ g.barPend.length = 8 ∧ g.pathCount.length = 4 ∧
    g.pathFault.length = 4) : Shaped g := h

theorem ready_wG (pc : DWord) : Ready (wAt wG) wG false pc :=
  ready_of rfl rfl rfl (by decide +kernel) rfl shaped_wG (by simp [wG, Group.start]) rfl rfl

theorem handled_wG : Handled wG := ⟨rfl, by decide⟩

theorem ready_on (g : Group) (pc : DWord) (h : readyB (wAt g) g pc = true) : Ready (wAt g) g false pc := ready_b h

/-! ### Hypotheses of the claims about lanes, registers and predicates -/

theorem fits_add : (unitForm isGeneric 3 [1, 2] (fun m t x => (eAdd m t (arg x 0) (arg x 1)).1)).Fits wG false .int32 :=
  ⟨by decide +kernel, .inr (by decide +kernel), by decide +kernel, by decide +kernel, settled_of (by decide +kernel),
   .inl (by decide +kernel)⟩

theorem witness_LaneInstructionsComplete :
    ∃ (i : Instr) (x : LaneForm) (s : State) (g : Group) (b : Bool) (t : MType),
      laneForm i = some x ∧ Ready s g b (g.nextPc b) ∧ x.Fits g b t ∧ modeEnables g.mode = 0 :=
  ⟨.add 3 1 2 false false, _, wAt wG, wG, false, .int32, rfl, ready_wG _, fits_add, by decide +kernel⟩

theorem witness_Int32ResultsInWords :
    ∃ (i : Instr) (d : RegName) (rs : List RegName) (f : List Word → Word) (s : State) (g : Group) (b : Bool) (x : LaneForm),
      int32Result i = some (d, rs, f) ∧ laneForm i = some x ∧ Ready s g b (g.nextPc b) ∧ x.Fits g b .int32 ∧
      modeType g.mode = some .int32 ∧ modeSat g.mode = false ∧ modeEnables g.mode = 0 :=
  ⟨.add 3 1 2 false false, _, _, _, wAt wG, wG, false, _, rfl, rfl, ready_wG _, fits_add, by decide +kernel,
   by decide +kernel, by decide +kernel⟩

theorem witness_LaneExchangesComplete :
    ∃ (i : Instr) (x : CrossForm) (s : State) (g : Group) (b : Bool),
      crossForm i = some x ∧ Ready s g b (g.nextPc b) ∧ x.Fits g (g.active b) ∧ modeEnables g.mode = 0 :=
  ⟨.shfl 3 1 2 false false, _, wAt wG, wG, false, rfl, ready_wG _,
   ⟨trivial, by decide +kernel, by decide +kernel, settled_of (by decide +kernel), .inl (by decide +kernel)⟩, by decide +kernel⟩

def gAffine : Group := wG.setReg 1 { val := .affine 5 3, full := true, poison := false }

theorem witness_ShapesOfResults_affine :
    ∃ (i : Instr) (x : LaneForm) (d : RegName) (p q : Word) (s : State) (g : Group) (b : Bool),
      affineResult g i = some (d, p, q) ∧ laneForm i = some x ∧ Ready s g b (g.nextPc b) ∧
      (modeType g.mode = some .int32 ∨ modeType g.mode = some .uint32) ∧ modeSat g.mode = false ∧
      (∀ r ∈ x.names .int32, (g.cls r).isSome = true) ∧ Settled g (x.names .int32) ∧
      (g.cls d = some .affine ∨ g.cls d = some .general) ∧ g.live &&& ~~~g.active b = 0 :=
  ⟨.add 3 1 2 false false, _, 3, 5, 3, wAt gAffine, gAffine, false, by decide +kernel, rfl,
   ready_b (by decide +kernel),
   .inl (by decide +kernel), by decide +kernel, by decide +kernel, settled_of (by decide +kernel), .inr (by decide +kernel),
   by decide +kernel⟩

theorem witness_ShapesOfResults_uniform :
    ∃ (i : Instr) (x : LaneForm) (s : State) (g : Group) (b : Bool) (t : MType),
      laneForm i = some x ∧ Ready s g b (g.nextPc b) ∧ x.Fits g b t ∧ x.AllUniform g b t ∧ modeEnables g.mode = 0 :=
  ⟨.add 3 1 2 false false, _, wAt wG, wG, false, .int32, rfl, ready_wG _, fits_add, by unfold LaneForm.AllUniform; decide +kernel,
   by decide +kernel⟩


/-- The guard admits lane 0 alone. -/
def gPart : Group := { wG with mode := 8, preds := 1 :: List.replicate 7 0 }
/-- The guard admits no lane. -/
def gNone : Group := { wG with mode := 8 }
/-- Names 100 to 119 are uniform-capable, and v1 holds lanes of its own. -/
def gClasses : Group :=
  { wG.setReg 1 { val := .general ((List.range 16).map (BitVec.ofNat 32)), full := true, poison := false } with nG := 100, nU := 20 }
/-- One lane is live. -/
def gLane0 : Group := (wG.setSlot false { wG.slotA with mask := 1 }).setReg 2 { val := .uniform 3, full := true, poison := false }

theorem witness_PartialAndWideWrites_keeps :
    ∃ (d a : RegName) (s : State) (g : Group) (b : Bool),
     Ready s g b (g.nextPc b) ∧ modeType g.mode = some .int32 ∧ (g.cls d).isSome = true ∧ (g.cls a).isSome = true ∧
     Settled g [a, d] ∧ g.live &&& ~~~g.active b ≠ 0 ∧ g.active b ≠ 0 ∧
     (∀ l ∈ lanesOf g.width (g.active b), g.word a l = g.word d l) ∧
     (∀ c, g.cls d = some c → (g.reg d).val.shape.le c = true) :=
  ⟨3, 1, wAt gPart, gPart, false, ready_b (by decide +kernel), by decide +kernel, by decide +kernel, by decide +kernel,
   settled_of (by decide +kernel), by decide +kernel, by decide +kernel, by decide +kernel,
   fun c h => by rw [show gPart.cls 3 = some .general by decide +kernel] at h; cases h; decide +kernel⟩

theorem witness_PartialAndWideWrites_shape :
    ∃ (d a : RegName) (s : State) (g : Group) (b : Bool) (c : Shape),
     Ready s g b (g.nextPc b) ∧ modeType g.mode = some .int32 ∧ g.cls d = some c ∧ (g.cls a).isSome = true ∧
     Settled g [a, d] ∧ g.live &&& ~~~g.active b = 0 ∧ (g.reg a).val.shape.le c = false ∧ Handled g :=
  ⟨110, 1, wAt gClasses, gClasses, false, .uniform, ready_b (by decide +kernel), by decide +kernel, by decide +kernel,
   by decide +kernel, settled_of (by decide +kernel), by decide +kernel, by decide +kernel, ⟨rfl, by decide⟩⟩

theorem witness_NoActiveLaneNoEffect :
    ∃ (i j : Instr) (s : State) (g : Group) (b : Bool) (x : LaneForm) (y : CrossForm) (t : MType),
      Ready s g b (g.nextPc b) ∧ g.active b = 0 ∧ laneForm i = some x ∧ x.Fits g b t ∧ crossForm j = some y ∧
      y.Fits g (g.active b) :=
  ⟨.add 3 1 2 false false, .shfl 3 1 2 false false, wAt gNone, gNone, false, _, _, .int32, ready_b (by decide +kernel),
   by decide +kernel, rfl,
   ⟨by decide +kernel, .inr (by decide +kernel), by decide +kernel, by decide +kernel, settled_of (by decide +kernel),
    .inl (by decide +kernel)⟩, rfl,
   ⟨trivial, by decide +kernel, by decide +kernel, settled_of (by decide +kernel), .inl (by decide +kernel)⟩⟩

theorem witness_PartialAndWideWrites_wrlane (dead : Bool) :
    ∃ (d a x : RegName) (s : State) (g : Group) (b : Bool) (j : Nat),
      Ready s g b (g.nextPc b) ∧ g.active b ≠ 0 ∧ g.cls d = some .general ∧ (g.cls a).isSome = true ∧ (g.cls x).isSome = true ∧
      Settled g [d, a, x] ∧ j = (g.word x (lowest g.width (g.active b))).toNat % g.width ∧ hasLane g.live j = !dead := by
  cases dead
  · exact ⟨3, 1, 2, wAt wG, wG, false, 0, ready_wG _, by decide +kernel, by decide +kernel, by decide +kernel, by decide +kernel,
      settled_of (by decide +kernel), by decide +kernel, by decide +kernel⟩
  · exact ⟨3, 1, 2, wAt gLane0, gLane0, false, 3, ready_b (by decide +kernel), by decide +kernel, by decide +kernel,
      by decide +kernel, by decide +kernel, settled_of (by decide +kernel), by decide +kernel, by decide +kernel⟩

theorem witness_PredicateInstructionsComplete :
    ∃ (s : State) (g h : Group) (b : Bool), Ready s g b (g.nextPc b) ∧ modeEnables g.mode = 0 ∧ g.active b ≠ 0 ∧
      (∃ (d a : RegName) (any : Bool) (cc : Cond) (n : Nat),
        n = unitNames g.type ∧ g.typeOk isGeneric = true ∧ (g.typeOk isFloat = true ∨ (cc ≠ .un ∧ cc ≠ .or)) ∧
        (any = true → g.typeOk (fun t => isH t || isP t) = true) ∧ g.spanOk d n n = true ∧ g.spanOk a n n = true ∧
        Settled g (spanNames d n ++ spanNames a n)) ∧
      Ready { s with groups := [h] } h b (h.nextPc b) ∧ modeEnables h.mode = 0 ∧ h.active b ≠ 0 ∧
      ∃ (a : RegName) (n : Nat), n = unitNames h.type ∧ h.typeOk isFPD = true ∧ h.spanOk a n n = true ∧
        Settled h (spanNames a n) :=
  ⟨wAt wG, wG, { wG with mode := 0x100 }, false, ready_wG _, by decide +kernel, by decide +kernel,
   ⟨3, 1, false, .eq, 1, by decide +kernel, by decide +kernel, .inr (by decide), by decide, by decide +kernel, by decide +kernel,
    settled_of (by decide +kernel)⟩,
   ready_b (by decide +kernel), by decide +kernel, by decide +kernel,
   1, 1, by decide +kernel, by decide +kernel, by decide +kernel, settled_of (by decide +kernel)⟩

/-- FP32 with stochastic rounding. -/
def gSr : Group := { wG with mode := 0x8100 }

theorem witness_StochasticConversionCompletes :
    ∃ (d a : RegName) (src : MType) (s : State) (g : Group) (b : Bool) (ns nd : Nat),
    Ready s g b (g.nextPc b) ∧ modeEnables g.mode = 0 ∧ g.active b ≠ 0 ∧ (modeType g.mode).isSome = true ∧
    modeSr g.mode = true ∧ ns = cvtSrcNames src g.type ∧ nd = cvtDstNames src g.type ∧ ns ≤ 4 ∧ nd ≤ 4 ∧
    g.spanOk a ns ns = true ∧ g.spanOk d nd nd = true ∧ g.generalSpan d nd = true ∧
    Settled g (spanNames a ns ++ spanNames d nd) :=
  ⟨3, 1, .int32, wAt gSr, gSr, false, 1, 1, ready_b (by decide +kernel), by decide +kernel, by decide +kernel, by decide +kernel,
   by decide +kernel, by decide +kernel, by decide +kernel, by decide, by decide, by decide +kernel, by decide +kernel,
   by decide +kernel, settled_of (by decide +kernel)⟩

theorem witness_DivisionPends :
    ∃ (d a x : RegName) (s : State) (g : Group) (b : Bool) (n : Nat),
    Ready s g b (g.nextPc b) ∧ modeEnables g.mode = 0 ∧ g.active b ≠ 0 ∧ g.typeOk isGeneric = true ∧ n = unitNames g.type ∧
    g.spanOk d n n = true ∧ g.spanOk a n n = true ∧ g.spanOk x n n = true ∧ g.generalSpan d n = true ∧
    Settled g (spanNames d n ++ spanNames a n ++ spanNames x n) :=
  ⟨3, 1, 2, wAt wG, wG, false, 1, ready_wG _, by decide +kernel, by decide +kernel, by decide +kernel, by decide +kernel,
   by decide +kernel, by decide +kernel, by decide +kernel, by decide +kernel, settled_of (by decide +kernel)⟩

theorem witness_CompletingTrapsWriteResults :
    ∃ (i : Instr) (x : LaneForm) (s : State) (g : Group) (b : Bool) (t : MType),
      laneForm i = some x ∧ Ready s g b (g.nextPc b) ∧ x.Fits g b t ∧ Handled g :=
  ⟨.add 3 1 2 false false, _, wAt wG, wG, false, .int32, rfl, ready_wG _, fits_add, handled_wG⟩

/-- v1 is empty, or v3. -/
def gEmpty1 : Group := wG.setReg 1 { val := .uniform 0, full := false, poison := false }
def gEmpty3 : Group := wG.setReg 3 { val := .uniform 0, full := false, poison := false }

theorem witness_DecodeCausesAndEmptyNames_cause :
    ∃ (i j : Instr) (x y : LaneForm) (s : State) (g : Group) (b : Bool) (t : MType),
      Ready s g b (g.nextPc b) ∧ modeType g.mode = some t ∧ Handled g ∧
      laneForm i = some x ∧ (∃ p ∈ (x.d, x.dn t) :: x.srcs t, g.spanOk p.1 p.2 p.2 = false) ∧
      laneForm j = some y ∧ (∀ p ∈ (y.d, y.dn t) :: y.srcs t, g.spanOk p.1 p.2 p.2 = true) ∧ y.free = false ∧ y.types t = false :=
  ⟨.add 3 1 125 false false, .rcp 3 1 false, _, _, wAt wG, wG, false, .int32, ready_wG _, by decide +kernel, handled_wG, rfl,
   ⟨(125, 1), by decide +kernel, by decide +kernel⟩, rfl, by decide +kernel, rfl, by decide +kernel⟩

theorem witness_DecodeCausesAndEmptyNames_empty :
    ∃ (d a x : RegName) (s t : State) (g h : Group) (b : Bool),
      Ready s g b (g.nextPc b) ∧ modeType g.mode = some .int32 ∧ (∀ r ∈ [d, a, x], (g.cls r).isSome = true) ∧
      (g.reg a).full = false ∧ (g.reg x).full = true ∧ Handled g ∧
      Ready t h b (h.nextPc b) ∧ modeType h.mode = some .int32 ∧ (∀ r ∈ [d, a, x], (h.cls r).isSome = true) ∧
      (h.reg a).full = true ∧ (h.reg x).full = true ∧ (h.reg d).full = false :=
  ⟨3, 1, 2, wAt gEmpty1, wAt gEmpty3, gEmpty1, gEmpty3, false, ready_b (by decide +kernel), by decide +kernel, by decide +kernel,
   by decide +kernel, by decide +kernel, ⟨rfl, by decide⟩, ready_b (by decide +kernel), by decide +kernel⟩

/-! ### Hypotheses of the claims about control -/

theorem witness_PlainControlCompletes :
    ∃ (s : State) (g g' : Group) (b : Bool) (off : BitVec 24) (n : BitVec 16), Ready s g b (g.nextPc b) ∧ g.inTrap = false ∧
      g' = g.setSlot b { g.slot b with jpc := some (g.target b off) } ∧ Steady g' b (g'.nextPc b) ∧ n ≠ 0 :=
  ⟨wAt wG, wG, _, false, 4, 1, ready_wG _, rfl, rfl, .inr ⟨by decide +kernel, .inl ⟨rfl, rfl⟩⟩, by decide⟩

/-- v1 holds lanes of its own, v6 an address that is not a multiple of 4, and v4 one that is. -/
def gJumps : Group :=
  ((wG.setReg 2 { val := .general ((List.range 16).map (BitVec.ofNat 32)), full := true, poison := false }).setReg 6
    { val := .uniform 0x1002, full := true, poison := false }).setReg 4 { val := .uniform 0x1040, full := true, poison := false }

theorem ready_gJumps (pc : DWord) : Ready (wAt gJumps) gJumps false pc :=
  ready_of rfl rfl rfl (by decide +kernel) rfl (by unfold Shaped; decide +kernel)
    (by simp [gJumps, wG, Group.setReg, Group.start]) rfl rfl

theorem witness_JumpsMoveOrTrap :
    ∃ (s : State) (g : Group) (b : Bool) (pc : DWord) (off : BitVec 24) (off16 : BitVec 16) (d a : RegName), Ready s g b pc ∧
      g.target b off = pc ∧ g.target b off16 = pc ∧ g.spanOk d 2 2 = true ∧ Settled g [d, d + 1] ∧
      g.live &&& ~~~(g.slot b).mask = 0 ∧ g.spanOk a 2 2 = true ∧ Settled g [a, a + 1] ∧
      (∀ l ∈ lanesOf g.width (g.slot b).mask, g.pair a l = pc) ∧ lanesOf g.width (g.slot b).mask ≠ [] ∧ pc.extractLsb' 0 2 = 0 ∧
      Handled g ∧
      (∃ c : RegName, g.spanOk c 2 2 = true ∧ Settled g [c, c + 1] ∧ ∃ l ∈ lanesOf g.width (g.slot b).mask,
        ∃ m ∈ lanesOf g.width (g.slot b).mask, g.pair c l ≠ g.pair c m) ∧
      ∃ (c : RegName) (q : DWord), g.spanOk c 2 2 = true ∧ Settled g [c, c + 1] ∧
        (∀ l ∈ lanesOf g.width (g.slot b).mask, g.pair c l = q) ∧ q.extractLsb' 0 2 ≠ 0 :=
  ⟨wAt gJumps, gJumps, false, 0x1040, 16, 16, 8, 4, ready_gJumps _, by decide +kernel, by decide +kernel, by decide +kernel,
   settled_of (by decide +kernel), by decide +kernel, by decide +kernel, settled_of (by decide +kernel), by decide +kernel,
   by decide +kernel, by decide, ⟨rfl, by decide⟩,
   ⟨2, by decide +kernel, settled_of (by decide +kernel), 0, by decide +kernel, 1, by decide +kernel, by decide +kernel⟩,
   6, 0x1002, by decide +kernel, settled_of (by decide +kernel), by decide +kernel, by decide⟩

/-- A word of `brn` with u = 1 for the last clause of BranchesMoveOrSplit (R359). -/
theorem witness_BranchesMoveOrSplit_word :
    (0x06800004#32).extractLsb' 24 8 = 0x06#8 ∧ (0x06800004#32).getLsbD 23 = true ∧
      decode 0x06800004#32 = .error .reservedField := by
  refine ⟨by decide +kernel, by decide +kernel, rfl⟩

/-- Predicate 0 holds in lane 0 alone; the same with the other slot in use, and with no room on the stack. -/
def gPred : Group := { wG with preds := 1 :: List.replicate 7 0 }
def gTwo : Group :=
  { gPred with slotA := { wG.slotA with mask := 0xFF },
               slotB := { pc := 0x1100, mask := 0xFF00, jpc := none, parked := false, wait := .none } }
def gNoStack : Group := { gTwo with divMax := 0 }

theorem witness_BranchesMoveOrSplit_brc :
    (∃ (s : State) (g : Group) (n : Bool), Issuing s g false ∧ g.inTrap = false ∧
      maskWhere g.width (fun l => hasLane (g.active false) l && (g.pred 1 l != n)) = 0 ∧ Steady g false (g.nextPc false)) ∧
    (∃ (s : State) (g : Group) (n : Bool) (off : BitVec 19), Issuing s g false ∧ g.inTrap = false ∧
      maskWhere g.width (fun l => hasLane (g.active false) l && (g.pred 1 l != n)) = (g.slot false).mask ∧
      Steady g false (g.target false off)) ∧
    (∃ (s : State) (g : Group) (taken rest : Mask) (off : BitVec 19), Issuing s g false ∧ g.inTrap = false ∧ g.trapBase ≠ 0 ∧
      taken = maskWhere g.width (fun l => hasLane (g.active false) l && (g.pred 0 l != false)) ∧
      rest = (g.slot false).mask &&& ~~~taken ∧ taken ≠ 0 ∧ taken ≠ (g.slot false).mask ∧ rest ≠ 0 ∧
      (g.slot true).mask = 0 ∧ (g.slot false).parked = false ∧
      Steady ((g.place false (g.nextPc false) rest (g.slot false).jpc).place true (g.target false off) taken (g.slot false).jpc)
        false (g.nextPc false)) ∧
    (∃ (s : State) (g : Group) (taken rest : Mask) (off : BitVec 19), Issuing s g false ∧ g.inTrap = false ∧
      taken = maskWhere g.width (fun l => hasLane (g.active false) l && (g.pred 0 l != false)) ∧
      rest = (g.slot false).mask &&& ~~~taken ∧ taken ≠ 0 ∧ taken ≠ (g.slot false).mask ∧ (g.slot true).mask ≠ 0 ∧
      g.stack.length < g.divMax ∧ (g.slot false).parked = false ∧
      Steady (({ g with stack := { mask := rest, resume := g.nextPc false, join := (g.slot false).jpc } :: g.stack } : Group).place
        false (g.target false off) taken (g.slot false).jpc) false (g.target false off)) ∧
    (∃ (s : State) (g : Group) (taken : Mask), Issuing s g false ∧ g.inTrap = false ∧ g.trapBase ≠ 0 ∧
      taken = maskWhere g.width (fun l => hasLane (g.active false) l && (g.pred 0 l != false)) ∧ taken ≠ 0 ∧
      taken ≠ (g.slot false).mask ∧ (g.slot true).mask ≠ 0 ∧ g.divMax ≤ g.stack.length) := by
  refine ⟨⟨wAt gPred, gPred, false, issuing_b (by decide +kernel), rfl, by decide +kernel, .inr ⟨by decide +kernel, .inl ⟨rfl, rfl⟩⟩⟩,
    ⟨wAt gPred, gPred, true, 8, issuing_b (by decide +kernel), rfl, by decide +kernel, .inr ⟨by decide +kernel, .inl ⟨rfl, rfl⟩⟩⟩,
    ⟨wAt gPred, gPred, 1, 0xFFFE, 8, issuing_b (by decide +kernel), rfl, by decide +kernel, by decide +kernel, by decide +kernel,
     by decide, by decide +kernel, by decide, rfl, rfl, .inr ⟨by decide +kernel, .inr ⟨by decide +kernel, by decide +kernel, .inl (by decide +kernel)⟩⟩⟩,
    ⟨wAt gTwo, gTwo, 1, 0xFE, 8, issuing_b (by decide +kernel), rfl, by decide +kernel, by decide +kernel, by decide, by decide +kernel,
     by decide +kernel, by decide +kernel, rfl, .inr ⟨by decide +kernel, .inr ⟨by decide +kernel, by decide +kernel, .inl (by decide +kernel)⟩⟩⟩,
    ⟨wAt gNoStack, gNoStack, 1, issuing_b (by decide +kernel), rfl, by decide +kernel, by decide +kernel, by decide, by decide +kernel,
     by decide +kernel, by decide +kernel⟩⟩

theorem witness_BranchesMoveOrSplit_brn :
    ∃ (s : State) (g : Group) (off : BitVec 19), Issuing s g false ∧ g.inTrap = false ∧ g.active false ≠ 0 ∧
      (∀ l ∈ lanesOf g.width (g.active false), g.pred 1 l = false) ∧ Steady g false (g.target false off) ∧
      (∃ l ∈ lanesOf g.width (g.active false), g.pred 0 l ≠ false) ∧ Steady g false (g.nextPc false) :=
  ⟨wAt gPred, gPred, 8, issuing_b (by decide +kernel), rfl, by decide +kernel, by decide +kernel,
   .inr ⟨by decide +kernel, .inl ⟨rfl, rfl⟩⟩, ⟨0, by decide +kernel, by decide +kernel⟩, .inr ⟨by decide +kernel, .inl ⟨rfl, rfl⟩⟩⟩

/-- Slot A one word before `pc`, with a join PC, over slot B and the stack. -/
def gMeet (jpc : Option DWord) (maskB : Mask) (pcB : DWord) (jpcB : Option DWord) (st : List StackEntry) : Group :=
  { wG with slotA := { wG.slotA with mask := 0xFF, jpc := jpc }, stack := st
            slotB := { pc := pcB, mask := maskB, jpc := jpcB, parked := false, wait := .none } }

theorem witness_ReconvergenceAtBoundary :
    (∃ (s : State) (g : Group), Issuing s g false ∧ g.inTrap = false ∧ (g.slot true).mask ≠ 0 ∧
      (g.slot true).pc = g.nextPc false ∧ g.stack = [] ∧ (g.slot true).wait = .none) ∧
    (∃ (s : State) (g : Group) (t : StackEntry), Issuing s g false ∧ g.inTrap = false ∧ g.stack = [t] ∧
      (g.slot false).jpc = some (g.nextPc false) ∧ t.join = some (g.nextPc false) ∧ t.resume ≠ g.nextPc false ∧ t.mask ≠ 0 ∧
      (g.slot true).mask ≠ 0 ∧ (g.slot true).pc ≠ g.nextPc false ∧ (g.slot true).pc ≠ t.resume ∧
      (g.slot true).jpc ≠ some (g.slot true).pc) ∧
    (∃ (s : State) (g : Group) (t : StackEntry), Issuing s g false ∧ g.inTrap = false ∧ g.stack = [t] ∧
      (g.slot false).jpc = some (g.nextPc false) ∧ t.join = some (g.nextPc false) ∧ t.resume = g.nextPc false ∧
      (g.slot true).mask ≠ 0 ∧ (g.slot true).pc ≠ g.nextPc false ∧ (g.slot true).jpc ≠ some (g.slot true).pc ∧
      (g.slot true).jpc ≠ some (g.nextPc false)) ∧
    (∃ (s : State) (g : Group), Issuing s g false ∧ g.inTrap = false ∧ g.stack = [] ∧
      (g.slot false).jpc = some (g.nextPc false) ∧ (g.slot true).mask ≠ 0 ∧ (g.slot true).jpc = some (g.nextPc false) ∧
      (g.slot true).pc ≠ g.nextPc false) ∧
    (∃ (s : State) (g : Group), Issuing s g false ∧ g.inTrap = false ∧ g.stack = [] ∧
      (g.slot false).jpc = some (g.nextPc false) ∧ (g.slot true).mask = 0) := by
  refine ⟨⟨_, gMeet none 0xFF00 0x1004 none [], issuing_on _ (by decide +kernel), by decide +kernel⟩,
    ⟨_, gMeet (some 0x1004) 0xF000 0x1100 none [⟨0xF00, 0x1200, some 0x1004⟩], ⟨0xF00, 0x1200, some 0x1004⟩,
     issuing_on _ (by decide +kernel), by decide +kernel⟩,
    ⟨_, gMeet (some 0x1004) 0xF000 0x1100 none [⟨0xF00, 0x1004, some 0x1004⟩], ⟨0xF00, 0x1004, some 0x1004⟩,
     issuing_on _ (by decide +kernel), by decide +kernel⟩,
    ⟨_, gMeet (some 0x1004) 0xF000 0x1100 (some 0x1004) [], issuing_on _ (by decide +kernel), by decide +kernel⟩,
    ⟨_, gMeet (some 0x1004) 0 0 none [], issuing_on _ (by decide +kernel), by decide +kernel⟩⟩

theorem witness_StopEndsActiveLanes :
    (∃ (s : State) (g : Group) (rest : Mask), Issuing s g false ∧ g.inTrap = false ∧ g.active false ≠ 0 ∧
      rest = (g.slot false).mask &&& ~~~g.active false ∧ rest ≠ 0 ∧
      Steady (g.setSlot false { g.slot false with mask := rest, pc := g.nextPc false, wait := .none }) false (g.nextPc false)) ∧
    (∃ (s : State) (g : Group), Issuing s g false ∧ g.inTrap = false ∧ g.active false ≠ 0 ∧
      (g.slot false).mask &&& ~~~g.active false = 0 ∧ (g.slot true).mask ≠ 0 ∧ g.stack = [] ∧
      (g.slot true).jpc ≠ some (g.slot true).pc) ∧
    (∃ (s : State) (g : Group) (t : Team), Issuing s g false ∧ g.inTrap = false ∧ g.active false ≠ 0 ∧
      (g.slot false).mask &&& ~~~g.active false = 0 ∧ (g.slot true).mask = 0 ∧ g.stack = [] ∧ s.team? g.team = some t ∧
      t.kernel.groups ≤ t.endedGroups.length + 1) :=
  ⟨⟨wAt gPart, gPart, 0xFFFE, issuing_b (by decide +kernel), rfl, by decide +kernel, by decide +kernel, by decide,
    .inr ⟨by decide +kernel, .inl ⟨rfl, rfl⟩⟩⟩,
   ⟨wAt gTwo, gTwo, issuing_b (by decide +kernel), rfl, by decide +kernel, by decide +kernel, by decide +kernel, rfl,
    by decide +kernel⟩,
   ⟨wAt wG, wG, _, issuing_b (by decide +kernel), rfl, by decide +kernel, by decide +kernel, rfl, rfl, rfl, by decide +kernel⟩⟩

/-- A kernel of two groups: one arrival leaves the phase of a barrier open. -/
def wTwoGroups : State :=
  { wS with groups := [wG], teams := wS.teams.map (fun t => { t with kernel := { t.kernel with groups := 2 } }) }
def gPending : Group := { wG with barPend := true :: List.replicate 7 false }

theorem witness_BarriersAndPathWaits_barriers :
    (∃ (k : BitVec 3) (s : State) (g : Group) (t : Team), Ready s g false (g.nextPc false) ∧ s.team? g.team = some t ∧
      g.barPend.getD k.toNat false = false ∧ s.arrivedWith g t k.toNat < t.kernel.groups) ∧
    (∃ (k : BitVec 3) (s : State) (g : Group) (t : Team), Ready s g false (g.nextPc false) ∧ s.team? g.team = some t ∧
      g.barPend.getD k.toNat false = true) ∧
    (∃ (k : BitVec 3) (s : State) (g : Group) (t : Team), Ready s g false (g.nextPc false) ∧ s.team? g.team = some t ∧
      g.barPend.getD k.toNat false = false ∧ t.kernel.groups ≤ s.arrivedWith g t k.toNat) :=
  ⟨⟨7, wTwoGroups, wG, _, ready_b (by decide +kernel), rfl, by decide +kernel, by decide +kernel⟩,
   ⟨0, wAt gPending, gPending, _, ready_b (by decide +kernel), rfl, by decide +kernel⟩,
   ⟨7, wAt wG, wG, _, ready_wG _, rfl, by decide +kernel, by decide +kernel⟩⟩

/-- Path 3 has two operations outstanding, and path 0 a pending fault. -/
def gPaths : Group := { wG with pathCount := [0, 0, 0, 2], pathFault := [Cause.pageFault.code, 0, 0, 0] }

theorem witness_BarriersAndPathWaits_waitp :
    ∃ (s : State) (g : Group), Issuing s g false ∧ Handled g ∧ g.pathCount[3]? = some 2 ∧ g.pathFault[3]? = some 0 ∧
      2 ≤ (2 : BitVec 14).toNat ∧ Steady g false (g.nextPc false) ∧ (1 : BitVec 14).toNat < 2 ∧
      g.pathCount[0]? = some 0 ∧ g.pathFault[0]? = some Cause.pageFault.code ∧
      Cause.pageFault ∈ [Cause.pageFault, .badHandle, .eccUncorrectable] :=
  ⟨wAt gPaths, gPaths, issuing_b (by decide +kernel), ⟨rfl, by decide⟩, rfl, rfl, by decide,
   .inr ⟨by decide +kernel, .inl ⟨rfl, rfl⟩⟩, by decide, rfl, rfl, by decide⟩

/-! ### Hypotheses of the claims about special registers, traps and the handler -/

theorem witness_CsrrReadsSpecialRegisters :
    ∃ (d : RegName) (s : State) (g : Group) (t : Team) (l : Launch), Ready s g false (g.nextPc false) ∧ s.team? g.team = some t ∧
      s.launch? t.launch = some l ∧ Settled g [d] ∧ (g.cls d = some .general ∨ g.cls d = some .affine) ∧
      g.live &&& ~~~(g.slot false).mask = 0 :=
  ⟨119, wAt wG, wG, _, _, ready_wG _, rfl, rfl, settled_of (by decide +kernel), .inl (by decide +kernel), by decide +kernel⟩

/-- In trap mode, TRAPDEST naming a register, or predicate 7. -/
def gTrap (dest : BitVec 8) : Group := { wG with trapB := some false, trapPc := 0x1010, trapMask := 5, trapDest := dest }

theorem witness_CsrwWritesSpecialRegisters :
    ∃ (d : RegName) (s t : State) (g h : Group) (v : Word), Ready s g false (g.nextPc false) ∧ (g.cls d).isSome = true ∧
      Settled g [d] ∧ (g.reg d).val = .uniform v ∧ v.extractLsb' 0 2 = 0 ∧ g.inTrap = true ∧
      (∃ r : RegName, g.trapDest = 0#1 ++ r ∧ g.cls r = some .general ∧ Settled g [r]) ∧
      Ready t h false (h.nextPc false) ∧ h.inTrap = true ∧ (h.cls d).isSome = true ∧ Settled h [d] ∧
      ∃ p : PredName, h.trapDest = 0x10#5 ++ p :=
  ⟨1, wAt (gTrap 119), wAt (gTrap 0x87), gTrap 119, gTrap 0x87, 0, ready_b (by decide +kernel), by decide +kernel,
   settled_of (by decide +kernel), by decide +kernel, by decide, rfl, ⟨119, by decide, by decide +kernel, settled_of (by decide +kernel)⟩,
   ready_b (by decide +kernel), rfl, by decide +kernel, settled_of (by decide +kernel), 7, by decide⟩

theorem witness_AbsentRegistersAreIllegal :
    ∃ (s : State) (g : Group) (n : BitVec 12), Issuing s g false ∧ Handled g ∧
      n ∉ ([0x000, 0x001, 0x002, 0x003, 0x004, 0x005, 0x008, 0x009, 0x010, 0x011, 0x012, 0x018, 0x019, 0x01A,
        0x01B, 0x020, 0x021, 0x022, 0x023, 0x024, 0x025, 0x026, 0x027, 0x028] : List (BitVec 12)) ∧
      n ∉ ([0x010, 0x011, 0x027, 0x028] : List (BitVec 12)) :=
  ⟨wAt wG, wG, 0x029, issuing_b (by decide +kernel), handled_wG, by decide, by decide⟩

theorem witness_SoftwareTrapEntersHandler : ∃ (s : State) (g : Group), Issuing s g false ∧ Handled g :=
  ⟨wAt wG, wG, issuing_b (by decide +kernel), handled_wG⟩

def gNoHandler : Group := { wG with trapBase := 0 }
/-- In trap mode with TRAPPC at an odd address, and v2 with lanes of its own. -/
def gTrapOdd : Group := { gJumps with trapB := some false, trapPc := 0x1002 }

theorem witness_HaltsAndDoubleTraps :
    (∃ (s : State) (g : Group) (t : Team) (l : Launch), Issuing s g false ∧ s.team? g.team = some t ∧
      s.launch? t.launch = some l ∧ l.cause = none ∧ g.inTrap = false ∧ g.trapBase = 0) ∧
    ∃ (s : State) (g : Group) (t : Team) (l : Launch), Issuing s g false ∧ s.team? g.team = some t ∧
      s.launch? t.launch = some l ∧ l.cause = none ∧ g.inTrap = true ∧ g.trapPc.extractLsb' 0 2 ≠ 0 ∧
      ∃ a : RegName, g.spanOk a 2 2 = true ∧ Settled g [a, a + 1] ∧
         ∃ j ∈ lanesOf g.width (g.slot false).mask, ∃ m ∈ lanesOf g.width (g.slot false).mask, g.pair a j ≠ g.pair a m :=
  ⟨⟨wAt gNoHandler, gNoHandler, _, _, issuing_b (by decide +kernel), rfl, rfl, rfl, rfl, rfl⟩,
   wAt gTrapOdd, gTrapOdd, _, _, issuing_b (by decide +kernel), rfl, rfl, rfl, rfl, by decide, 2, by decide +kernel,
   settled_of (by decide +kernel), 0, by decide +kernel, 1, by decide +kernel, by decide +kernel⟩

theorem witness_RftReturnsFromHandler (next : Bool) :
    ∃ (s : State) (g g' : Group) (pc : DWord), Issuing s g false ∧ g.inTrap = true ∧
      pc = (if next then g.trapPc + 4 else g.trapPc) ∧ pc.extractLsb' 0 2 = 0 ∧
      g' = ({ g with mode := 0#10 ++ g.trapMode.extractLsb' 0 22, trapB := none } : Group).setSlot false
        { g.slot false with pc := pc, wait := .none } ∧ Steady g' false pc := by
  cases next
  · exact ⟨wAt (gTrap 0xFF), gTrap 0xFF, _, 0x1010, issuing_b (by decide +kernel), rfl, rfl, by decide, rfl,
      .inr ⟨by decide +kernel, .inl ⟨rfl, rfl⟩⟩⟩
  · exact ⟨wAt (gTrap 0xFF), gTrap 0xFF, _, 0x1014, issuing_b (by decide +kernel), rfl, rfl, by decide, rfl,
      .inr ⟨by decide +kernel, .inl ⟨rfl, rfl⟩⟩⟩

/-! ### Hypotheses of the claims about loads, stores and atomics -/

def theHit : LaneTarget → Hit
  | .hit h => h
  | _ => { lane := 0, space := .mem, addr := 0, plain := false, leaf := none }
def isHit : LaneTarget → Bool
  | .hit _ => true
  | _ => false
theorem eq_hit {t : LaneTarget} (h : isHit t = true) : t = .hit (theHit t) := by cases t <;> simp_all [isHit, theHit]
theorem eq_hits (ts : List LaneTarget) (h : ts.all isHit = true) : ts = (ts.map theHit).map .hit := by
  induction ts with
  | nil => rfl
  | cons t ts ih =>
    simp only [List.all_cons, Bool.and_eq_true] at h
    simp only [List.map_cons, ← ih h.2, ← eq_hit h.1]

def theWin : LaneTarget → Nat × Nat × Nat
  | .win l w o => (l, w, o)
  | _ => (0, 0, 0)
def isWin : LaneTarget → Bool
  | .win _ _ _ => true
  | _ => false
theorem eq_win {t : LaneTarget} (h : isWin t = true) : t = .win (theWin t).1 (theWin t).2.1 (theWin t).2.2 := by
  cases t <;> first | rfl | exact absurd h Bool.false_ne_true
theorem eq_wins (ts : List LaneTarget) (h : ts.all isWin = true) : ts = (ts.map theWin).map (fun w => .win w.1 w.2.1 w.2.2) := by
  induction ts with
  | nil => rfl
  | cons t ts ih =>
    simp only [List.all_cons, Bool.and_eq_true] at h
    simp only [List.map_cons, ← ih h.2, ← eq_win h.1]

/-- One lane is live, and v4 and v5 hold an address. -/
def gAddr (va : Word) : Group :=
  (wG.setSlot false { wG.slotA with mask := 1 }).setReg 4 { val := .uniform va, full := true, poison := false }
/-- Core 0 holds the line of VA 0x1040. -/
def wHeld (g : Group) : State := { wAt g with caches := [{ holder := 0, line := 32, st := .modified }] }
/-- Window entry 0 is open on the block at the start of the scratchpad. -/
def wOpen (g : Group) : State := { wAt g with wins := [{ slot := 0, openerTeam := some 3, offset := 0, sw := true, gen := 0 }] }

theorem calm_only {s : State} {g : Group} (h : s.groups = [g]) (ht : g.ticket = none) (hw : g.window = none)
    (ha : g.anchors = []) : Calm s g :=
  ⟨ht, by rw [h]; simp [hw, ha]⟩

theorem operands_of {g : Group} {spans : List (RegName × Nat)}
    (h : (decide (lanesOf g.width (g.active false) ≠ []) && spans.all (fun p => g.spanOk p.1 p.2 p.2) &&
      (spans.flatMap (fun p => spanNames p.1 p.2)).all (fun r => (g.reg r).full && !(g.reg r).poison)) = true) :
    Operands g false spans := by
  simp only [Bool.and_eq_true, decide_eq_true_eq] at h
  exact ⟨h.1.1, fun p hp => List.all_eq_true.mp h.1.2 p hp, settled_of h.2⟩

theorem witness_ReadableLoadsPend :
    ∃ (i : Instr) (f : Form) (d a : RegName) (n bytes : Nat) (off : BitVec 6) (sx : Bool) (s u : State) (g : Group) (hs : List Hit),
    loadForm i = some (f, d, a, n, bytes, off, sx) ∧ Ready s g false (g.nextPc false) ∧ Calm s g ∧
    Operands g false [(d, n), (a, f.names)] ∧ g.generalSpan d n = true ∧
    s.targets g false f a off bytes .read false = hs.map .hit ∧
    (∀ h ∈ hs, h.plain = false ∧ s.readable g h.key = true) ∧ u = s.usedHits (s.ctx g) hs :=
  ⟨.ldb 8 4 true 63 false, _, _, _, _, _, _, _, wHeld (gAddr 0x1041), _, gAddr 0x1041,
   ((wHeld (gAddr 0x1041)).targets (gAddr 0x1041) false (.va true) 4 63 1 .read false).map theHit, rfl, ready_b (by decide +kernel),
   calm_only rfl rfl rfl rfl, operands_of (by decide +kernel), by decide +kernel, eq_hits _ (by decide +kernel), by decide +kernel, rfl⟩

theorem witness_RemoteLoadsOpenWindows :
    ∃ (i : Instr) (f : Form) (d a : RegName) (n bytes : Nat) (off : BitVec 6) (sx : Bool) (s u : State) (g : Group) (hs : List Hit),
    loadForm i = some (f, d, a, n, bytes, off, sx) ∧ Ready s g false (g.nextPc false) ∧ Calm s g ∧
    Operands g false [(d, n), (a, f.names)] ∧ g.generalSpan d n = true ∧
    s.targets g false f a off bytes .read false = hs.map .hit ∧
    (∃ h ∈ hs, h.plain = true ∨ s.readable g h.key = false) ∧ u = s.usedHits (s.ctx g) hs :=
  ⟨.ld 8 4 .b128 0 false, _, _, _, _, _, _, _, wAt (gAddr 0x1040), _, gAddr 0x1040,
   ((wAt (gAddr 0x1040)).targets (gAddr 0x1040) false (.va true) 4 0 16 .read false).map theHit, rfl, ready_b (by decide +kernel),
   calm_only rfl rfl rfl rfl, operands_of (by decide +kernel), by decide +kernel, eq_hits _ (by decide +kernel),
   by decide +kernel, rfl⟩

theorem witness_StoresQueueInWindow :
    ∃ (i : Instr) (f : Form) (d a : RegName) (n bytes : Nat) (off : BitVec 6) (s u : State) (g : Group) (hs : List Hit),
    storeForm i = some (f, d, a, n, bytes, off) ∧ Ready s g false (g.nextPc false) ∧ Calm s g ∧
    Operands g false [(d, n), (a, f.names)] ∧ s.targets g false f a off bytes .write false = hs.map .hit ∧
    u = (s.usedHits (s.ctx g) hs).requestOwn g.core (hitKeys hs) :=
  ⟨.st 8 4 .b32 32 false false, _, _, _, _, _, _, wAt (gAddr 0x1080), _, gAddr 0x1080,
   ((wAt (gAddr 0x1080)).targets (gAddr 0x1080) false (.va true) 4 32 4 .write false).map theHit, rfl, ready_b (by decide +kernel),
   calm_only rfl rfl rfl rfl, operands_of (by decide +kernel), eq_hits _ (by decide +kernel), rfl⟩

theorem witness_WindowAccessesSendMessages :
    ∃ (a d : RegName) (s : State) (g : Group) (ws : List (Nat × Nat × Nat)), Ready s g false (g.nextPc false) ∧ ws ≠ [] ∧
    (∃ (i : Instr) (f : Form) (n bytes : Nat) (off : BitVec 6) (sx : Bool), loadForm i = some (f, d, a, n, bytes, off, sx) ∧
      Operands g false [(d, n), (a, f.names)] ∧ g.generalSpan d n = true ∧
      s.targets g false f a off bytes .read false = ws.map (fun w => .win w.1 w.2.1 w.2.2)) ∧
    (∃ (i : Instr) (f : Form) (n bytes : Nat) (off : BitVec 6), storeForm i = some (f, d, a, n, bytes, off) ∧
      Operands g false [(d, n), (a, f.names)] ∧
      s.targets g false f a off bytes .write false = ws.map (fun w => .win w.1 w.2.1 w.2.2)) ∧
    ∃ (op : AtomOp) (w64 : Bool), Operands g false [(d, atomSpan op w64), (a, 1)] ∧ g.generalSpan d (atomNames w64) = true ∧
      s.targets g false .window a 0 (4 * atomNames w64) .write false = ws.map (fun w => .win w.1 w.2.1 w.2.2) := by
  refine ⟨4, 8, wOpen (gAddr 0x70), gAddr 0x70,
    ((wOpen (gAddr 0x70)).targets (gAddr 0x70) false .window 4 0 4 .read false).map theWin, ready_b (by decide +kernel),
    by decide +kernel,
    ⟨.ldw 8 4 .b32 0 false, _, _, _, _, _, rfl, operands_of (by decide +kernel), by decide +kernel, eq_wins _ (by decide +kernel)⟩,
    ⟨.stw 8 4 .b32 0 false false, _, _, _, _, rfl, operands_of (by decide +kernel), ?_⟩,
    .cas, false, operands_of (by decide +kernel), by decide +kernel, ?_⟩
  · exact (eq_wins _ (by decide +kernel)).trans (congrArg _ (by decide +kernel))
  · exact (eq_wins _ (by decide +kernel)).trans (congrArg _ (by decide +kernel))

theorem witness_UniformLoadPends :
    ∃ (d a : RegName) (sz : AccSize) (off : BitVec 6) (s : State) (g : Group) (h : Hit) (c : Shape),
    Ready s g false (g.nextPc false) ∧ Calm s g ∧ Operands g false [(d, sz.names), (a, 2)] ∧ g.uniformSpan a 2 = true ∧
    g.live &&& ~~~g.active false = 0 ∧ g.cls d = some c ∧
    laneTarget s (s.ctx g) g (.va false) a off sz.bytes .read false (lowest g.width (g.active false)) = .hit h ∧
    h.plain = false ∧ s.readable g h.key = true :=
  ⟨8, 4, .b128, 0, wHeld (gAddr 0x1040), gAddr 0x1040,
   theHit (laneTarget (wHeld (gAddr 0x1040)) ((wHeld (gAddr 0x1040)).ctx (gAddr 0x1040)) (gAddr 0x1040) (.va false) 4 0 16 .read false 0),
   .general, ready_b (by decide +kernel), calm_only rfl rfl rfl rfl, operands_of (by decide +kernel), by decide +kernel,
   by decide +kernel, by decide +kernel, eq_hit (by decide +kernel), by decide +kernel, by decide +kernel⟩

theorem witness_SpeculativeAtomicsPend :
    ∃ (i : Instr) (f : Form) (d a : RegName) (op : AtomOp) (w64 : Bool) (coh : Bool) (s u : State) (g : Group)
     (hs : List Hit) (vs : List (Nat × Nat)) (qs : List QWrite),
     (i = .atom d a false op false w64 ∧ f = .va false ∧ coh = true) ∧
     Ready s g false (g.nextPc false) ∧ Calm s g ∧ Operands g false [(d, atomSpan op w64), (a, f.names)] ∧
     g.generalSpan d (atomNames w64) = true ∧ s.targets g false f a 0 (4 * atomNames w64) .write coh = hs.map .hit ∧
     (vs, qs) = atomLanes s (4 * atomNames w64)
       (fun l old => atomNew op w64 old (atomOperands g d op w64 l).1 (atomOperands g d op w64 l).2) [] hs ∧
     u = (s.usedHits (s.ctx g) hs).requestOwn g.core (hitKeys hs) :=
  ⟨_, _, 8, 4, .cas, true, _, wAt (gAddr 0x1040), _, gAddr 0x1040,
   ((wAt (gAddr 0x1040)).targets (gAddr 0x1040) false (.va false) 4 0 8 .write true).map theHit, _, _, ⟨rfl, rfl, rfl⟩,
   ready_b (by decide +kernel), calm_only rfl rfl rfl rfl, operands_of (by decide +kernel), by decide +kernel,
   eq_hits _ (by decide +kernel), rfl, rfl⟩

theorem witness_HomeAtomicsAreSent :
    ∃ (d a : RegName) (op : AtomOp) (w64 : Bool) (s : State) (g : Group) (hs : List Hit),
    Ready s g false (g.nextPc false) ∧ Operands g false [(d, atomSpan op w64), (a, 2)] ∧ Operands g false [(d, atomNames w64), (a, 2)] ∧
    g.generalSpan d (atomNames w64) = true ∧ s.targets g false (.va false) a 0 (4 * atomNames w64) .write true = hs.map .hit :=
  ⟨8, 4, .add, false, wAt (gAddr 0x1040), gAddr 0x1040,
   ((wAt (gAddr 0x1040)).targets (gAddr 0x1040) false (.va false) 4 0 4 .write true).map theHit, ready_b (by decide +kernel),
   operands_of (by decide +kernel), operands_of (by decide +kernel), by decide +kernel, eq_hits _ (by decide +kernel)⟩

theorem witness_PrefetchAndTranslationUse :
    ∃ (a : RegName) (s u : State) (g : Group) (hs : List Hit), Ready s g false (g.nextPc false) ∧ Operands g false [(a, 2)] ∧
     s.tlb.length + 2 * g.width ≤ 256 ∧ u = s.usedHits (s.ctx g) hs :=
  ⟨4, wAt wG, _, wG, [], ready_wG _, operands_of (by decide +kernel), by decide +kernel, rfl⟩

def causeIs (c : Cause) : LaneTarget → Bool
  | .cause _ x => decide (x = c)
  | _ => false
def laneNo : LaneTarget → Nat
  | .cause l _ => l
  | _ => 0
theorem eq_cause {t : LaneTarget} {c : Cause} (h : causeIs c t = true) : t = .cause (laneNo t) c := by
  cases t <;> first | (have := of_decide_eq_true h; subst this; rfl) | exact absurd h Bool.false_ne_true
def pageOf : LaneTarget → Nat × Nat
  | .park (.page p) va => (p, va)
  | _ => (0, 0)
def isPage : LaneTarget → Bool
  | .park (.page _) _ => true
  | _ => false
theorem eq_page {t : LaneTarget} (h : isPage t = true) : t = .park (.page (pageOf t).1) (pageOf t).2 := by
  cases t with
  | park p va => cases p <;> first | rfl | exact absurd h Bool.false_ne_true
  | _ => exact absurd h Bool.false_ne_true

theorem witness_AccessFaults_cause :
    ∃ (i : Instr) (f : Form) (d a : RegName) (n bytes : Nat) (off : BitVec 6) (s : State) (g : Group) (cause : Cause),
     loadForm i = some (f, d, a, n, bytes, off, false) ∧ g.generalSpan d n = true ∧ Issuing s g false ∧ Handled g ∧
     Operands g false [(d, n), (a, f.names)] ∧ (∃ l, LaneTarget.cause l cause ∈ s.targets g false f a off bytes .read false) ∧
     (∀ l x, LaneTarget.cause l x ∈ s.targets g false f a off bytes .read false → x = cause ∨ cause.rank < x.rank) := by
  have e : (wAt (gAddr 0x1041)).targets (gAddr 0x1041) false (.va true) 4 0 4 .read false =
      [laneTarget (wAt (gAddr 0x1041)) ((wAt (gAddr 0x1041)).ctx (gAddr 0x1041)) (gAddr 0x1041) (.va true) 4 0 4 .read false 0] := by
    have : lanesOf (gAddr 0x1041).width ((gAddr 0x1041).active false) = [0] := by decide +kernel
    unfold State.targets; rw [this]; rfl
  have hc := eq_cause (c := .misalignedData) (t := laneTarget (wAt (gAddr 0x1041)) ((wAt (gAddr 0x1041)).ctx (gAddr 0x1041))
    (gAddr 0x1041) (.va true) 4 0 4 .read false 0) (by decide +kernel)
  refine ⟨.ld 8 4 .b32 0 false, _, _, _, _, _, _, wAt (gAddr 0x1041), gAddr 0x1041, .misalignedData, rfl, by decide +kernel,
    issuing_b (by decide +kernel), ⟨rfl, by decide⟩, operands_of (by decide +kernel), ⟨_, e ▸ List.mem_singleton.mpr hc.symm⟩, ?_⟩
  intro l x hx
  replace hx := List.mem_singleton.mp (e ▸ hx)
  rw [hc] at hx
  cases hx
  exact .inl rfl

/-- Faults of function 0 are replayable (TCTL.REPLAY). -/
def wReplay (g : Group) : State :=
  { wAt g with pf := [(devstat, 0x80000000), (0x100000, 0xC0000001), (0x120010, 0x80000000)] }

theorem witness_AccessFaults_park :
    ∃ (i : Instr) (f : Form) (d a : RegName) (n bytes : Nat) (off : BitVec 6) (s : State) (g : Group) (p va : Nat),
     storeForm i = some (f, d, a, n, bytes, off) ∧ Issuing s g false ∧ Operands g false [(d, n), (a, f.names)] ∧
     s.targets g false f a off bytes .write false = [.park (.page p) va] := by
  have e : (wReplay (gAddr 0x5040)).targets (gAddr 0x5040) false (.va true) 4 0 4 .write false =
      [laneTarget (wReplay (gAddr 0x5040)) ((wReplay (gAddr 0x5040)).ctx (gAddr 0x5040)) (gAddr 0x5040) (.va true) 4 0 4 .write
        false 0] := by
    have : lanesOf (gAddr 0x5040).width ((gAddr 0x5040).active false) = [0] := by decide +kernel
    unfold State.targets; rw [this]; rfl
  exact ⟨.st 8 4 .b32 0 false false, _, _, _, _, _, _, wReplay (gAddr 0x5040), gAddr 0x5040, _, _, rfl, issuing_b (by decide +kernel),
    operands_of (by decide +kernel), e.trans (congrArg (fun x => [x]) (eq_page (by decide +kernel)))⟩

/-! ### Hypotheses of the claims about synchronisation, matrix and engine instructions -/

/-- Names that hold uniform words. -/
def gWith (xs : List (RegName × Word)) : Group :=
  xs.foldl (fun g p => g.setReg p.1 { val := .uniform p.2, full := true, poison := false }) wG

theorem uniform_of {g : Group} {r : RegName} {v : Word}
    (h : ((g.cls r).isSome && [r].all (fun r => (g.reg r).full && !(g.reg r).poison) && decide ((g.reg r).val = .uniform v)) = true) :
    Uniform g r v := by
  simp only [Bool.and_eq_true, decide_eq_true_eq] at h
  exact ⟨h.1.1, settled_of h.1.2, h.2⟩

theorem takes_of {g : Group} {d : RegName}
    (h : ((g.cls d).isSome && [d].all (fun r => (g.reg r).full && !(g.reg r).poison) && decide (g.live &&& ~~~g.active false = 0)) =
      true) : Takes g false d := by
  simp only [Bool.and_eq_true, decide_eq_true_eq] at h
  exact ⟨h.1.1, settled_of h.1.2, h.2⟩

theorem descriptor_of {g : Group} {a : RegName} {n align : Nat} {ws : List Word}
    (h : (g.spanOk a n align && (spanNames a n).all (fun r => (g.reg r).full && !(g.reg r).poison) && g.uniformSpan a n &&
      decide (g.descriptor a n = ws)) = true) : Descriptor g a n align ws := by
  simp only [Bool.and_eq_true, decide_eq_true_eq] at h
  exact ⟨h.1.1.1, settled_of h.1.1.2, h.1.2, h.2⟩

/-- Every window entry of core 0 is open. -/
def wFull : State :=
  { wAt wG with wins := (List.range 64).map (fun f => { slot := f, openerTeam := some 3, offset := 0, sw := true, gen := 0 }) }

/-- A message through window entry 0 is on its way. -/
def wSent (g : Group) : State :=
  { wOpen g with msgs := [{ target := 0, slot := 0, group := 9, prod := none, team := 3, base := 0, kind := .store, size := 4, lanes := [] }] }

theorem witness_SynchronisationCompletes_windows :
    (∃ (s : State) (g : Group) (a d : RegName) (v : Word) (t : Team) (core e : Nat), Ready s g false (g.nextPc false) ∧
      g.active false ≠ 0 ∧ Uniform g a v ∧ Takes g false d ∧ s.team? g.team = some t ∧ v.toNat % 128 = 0 ∧
      v.toNat < 128 * t.kernel.scratch ∧
      core = (if t.pair = true ∧ 128 * ((t.kernel.scratch + 1) / 2) ≤ v.toNat then t.core + 1 else t.core) ∧ e < 64 ∧
      s.entryFree (64 * core + e) ∧ (∀ f, f < e → ¬ s.entryFree (64 * core + f))) ∧
    (∀ f, f < 64 → ¬ wFull.entryFree (64 * 0 + f)) ∧
    (∃ (s t : State) (g h : Group) (v : Word) (w : WinEntry), Ready s g false (g.nextPc false) ∧ Uniform g 1 v ∧
      s.window? (s.ctx g) v.toNat = some w ∧ w.openerTeam = some g.team ∧ (∀ m ∈ s.msgs, m.slot ≠ w.slot) ∧
      Ready t h false (h.nextPc false) ∧ Uniform h 1 v ∧ t.window? (t.ctx h) v.toNat = some w ∧ w.openerTeam = some h.team ∧
      ∃ m ∈ t.msgs, m.slot = w.slot) := by
  refine ⟨⟨wAt wG, wG, 1, 2, 0, _, 0, 0, ready_wG _, by decide +kernel, uniform_of (by decide +kernel), takes_of (by decide +kernel),
      rfl, by decide, by decide +kernel, by decide +kernel, by decide, ?_, by omega⟩, ?_,
    wOpen wG, wSent wG, wG, wG, 0, { slot := 0, openerTeam := some 3, offset := 0, sw := true, gen := 0 },
    ready_b (by decide +kernel), uniform_of (by decide +kernel), by decide +kernel, rfl, by decide +kernel,
    ready_b (by decide +kernel), uniform_of (by decide +kernel), by decide +kernel, rfl, by decide +kernel⟩
  · intro w hw; exact absurd hw (by simp [wAt, wS, State.placeWord, State.reset])
  · intro f hf h
    have key : ∀ f < 64, wFull.wins.find? (fun x => x.slot = 64 * 0 + f) =
        some { slot := f, openerTeam := some 3, offset := 0, sw := true, gen := 0 } := by decide +kernel
    exact absurd (h _ (key f hf)) (by simp)

/-- A group with a present that the display engine has not read. -/
def gPresents : Group := { wG with presents := 1 }
/-- Function 0 has the first 16 booths. -/
def wBooths (g : Group) : State := { wAt g with pf := [(devstat, 0x80000000), (0x100000, 0xC0000001), (0x116000, 1)] }

theorem witness_SynchronisationCompletes_others :
    (∃ (s t : State) (g h : Group) (sc : Scope), Ready s g false (g.nextPc false) ∧ fenceScope (s.pmode (s.ctx g).vf) sc = .device ∧
      g.hostOut = 0 ∧ g.presents = 0 ∧ Ready t h false (h.nextPc false) ∧ fenceScope (t.pmode (t.ctx h).vf) sc = .device ∧
      h.presents ≠ 0) ∧
    (∃ (s : State) (g : Group) (v w w' : Word) (n : Nat), Ready s g false (g.nextPc false) ∧ Uniform g 1 v ∧
      v.toNat < 16 * bits (s.boothallot (s.ctx g).vf) 0 9 ∧ n = 16 * bits (s.boothallot (s.ctx g).vf) 16 8 + v.toNat ∧
      Takes g false 2 ∧ s.noneAtBooth n ∧ Uniform g 3 w ∧ ((s.booth n).serving - w).toNat < 2 ^ 31 ∧ Uniform g 4 w' ∧
      2 ^ 31 ≤ ((s.booth n).serving - w').toNat) ∧
    (∃ (s u : State) (g : Group) (w w' : Word) (h : Hit), Ready s g false (g.nextPc false) ∧ Calm s g ∧ g.spanOk 4 2 2 = true ∧
      Settled g [4, 5] ∧ g.uniformSpan 4 2 = true ∧
      laneTarget s (s.ctx g) g (.va false) 4 0 4 .read true (lowest g.width (g.active false)) = .hit h ∧
      u = s.usedHits (s.ctx g) [h] ∧ Uniform g 2 w ∧ u.held h.space h.addr 4 ≠ w.toNat ∧ Uniform g 3 w' ∧
      u.held h.space h.addr 4 = w'.toNat) := by
  refine ⟨⟨wAt wG, wAt gPresents, wG, gPresents, .device, ready_wG _, by decide +kernel, rfl, rfl, ready_b (by decide +kernel),
      by decide +kernel, by decide +kernel⟩,
    ⟨wBooths (gWith [(1, 15), (4, 1)]), gWith [(1, 15), (4, 1)], 15, 0, 1, 15, ready_b (by decide +kernel),
      uniform_of (by decide +kernel), by decide +kernel, by decide +kernel, takes_of (by decide +kernel), ?_,
      uniform_of (by decide +kernel), by decide +kernel, uniform_of (by decide +kernel), by decide +kernel⟩,
    wAt (gWith [(4, 0x1040), (2, 7)]), _, gWith [(4, 0x1040), (2, 7)], 7, 0, _, ready_b (by decide +kernel),
    calm_only rfl rfl rfl rfl, by decide +kernel, settled_of (by decide +kernel), by decide +kernel, eq_hit (by decide +kernel), rfl,
    uniform_of (by decide +kernel), by decide +kernel, uniform_of (by decide +kernel), by decide +kernel⟩
  exact ⟨by decide +kernel, by decide +kernel⟩

theorem witness_MatrixMovesComplete :
    ∃ (s : State) (g : Group) (ws vs : List Word) (tile row dst src : Word) (t : Team) (n : Nat), Ready s g false (g.nextPc false) ∧
      g.active false ≠ 0 ∧ Descriptor g 1 3 1 [0, ws.getD 1 0, ws.getD 2 0] ∧ (0 : Word).extractLsb' 12 20 = 0 ∧
      Descriptor g 4 3 1 [0x1000, vs.getD 1 0, vs.getD 2 0] ∧ (0x1000 : Word).extractLsb' 12 20 ≠ 0 ∧ Handled g ∧
      Uniform g 7 tile ∧ Uniform g 8 row ∧ s.team? g.team = some t ∧ tile.toNat < t.kernel.acc ∧ row.toNat < 32 ∧
      (g.width = 64 → row.toNat % 2 = 0) ∧ s.tileBusy g tile.toNat = false ∧ n = (if g.width = 16 then 2 else 1) ∧
      g.spanOk 10 n n = true ∧ Settled g (spanNames 10 n) ∧ g.generalSpan 10 n = true ∧ Uniform g 7 dst ∧ Uniform g 1 src ∧
      dst.toNat < t.kernel.acc ∧ src.toNat < t.kernel.acc ∧ s.tileBusy g dst.toNat = false ∧ s.tileBusy g src.toNat = false ∧
      (t.acc.map (·.1)).Pairwise (· < ·) :=
  ⟨wAt (gWith [(4, 0x1000), (7, 7), (8, 31)]), gWith [(4, 0x1000), (7, 7), (8, 31)], [], [], 7, 31, 7, 0, _, 2,
   ready_b (by decide +kernel), by decide +kernel, descriptor_of (by decide +kernel), by decide, descriptor_of (by decide +kernel),
   by decide, ⟨rfl, by decide⟩, uniform_of (by decide +kernel), uniform_of (by decide +kernel), rfl, by decide +kernel, by decide,
   by decide +kernel, by decide +kernel, by decide +kernel, by decide +kernel, settled_of (by decide +kernel), by decide +kernel,
   uniform_of (by decide +kernel), uniform_of (by decide +kernel), by decide +kernel⟩

/-- A frame of one bucket of 16 by 16 pixels, one sample each, and the bucket owned on core 0. -/
def wDesc : Nat := 0x400000000240000000008c0000000022000000003f8000003f80000000000000000000003f8000003f8000003c0000000003c00f
theorem wDesc_fields : wDesc = packBits [(14, 15), (14, 15), (2, 0), (3, 0), (2, 0), (13, 0), (16, 0x3C00), (32, 0x3F800000), (32, 0x3F800000),
  (32, 0), (32, 0), (32, 0x3F800000), (32, 0x3F800000), (32, 0), (42, 0x22), (42, 0x23), (42, 0x24), (33, 1)] := by decide +kernel
def wFrame : Frame :=
  { vf := 0, dev := 0, h := 0, st := .sealed, desc := wDesc, sealing := none, buckets := [.owned 3],
    deques := [{ die := 0, buckets := [], known := [], excluded := [], steal := none, stolen := none, asks := [] }], counts := [] }
def wStore : Store :=
  { core := 0, team := 3, vf := 0, dev := 0, h := 0, bucket := 0, bx := 0, by_ := 0, records := [], layers := [], tails := [],
    grids := [{ place := 0, gen := 0, nu := 1, nv := 1, spill := none }], gens := [], cells := [], slab := none, recLines := 0, recSpill := 0, parkedOn := none, resolving := none }
def wOwned (g : Group) : State := { wAt g with frames := [wFrame], stores := [wStore] }
/-- The queues of a pipeline: one queue whose rows hold a word a lane. -/
def wPipeline (g : Group) : State :=
  { wAt g with launches := wS.launches.map (fun l =>
      { l with queues := [({ kernel := Kernel.single, rows := 0x10000, nrows := 8, pay := 1, age := 0 } : PQueue)] }) }

theorem room_of {s : State} {g : Group} {p : Path}
    (h : (decide (g.pathCount.getD (pathIndex p) 0 < 65535) && decide (s.teamWork g.team < 256)) = true) : Room s g p := by
  simp only [Bool.and_eq_true, decide_eq_true_eq] at h
  exact h

theorem witness_EngineInstructionsQueue_matrix :
    ∃ (s : State) (g : Group) (ws vs all alls : List Word), Ready s g false (g.nextPc false) ∧ Handled g ∧ Descriptor g 1 10 1 ws ∧
      all = ws ++ wordsOf 3 g.tileCfg.toNat ∧ Room s g .matrix ∧
      mmaBad (mmaArgs all) (dw ws 4) false (s.accOf g) (s.ctx g).bytes = false ∧
      mmaBad (mmaArgs all) (dw ws 4) true (s.accOf g) (s.ctx g).bytes = false ∧ Descriptor g 20 10 1 vs ∧
      alls = vs ++ wordsOf 3 g.tileCfg.toNat ∧ mmaBad (mmaArgs alls) (dw vs 4) true (s.accOf g) (s.ctx g).bytes = true :=
  ⟨wAt (gWith [(5, 64)]), gWith [(5, 64)], [0, 0, 0, 0, 64, 0, 0, 0, 0, 0], List.replicate 10 0, _, _, ready_b (by decide +kernel),
   ⟨rfl, by decide⟩, descriptor_of (by decide +kernel), rfl, room_of (by decide +kernel), by decide +kernel, by decide +kernel,
   descriptor_of (by decide +kernel), rfl, by decide +kernel⟩

theorem witness_EngineInstructionsQueue_copies :
    ∃ (s : State) (g : Group) (ws vs : List Word), Ready s g false (g.nextPc false) ∧ Room s g .copy ∧
      g.pathCount.getD 0 0 < s.copyqOf g ∧ Descriptor g 1 6 1 ws ∧
      copyBad (copyArgs false ws) false (dw ws 5) (s.taskCount (s.ctx g).vf) (s.ctx g).bytes (s.copyqOf g) = false ∧
      Descriptor g 20 9 1 vs ∧
      copyBad (copyArgs true vs) true (dw vs 8) (s.taskCount (s.ctx g).vf) (s.ctx g).bytes (s.copyqOf g) = false :=
  ⟨wAt (gWith [(24, 4), (25, 1)]), gWith [(24, 4), (25, 1)], List.replicate 6 0, [0, 0, 0, 0, 4, 1, 0, 0, 0],
   ready_b (by decide +kernel), room_of (by decide +kernel), by decide +kernel, descriptor_of (by decide +kernel), by decide +kernel,
   descriptor_of (by decide +kernel), by decide +kernel⟩

theorem witness_EngineInstructionsQueue_render :
    ∃ (s t : State) (g : Group) (ws vs us bs : List Word) (x : Store), Ready s g false (g.nextPc false) ∧ Handled g ∧ Room s g .render ∧
      Descriptor g 1 3 1 ws ∧ dq ws 0 % 16 = 0 ∧ dw ws 2 ≤ 3 ∧ Descriptor g 20 3 1 bs ∧ 3 < dw bs 2 ∧ s.ownedStore g.team = some x ∧
      Descriptor g 1 4 1 vs ∧ dq vs 0 % 16 = 0 ∧ dw vs 2 < 2 ^ 17 ∧ dw vs 3 % 8 = 0 ∧ dw vs 3 + 8 ≤ (s.ctx g).bytes ∧
      x.grids.length + s.dicesOf g.team < 256 ∧ Descriptor g 1 6 1 us ∧ dq us 0 % 8 = 0 ∧ dw us 2 % 8 = 0 ∧
      bits (dw us 3) 0 1 = 0 ∧ bits (dw us 3) 1 31 = 0 ∧ dq us 4 % 128 = 0 ∧ Ready t g false (g.nextPc false) ∧
      t.ownedStore g.team = none :=
  ⟨wOwned (gWith [(22, 4)]), wAt (gWith [(22, 4)]), gWith [(22, 4)], List.replicate 3 0, List.replicate 4 0, List.replicate 6 0,
   [0, 0, 4], wStore, ready_b (by decide +kernel), ⟨rfl, by decide⟩, room_of (by decide +kernel), descriptor_of (by decide +kernel),
   by decide +kernel, by decide +kernel, descriptor_of (by decide +kernel), by decide +kernel, by decide +kernel,
   descriptor_of (by decide +kernel), by decide +kernel, by decide +kernel, by decide +kernel, by decide +kernel, by decide +kernel,
   descriptor_of (by decide +kernel), by decide +kernel, by decide +kernel, by decide +kernel, by decide +kernel, by decide +kernel,
   ready_b (by decide +kernel), by decide +kernel⟩

theorem witness_EngineInstructionsQueue_queue :
    ∃ (s : State) (g : Group) (ws : List Word) (t : Team) (l : Launch) (k k' : Word) (d a : RegName),
      Ready s g false (g.nextPc false) ∧ Handled g ∧
      Descriptor g 2 2 2 ws ∧ Room s g .queue ∧ s.team? g.team = some t ∧ s.launch? t.launch = some l ∧
      s.groups.find? (fun x => x.team = g.team && x.num = g.num) = some g ∧ g.active false ≠ 0 ∧ (g.cls d).isSome = true ∧
      (g.cls a).isSome = true ∧ Settled g [d, a] ∧
      (∀ y ∈ lanesOf g.width (g.active false), ∃ q, l.queues[(g.word a y).toNat]? = some q ∧ d.toNat + q.pay ≤ 128 ∧
        (∀ r ∈ spanNames d q.pay, (g.cls r).isSome = true) ∧ Settled g (spanNames d q.pay)) ∧
      Uniform g 1 k' ∧ s.taskCount (s.ctx g).vf ≤ k'.toNat ∧
      ∃ u, Ready u g false (g.nextPc false) ∧ Uniform g 1 k ∧ k.toNat < u.taskCount (u.ctx g).vf := by
  refine ⟨wPipeline (gWith [(1, 63)]), gWith [(1, 63)], [0, 0], _, _, 63, 63, 8, 9, ready_b (by decide +kernel), ⟨rfl, by decide⟩,
    descriptor_of (by decide +kernel), room_of (by decide +kernel), rfl, rfl, by decide +kernel, by decide +kernel, by decide +kernel,
    by decide +kernel, settled_of (by decide +kernel), ?_, uniform_of (by decide +kernel), by decide +kernel,
    { wAt (gWith [(1, 63)]) with pf := [(devstat, 0x80000000), (0x100000, 0xC0000001), (0x110000, 1)] }, ready_b (by decide +kernel),
    uniform_of (by decide +kernel), by decide +kernel⟩
  have h : ∀ y ∈ lanesOf (gWith [(1, 63)]).width ((gWith [(1, 63)]).active false), ((gWith [(1, 63)]).word 9 y).toNat = 0 := by
    decide +kernel
  intro y hy
  exact ⟨_, by rw [h y hy]; rfl, by decide, by decide +kernel, settled_of (by decide +kernel)⟩

/-! ### Hypotheses of the claims about buckets, rays, textures, frames and the system instructions -/

/-- One lane is live. -/
def gOne (xs : List (RegName × Word)) : Group :=
  (gWith xs).setSlot false { wG.slotA with mask := 1 }

theorem direct_of {s : State} {g : Group} {hs : List Hit} (h : hs.all (fun h => !h.plain && s.readable g h.key) = true) :
    s.direct g hs := by
  intro x hx
  have := List.all_eq_true.mp h x hx
  simpa using this

def rangeIs (ps : List (Nat × Nat × Bool)) : RangeRes → Bool
  | .ok qs => decide (qs = ps)
  | _ => false
theorem eq_range {r : RangeRes} {ps : List (Nat × Nat × Bool)} (h : rangeIs ps r = true) : r = .ok ps := by
  cases r <;> first | (have := of_decide_eq_true h; subst this; rfl) | exact absurd h Bool.false_ne_true
def leafIs (p : Nat × Nat × Nat × Nat × Nat) : TrRes → Bool
  | .ok a b c d e => decide ((a, b, c, d, e) = p)
  | _ => false
theorem eq_leaf {r : TrRes} {p : Nat × Nat × Nat × Nat × Nat} (h : leafIs p r = true) : r = .ok p.1 p.2.1 p.2.2.1 p.2.2.2.1 p.2.2.2.2 := by
  cases r <;> first | (have := of_decide_eq_true h; subst this; rfl) | exact absurd h Bool.false_ne_true

theorem witness_BucketAccessesComplete_rast3 :
    ∃ (s : State) (g : Group) (x : Store) (fr : Frame) (tok : Word) (ws : List Word), Ready s g false (g.nextPc false) ∧
      g.active false ≠ 0 ∧ s.ownedStore g.team = some x ∧ s.storeFrame x = some fr ∧ Uniform g 8 tok ∧ (8 : RegName) ∉ spanNames 9 3 ∧
      g.spanOk 9 3 1 = true ∧ g.generalSpan 9 3 = true ∧ Settled g (spanNames 9 3) ∧ Descriptor g 20 9 1 ws :=
  ⟨wOwned wG, wG, wStore, wFrame, 0, _, ready_b (by decide +kernel), by decide +kernel, by decide +kernel, by decide +kernel,
   uniform_of (by decide +kernel), by decide, by decide +kernel, by decide +kernel, settled_of (by decide +kernel),
   descriptor_of (ws := List.replicate 9 0) (by decide +kernel)⟩

theorem witness_BucketAccessesComplete_rast5 :
    ∃ (s u : State) (g : Group) (x : Store) (fr : Frame) (tok av : Word) (gr : Grid) (m : Nat) (hs : List Hit),
      Ready s g false (g.nextPc false) ∧ g.active false ≠ 0 ∧ s.ownedStore g.team = some x ∧ s.storeFrame x = some fr ∧
      Uniform g 8 tok ∧ Uniform g 1 av ∧ Calm s g ∧ x.grid? (av.toNat / 2 ^ 16) = some gr ∧ m = av.toNat % 2 ^ 10 ∧
      av.toNat / 2 ^ 10 % 2 ^ 6 = 0 ∧ m < gr.nu * gr.nv ∧
      ([(m % gr.nu, m / gr.nu), (m % gr.nu + 1, m / gr.nu), (m % gr.nu + 1, m / gr.nu + 1), (m % gr.nu, m / gr.nu + 1)].flatMap
        (fun q => vertexParts gr.nu q.1 q.2)).map (fun (o : Nat) => s.gridTarget (s.ctx g) x 0 gr.handle o 16 .read) =
        hs.map .hit ∧ s.direct g hs ∧ u = s.usedHits (s.ctx g) hs :=
  ⟨wOwned wG, _, wG, wStore, wFrame, 0, 0, { place := 0, gen := 0, nu := 1, nv := 1, spill := none }, 0, _,
   ready_b (by decide +kernel), by decide +kernel, by decide +kernel, by decide +kernel, uniform_of (by decide +kernel),
   uniform_of (by decide +kernel), calm_only rfl rfl rfl rfl, by decide +kernel, by decide, by decide, by decide,
   eq_hits _ (by decide +kernel), direct_of (by decide +kernel), rfl⟩

theorem witness_BucketAccessesComplete_grids :
    ∃ (s u v : State) (g : Group) (x : Store) (fr : Frame) (ls : List Nat) (hs ks : List Hit),
      Ready s g false (g.nextPc false) ∧ g.active false ≠ 0 ∧ s.ownedStore g.team = some x ∧ s.storeFrame x = some fr ∧ Calm s g ∧
      ls = lanesOf g.width (g.active false) ∧ Operands g false [(8, 1), (1, 1)] ∧ g.generalSpan 8 1 = true ∧
      ls.map (fun l => s.gridTarget (s.ctx g) x l ((g.word 1 l).toNat / 2 ^ 16)
        (((g.word 1 l).toNat % 2 ^ 16 : Nat) + (31 : BitVec 6).toInt * 4) 4 .read) = hs.map .hit ∧
      s.direct g hs ∧ u = s.usedHits (s.ctx g) hs ∧
      ls.map (fun l => s.gridTarget (s.ctx g) x l ((g.word 1 l).toNat / 2 ^ 16)
        (((g.word 1 l).toNat % 2 ^ 16 : Nat) + (31 : BitVec 6).toInt * 4) 4 .write) = ks.map .hit ∧
      v = (s.usedHits (s.ctx g) ks).requestOwn g.core (hitKeys ks) :=
  ⟨wOwned wG, _, _, wG, wStore, wFrame, _, _, _, ready_b (by decide +kernel), by decide +kernel, by decide +kernel,
   by decide +kernel, calm_only rfl rfl rfl rfl, rfl, operands_of (by decide +kernel), by decide +kernel,
   eq_hits _ (by decide +kernel), direct_of (by decide +kernel), rfl, eq_hits _ (by decide +kernel), rfl⟩

theorem witness_BucketAccessesComplete_samples :
    ∃ (s t u : State) (g h k : Group) (x : Store) (fr : Frame), Ready s g false (g.nextPc false) ∧ s.ownedStore g.team = some x ∧
      s.storeFrame x = some fr ∧ g.spanOk 4 4 4 = true ∧ g.spanOk 8 2 2 = true ∧ Settled g (spanNames 4 4 ++ spanNames 8 2) ∧
      (lanesOf g.width (g.active false)).filter (fun l => decide (g.word 4 l ≠ 0xFFFFFFFF)) ≠ [] ∧
      (∀ l ∈ lanesOf g.width (g.active false), (g.word 4 l).toNat < (x.region fr.desc).size) ∧
      Ready t h false (h.nextPc false) ∧ t.ownedStore h.team = some x ∧
      (lanesOf h.width (h.active false)).filter (fun l => decide (h.word 4 l ≠ 0xFFFFFFFF)) = [] ∧
      Ready u k false (k.nextPc false) ∧ Handled k ∧ u.ownedStore k.team = some x ∧
      maskWhere k.width (fun l => decide (l ∈ (lanesOf k.width (k.active false)).filter (fun l => decide (k.word 4 l ≠ 0xFFFFFFFF)) ∧
        (x.region fr.desc).size ≤ (k.word 4 l).toNat)) ≠ 0 ∧
      (wAt wG).ownedStore wG.team = none ∧ Operands wG false [(4, 4), (8, 1)] ∧ wG.generalSpan 4 4 = true :=
  ⟨wOwned (gWith [(4, 255)]), wOwned (gWith [(4, 0xFFFFFFFF)]), wOwned (gWith [(4, 256)]), gWith [(4, 255)], gWith [(4, 0xFFFFFFFF)],
   gWith [(4, 256)], wStore, wFrame, ready_b (by decide +kernel), by decide +kernel, by decide +kernel, by decide +kernel,
   by decide +kernel, settled_of (by decide +kernel), by decide +kernel, by decide +kernel, ready_b (by decide +kernel),
   by decide +kernel, by decide +kernel, ready_b (by decide +kernel), ⟨rfl, by decide⟩, by decide +kernel, by decide +kernel,
   by decide +kernel, operands_of (by decide +kernel), by decide +kernel⟩

theorem witness_RaysAndTexturesPend_trace :
    ∃ (s : State) (g : Group) (ls : List Nat), Ready s g false (g.nextPc false) ∧ ls = lanesOf g.width (g.active false) ∧ ls ≠ [] ∧
      g.spanOk 10 6 2 = true ∧ g.spanOk 20 8 4 = true ∧ g.spanOk 30 2 2 = true ∧ g.generalSpan 10 6 = true ∧
      Settled g (spanNames 20 8 ++ spanNames 30 2 ++ spanNames 10 6) ∧ (∀ l ∈ ls, bits (g.word 30 l).toNat 1 5 = 0) ∧
      s.raysOf g.core + ls.length ≤ 4096 :=
  ⟨wAt wG, wG, _, ready_wG _, rfl, by decide +kernel, by decide +kernel, by decide +kernel, by decide +kernel, by decide +kernel,
   settled_of (by decide +kernel), by decide +kernel, by decide +kernel⟩

/-- A texture of one FP32 texel at VA 0x1100, its descriptor at VA 0x1040, and core 0 holding both lines. -/
def wTexture (g : Group) : State :=
  { wAt g with mem := cells [(4160, 2), (4168, 34)] []
               caches := [{ holder := 0, line := 32, st := .shared }, { holder := 0, line := 34, st := .shared }] }
def wTex : Texture := { fmt := 2, bilinear := false, wrapU := 0, wrapV := 0, levels := 0, w := 1, h := 1, pitch := 0, base := 4352 }

theorem witness_RaysAndTexturesPend_sample :
    ∃ (s u v : State) (g : Group) (ls : List Nat) (va : DWord) (d0 d1 : Hit) (tex : Texture) (hs ks : List Hit),
      Ready s g false (g.nextPc false) ∧ ls = lanesOf g.width (g.active false) ∧ g.spanOk 8 4 4 = true ∧ g.spanOk 4 2 2 = true ∧
      g.generalSpan 8 4 = true ∧ g.uniformSpan 4 2 = true ∧ g.pair 4 0 = va ∧ va.toNat % 32 = 0 ∧ Calm s g ∧
      s.resolveVa (s.ctx g) 0 va 16 .read false false = .hit d0 ∧ s.resolveVa (s.ctx g) 0 (va + 16) 16 .read false false = .hit d1 ∧
      textureOf (s.held d0.space d0.addr 16 + 2 ^ 128 * s.held d1.space d1.addr 16) = some tex ∧
      g.spanOk 20 3 2 = true ∧ Settled g (spanNames 20 3 ++ spanNames 4 2 ++ spanNames 8 4) ∧
      ls.flatMap (fun l => (tex.reads 0 (tex.footprint 0 (g.word 20 l).toNat (g.word 21 l).toNat)).map (fun v =>
        s.resolveVa (s.ctx g) l (BitVec.ofNat 64 v) tex.bytes .read false false)) = hs.map .hit ∧
      s.direct g (d0 :: d1 :: hs) ∧ u = s.usedHits (s.ctx g) (d0 :: d1 :: hs) ∧
      ls.flatMap (fun l => (tex.reads (tex.lod (g.word 22 l).toNat).1 (tex.footprint (tex.lod (g.word 22 l).toNat).1
          (g.word 20 l).toNat (g.word 21 l).toNat) ++ tex.reads (tex.lod (g.word 22 l).toNat).2.1
          (tex.footprint (tex.lod (g.word 22 l).toNat).2.1 (g.word 20 l).toNat (g.word 21 l).toNat)).map (fun v =>
        s.resolveVa (s.ctx g) l (BitVec.ofNat 64 v) tex.bytes .read false false)) = ks.map .hit ∧
      s.direct g (d0 :: d1 :: ks) ∧ v = s.usedHits (s.ctx g) (d0 :: d1 :: ks) :=
  ⟨wTexture (gOne [(4, 0x1040)]), _, _, gOne [(4, 0x1040)], _, 0x1040,
   theHit ((wTexture (gOne [(4, 0x1040)])).resolveVa ((wTexture (gOne [(4, 0x1040)])).ctx (gOne [(4, 0x1040)])) 0 0x1040 16 .read false false),
   theHit ((wTexture (gOne [(4, 0x1040)])).resolveVa ((wTexture (gOne [(4, 0x1040)])).ctx (gOne [(4, 0x1040)])) 0 (0x1040 + 16) 16 .read false false),
   wTex, _, _, ready_b (by decide +kernel), rfl, by decide +kernel, by decide +kernel, by decide +kernel, by decide +kernel,
   by decide +kernel, by decide, calm_only rfl rfl rfl rfl, eq_hit (by decide +kernel), eq_hit (by decide +kernel),
   by decide +kernel, by decide +kernel, settled_of (by decide +kernel), eq_hits _ (by decide +kernel), direct_of (by decide +kernel),
   rfl, eq_hits _ (by decide +kernel), direct_of (by decide +kernel), rfl⟩

/-- The descriptor of the frame, byte by byte. -/
def wDescCells : List Cell :=
  [(4160, 15), (4161, 192), (4162, 3), (4167, 60), (4170, 128), (4171, 63), (4174, 128), (4175, 63), (4186, 128), (4187, 63),
   (4190, 128), (4191, 63), (4196, 34), (4201, 140), (4206, 64), (4207, 2), (4211, 64)]

/-- The descriptor of the frame lies at VA 0x1040. -/
def wDescribed (frames : List Frame) (g : Group) : State :=
  { wAt g with mem := cells wDescCells [], frames := frames }

theorem witness_BucketInstructionsComplete_open :
    ∃ (s t : State) (g : Group) (ws : List Word) (va desc h : Nat) (ps qs : List (Nat × Nat × Bool)) (c : Ctx), c = s.ctx g ∧
      Ready s g false (g.nextPc false) ∧ Descriptor g 4 2 2 ws ∧ (g.cls 8).isSome = true ∧ Settled g [8] ∧ va = dq ws 0 ∧ va % 64 = 0 ∧
      s.opRange c.core c.vf c.dev false va 64 = .ok ps ∧ desc = leNat (s.readPieces ps) ∧ s.poisonedPieces ps = false ∧
      s.heldOff (pieceLines ps) false = false ∧ s.locks = [] ∧ fdValid desc = true ∧ s.freeFrame c.vf c.dev = some h ∧
      s.openPieces c (openStores desc) = .ok qs ∧ s.heldOff (pieceLines qs) true = false ∧
      (∀ x ∈ s.groups, x.window = none) ∧ (g.slot true).wait = .none ∧
      t = { s with frames := t.frames } ∧ t.freeFrame c.vf c.dev = none := by
  refine ⟨wDescribed [] (gWith [(4, 0x1040)]), wDescribed ((List.range 4).map (fun h => { wFrame with h := h })) (gWith [(4, 0x1040)]),
    gWith [(4, 0x1040)], [0x1040, 0], 0x1040, wDesc, 0, [(4160, 64, false)],
    [(4480, 8, false), (4352, 4, false), (4360, 12, false), (4608, 4, false), (4616, 12, false)], _, rfl, ready_b (by decide +kernel),
    descriptor_of (by decide +kernel), by decide +kernel, settled_of (by decide +kernel), by decide +kernel, by decide, eq_range (by decide +kernel),
    by decide +kernel, by decide +kernel, by decide +kernel, rfl, by decide +kernel, by decide +kernel, eq_range (by decide +kernel), by decide +kernel,
    by decide +kernel, rfl, rfl, by decide +kernel⟩

/-- The frame with a bucket in the deque of die 0, and with one that another die has. -/
def wDealt : Frame :=
  { wFrame with buckets := [.dealt], deques := wFrame.deques.map (fun q => ({ q with buckets := [0] } : Deque)) }
def wShared : Frame :=
  { wFrame with buckets := [.dealt], deques := wFrame.deques ++ [{ die := 1, buckets := [0], known := [], excluded := [], steal := none, stolen := none, asks := [] }] }

/-- The frame in other states, and the state in which the group may ask for it. -/
def wFrameIs (f : Frame) (g : Group) : State := { wAt g with frames := [f] }

theorem witness_BucketInstructionsComplete_frame :
    ∃ (g : Group) (h : Word), Ready (wAt g) g false (g.nextPc false) ∧ Descriptor g 1 1 1 [h] ∧ h.toNat ≤ 3 ∧ Handled g ∧
      (g.cls 8).isSome = true ∧ Settled g [8] ∧
      (∀ f ∈ [{ wFrame with h := 3, st := .opened, buckets := [] }, { wFrame with h := 3, buckets := [.dealt] }, { wFrame with h := 3 },
          { wFrame with h := 3, st := .done, buckets := [.done] }],
        (wFrameIs f g).frame? 0 0 h.toNat = some f ∧ f.vf = 0 ∧ f.dev = 0 ∧ f.h = h.toNat ∧ f.sealing = none) ∧
      (∃ t, (wAt g).team? g.team = some t ∧ t.id = g.team ∧ (∀ x ∈ (wAt g).stores, x.team ≠ t.id ∧ x.core ≠ t.core) ∧
        (∃ x ∈ (wOwned g).stores, x.team = t.id ∨ x.core = t.core) ∧
        (wFrame.deque (t.core / 64)).buckets = [] ∧
        (wDealt.deque (t.core / 64)).buckets = [0]) ∧
      wFrame.exhausted = true ∧ wShared.exhausted = false :=
  ⟨gWith [(1, 3)], 3, ready_b (by decide +kernel), descriptor_of (by decide +kernel), by decide, ⟨rfl, by decide⟩, by decide +kernel,
   settled_of (by decide +kernel), by decide +kernel, ⟨_, rfl, by decide +kernel⟩, by decide +kernel, by decide +kernel⟩

theorem witness_BucketInstructionsComplete_free :
    ∃ (s t : State) (g : Group) (h : Word) (x : Store) (gr : Grid), Ready s g false (g.nextPc false) ∧ Descriptor g 1 1 1 [h] ∧
      s.stores.find? (fun x => x.team = g.team) = some x ∧ x.grid? h.toNat = some gr ∧ s.gridBusy g.team h.toNat = false ∧
      Handled g ∧ Ready t g false (g.nextPc false) ∧ t.stores.find? (fun x => x.team = g.team) = none :=
  ⟨wOwned wG, wAt wG, wG, 0, wStore, { place := 0, gen := 0, nu := 1, nv := 1, spill := none }, ready_b (by decide +kernel),
   descriptor_of (by decide +kernel), by decide +kernel, by decide +kernel, by decide +kernel, handled_wG, ready_wG _,
   by decide +kernel⟩

/-- VA 0x2000 leads to device 0 across the fabric. -/
def wPeer (g : Group) : State := { wAt g with mem := cells [] [(73744, 47), (73750, 3)] }

theorem witness_SystemInstructionsComplete_xst :
    ∃ (s : State) (g : Group) (c : Ctx) (va : DWord) (len : Word) (pa canon e addr sz : Nat) (t : Team),
      Ready s g false (g.nextPc false) ∧ c = s.ctx g ∧ Descriptor g 4 2 2 [va.extractLsb' 0 32, va.extractLsb' 32 32] ∧
      Uniform g 6 len ∧ (g.cls 8).isSome = true ∧ Settled g [8] ∧ g.active false ≠ 0 ∧ s.team? g.team = some t ∧ g.xstOut < 64 ∧
      len.toNat % 4 = 0 ∧ 4 ≤ len.toNat ∧ len.toNat ≤ 128 ∧ len.toNat ≤ 4 * g.width ∧ va.toNat % 4 = 0 ∧
      va.toNat % 128 + len.toNat ≤ 128 ∧ va.toNat < 2 ^ 49 ∧ va.toNat / 2 ^ 40 ≠ 0x1FF ∧
      s.translate (some c.core) (some c.die) c.vf c.dev va.toNat .peer = .ok pa canon e addr sz :=
  ⟨wPeer (gWith [(4, 0x2040), (6, 64)]), gWith [(4, 0x2040), (6, 64)], _, 0x2040, 64, 844424930132032, 844424930132032, 844424930132015,
   73744, 12, _, ready_b (by decide +kernel), rfl, descriptor_of (by decide +kernel), uniform_of (by decide +kernel),
   by decide +kernel, settled_of (by decide +kernel), by decide +kernel, rfl, by decide, by decide, by decide, by decide,
   by decide +kernel, by decide, by decide, by decide, by decide,
   eq_leaf (p := (844424930132032, 844424930132032, 844424930132015, 73744, 12)) (by decide +kernel)⟩

theorem witness_SystemInstructionsComplete_present :
    ∃ (s : State) (g : Group) (va : DWord) (t : Team), Ready s g false (g.nextPc false) ∧
      Descriptor g 4 2 2 [va.extractLsb' 0 32, va.extractLsb' 32 32] ∧ s.team? g.team = some t :=
  ⟨wAt wG, wG, 0, _, ready_wG _, descriptor_of (by decide +kernel), rfl⟩

/-- In trap mode, no general names but h0–h7, of which h0 and h1 hold the address of an image. -/
def gSave (va : Word) : Group := { (gTrap 0xFF).setReg 120 { val := .uniform va, full := true, poison := false } with nG := 0 }
/-- The tags of names that are not allocated at VA 0x1080. -/
def wCached (m : List Cell) (g : Group) : State :=
  { wAt g with mem := m, tlb := [0, 256].map (fun p => { place := p, vf := 0, page := 4096, size := 12, leaf := 16431, leafAddr := 73736, count := 0 }) }
def wImage (g : Group) : State := wCached ((List.range 60).map (fun i => (4224 + i, 0x44))) g

def imageHits : List Hit :=
  (List.range 40).map (fun i => { lane := 0, space := .mem, addr := 4224 + 16 * i, plain := false, leaf := some (4224 + 16 * i, 16431, 12, 73736) })
def hitIs (h : Hit) : LaneTarget → Bool
  | .hit x => decide (x.lane = h.lane ∧ x.space = h.space ∧ x.addr = h.addr ∧ x.plain = h.plain ∧ x.leaf = h.leaf)
  | _ => false
theorem eq_hitIs {t : LaneTarget} {h : Hit} (e : hitIs h t = true) : t = .hit h := by
  cases t with
  | hit x =>
    obtain ⟨_, _, _, _, _⟩ := x
    obtain ⟨_, _, _, _, _⟩ := h
    obtain ⟨rfl, rfl, rfl, rfl, rfl⟩ := of_decide_eq_true e
    rfl
  | _ => exact absurd e Bool.false_ne_true
def hitsAre : List LaneTarget → List Hit → Bool
  | [], [] => true
  | t :: ts, h :: hs => hitIs h t && hitsAre ts hs
  | _, _ => false
theorem eq_listed : ∀ {ts : List LaneTarget} {hs : List Hit}, hitsAre ts hs = true → ts = hs.map .hit
  | [], [], _ => rfl
  | t :: ts, h :: hs, e => by
    simp only [hitsAre, Bool.and_eq_true] at e
    rw [List.map_cons, ← eq_hitIs e.1, ← eq_listed e.2]
  | [], _ :: _, e => absurd e Bool.false_ne_true
  | _ :: _, [], e => absurd e Bool.false_ne_true

theorem imageHits_apart : imageHits.Pairwise (fun x y => x.space ≠ y.space ∨ x.addr + 16 ≤ y.addr ∨ y.addr + 16 ≤ x.addr) :=
  List.pairwise_map.mpr (List.pairwise_lt_range.imp (fun {a b} (h : a < b) => .inr (.inl (show 4224 + 16 * a + 16 ≤ 4224 + 16 * b by omega))))

theorem witness_SystemInstructionsComplete_images :
    ∃ (s t : State) (g : Group) (ws : List Word) (hs : List Hit), Ready s g false (g.nextPc false) ∧
      Descriptor g 120 2 2 ws ∧ g.inTrap = true ∧ dq ws 0 % 128 = 0 ∧ Calm s g ∧ (∀ r ∈ g.regs, r.full = true) ∧ g.producers = [] ∧
      imageTargets s (s.ctx g) (g.pair 120 0) .write (g.imageBytes / 16) = hs.map .hit ∧ (g.slot true).wait = .none ∧
      hs.Pairwise (fun x y => x.space ≠ y.space ∨ x.addr + 16 ≤ y.addr ∨ y.addr + 16 ≤ x.addr) ∧
      imageTargets s (s.ctx g) (g.pair 120 0) .read (g.imageBytes / 16) = hs.map .hit ∧
      g.tagsFit (leNat ((hs.flatMap (fun h => toLe 16 ((s.usedHits (s.ctx g) hs).held h.space h.addr 16))).take 64)) 120 = true ∧
      Ready t g false (g.nextPc false) ∧ imageTargets t (t.ctx g) (g.pair 120 0) .read (g.imageBytes / 16) = hs.map .hit ∧
      g.tagsFit (leNat ((hs.flatMap (fun h => toLe 16 ((t.usedHits (t.ctx g) hs).held h.space h.addr 16))).take 64)) 120 = false :=
  ⟨wImage (gSave 0x1080), wCached [] (gSave 0x1080), gSave 0x1080, [0x1080, 0], imageHits, ready_b (by decide +kernel),
   descriptor_of (by decide +kernel), rfl, by decide, calm_only rfl rfl rfl rfl, by decide +kernel, by decide +kernel,
   eq_listed (by decide +kernel), rfl, imageHits_apart, eq_listed (by decide +kernel), by decide +kernel,
   ready_b (by decide +kernel), eq_listed (by decide +kernel), by decide +kernel⟩

/-! ### Hypotheses of the claims about events of groups and of coherence -/

/-- A load that has not completed, into v9; a trace that has not, without rays; a window with nothing outstanding. -/
def wProducer (k : ProdKind) (fills : List Nat) : Producer :=
  { id := 9, kind := k, inWindow := false, dests := [9], result := [{ name := 9, val := .uniform 5, poison := false }], fills := fills }
def wWindow : Window := Window.fresh wG.checkpoint 0x1000
def gProduces (k : ProdKind) (fills : List Nat) : Group := { wG with producers := [wProducer k fills] }
def lineKey : LineKey := { space := .mem, line := 32 }

theorem witness_GroupEventsFire_group :
    ∃ (g : Group), (wAt g).group? 2 = some g ∧ (∃ b, g.trapB = some b) ∧ (∃ sl k, (g.slot sl).wait = .sleep k) ∧ 1024 ≤ g.runCycles ∧
      0 < g.hostOut :=
  ⟨{ gTrap 0xFF with slotB := { wG.slotB with wait := .sleep 64 }, runCycles := 1024, hostOut := 1 }, rfl, ⟨false, rfl⟩, ⟨true, 64, rfl⟩,
   by decide, by decide⟩

/-- A ray of lane 4 in the ray unit. -/
def wRay (st : RayEnd) : LaneRay := { lane := 4, words := List.replicate 10 0, st := st, parkedOn := none }
def wTraced (st : RayEnd) : Group := { wG with producers := [{ wProducer .trace [] with rays := [wRay st] }] }

theorem witness_GroupEventsFire_producers :
    (∃ (g : Group) (s : State) (p : Producer), s.group? 2 = some g ∧ g.producers.find? (fun p => p.id = 9) = some p ∧
      (∀ m ∈ s.msgs, m.prod ≠ some 9) ∧ (∀ h ∈ s.homeAtoms, h.producer ≠ some 9) ∧ (∀ o ∈ s.tileOps, ∀ ls, o.work ≠ .read 9 ls) ∧
      (∀ w ∈ g.window, ∀ o ∈ w.lateReads, ∀ ls, o.work ≠ .read 9 ls) ∧ g.block ≠ .stopped ∧
      (∀ t, s.team? g.team = some t → t.state ≠ .saving) ∧ g.regs.length = 128 ∧ (p.result.map (·.name)).Nodup ∧ p.kind ≠ .trace ∧
      (∀ y ∈ s.groups, y.window = none) ∧ s.fillsWait g.core (s.ctx g).vf p.fills = false) ∧
    (∀ e ∈ [RayEnd.ended 0 none, .running { ref := some 0, tri := 0, stack := [], tcur := 0, held := none }],
      ∃ (g : Group) (s : State) (p : Producer), s.group? 2 = some g ∧ g.producers.find? (fun p => p.id = 9) = some p ∧
        s.msgs = [] ∧ s.homeAtoms = [] ∧ s.tileOps = [] ∧ g.window = none ∧ g.block ≠ .stopped ∧
        (∀ t, s.team? g.team = some t → t.state ≠ .saving) ∧ g.regs.length = 128 ∧ (p.result.map (·.name)).Nodup ∧
        p.kind = .trace ∧ p.inWindow = false ∧ p.rays = [wRay e] ∧
        (s.raysReady g.core p = [wRay e] ∧ (wRay e).inFlight = true ∨ (wRay e).inFlight = false)) := by
  refine ⟨⟨gProduces .load [32], wAt (gProduces .load [32]), wProducer .load [32], rfl, by decide +kernel, by decide +kernel,
    by decide +kernel, fun o ho => absurd (show o ∈ ([] : List TileOp) from ho) (by simp),
    fun w hw => absurd (show w ∈ (none : Option Window) from hw) (by simp), by decide +kernel,
    ?_, by decide +kernel, by decide, by decide, by decide +kernel, by decide +kernel⟩, ?_⟩
  · intro t ht; cases ht; decide +kernel
  · intro e he
    have hk : e = .ended 0 none ∨ e = .running { ref := some 0, tri := 0, stack := [], tcur := 0, held := none } := by simpa using he
    refine ⟨wTraced e, wAt (wTraced e), { wProducer .trace [] with rays := [wRay e] }, rfl, rfl, rfl, rfl, rfl, rfl,
      show Block.none ≠ .stopped by decide, ?_, rfl, show [9].Nodup by decide, rfl, rfl, rfl, ?_⟩
    · intro t ht; cases ht; decide +kernel
    · rcases hk with rfl | rfl
      · exact .inr rfl
      · exact .inl ⟨by decide +kernel, rfl⟩

/-- A window that holds a sample write. -/
def wSamples : Window := { wWindow with samples := [{ id := 0, depth := 0, rg := 0, ba := 0, key := 1 }] }

theorem witness_GroupEventsFire_windows :
    (∃ (g : Group) (w : Window), (wAt g).group? 2 = some g ∧ g.window = some w ∧ (wAt g).unperformed g = 0 ∧ w.samples = []) ∧
    (∃ (s s1 : State) (g : Group) (st st' : Store) (i j : Nat) (slab : Option (Nat × Nat)), s.group? 2 = some g ∧
      g.window = some wSamples ∧ s.unperformed g = 0 ∧ wSamples.samples ≠ [] ∧ s.ownedStore g.team = some st ∧
      st' = wSamples.samples.foldl Store.write st ∧
      s.placeRecords st (((s.storeFrame st).map (·.desc)).getD 0) (((s.team? g.team).map (·.launch)).getD 0) st'.linesDue =
        .ok s1 i j slab ∧ s1.group? 2 = some g) ∧
    (∃ (g : Group) (w : Window) (a : Nat), (wAt g).group? 2 = some g ∧ g.window = some w ∧ g.homeOut = 0 ∧ g.anchorLimit = some a) ∧
    (∃ (g : Group) (w : Window), (wAt g).group? 2 = some g ∧ g.window = some w ∧ g.homeOut = 0 ∧ ∃ k ∈ w.atoms, k ∉ g.anchors) ∧
    (∃ (g : Group) (k : LineKey) (tk line : Nat), (wAt g).group? 2 = some g ∧ g.block = .anchor k ∧ g.ticket = some tk ∧ k.line = line ∧
      (∀ y ∈ (wAt g).groups, y.id ≠ 2 → (wAt g).anchoredAt y g.core k = false) ∧
      (∀ y ∈ (wAt g).groups, y.id ≠ 2 → (wAt g).asksAnchor y g.core k = true → ∀ u, y.ticket = some u → tk ≤ u)) :=
  ⟨⟨{ wG with window := some wWindow, anchorAt := some 7 }, wWindow, rfl, rfl, by decide +kernel, rfl⟩,
   ⟨wOwned { wG with window := some wSamples }, wOwned { wG with window := some wSamples }, { wG with window := some wSamples }, wStore,
    _, 0, 0, none, rfl, rfl, by decide +kernel, by decide, rfl, rfl, rfl, rfl⟩,
   ⟨{ wG with window := some wWindow, anchorAt := some 7, stuck := true }, wWindow, 4103, rfl, rfl, rfl, rfl⟩,
   ⟨{ wG with window := some { wWindow with atoms := [lineKey] } }, _, rfl, rfl, rfl, lineKey, by decide, by decide +kernel⟩,
   ⟨{ wG with block := .anchor lineKey, ticket := some 4 }, lineKey, 4, 32, rfl, rfl, rfl, rfl, by decide +kernel,
    fun y hy hn => absurd (by rw [List.mem_singleton.mp hy]; rfl) hn⟩⟩

theorem witness_GroupEventsFire_fetch :
    ∃ (s t : State) (g : Group), Issuing s g false ∧ Handled g ∧ (∃ l c, s.fetchPlace g = .cause l c) ∧ Issuing t g false ∧
      ∃ p va, t.fetchPlace g = .park (.page p) va := by
  refine ⟨wAt (wG.setSlot false { wG.slotA with pc := 0x5000 }), wReplay (wG.setSlot false { wG.slotA with pc := 0x5000 }),
    wG.setSlot false { wG.slotA with pc := 0x5000 }, issuing_b (by decide +kernel), ⟨rfl, by decide⟩, ⟨_, .pageFault, eq_cause (by decide +kernel)⟩,
    issuing_b (by decide +kernel), _, _, eq_page (by decide +kernel)⟩

/-- Core 1 asks for a line that core 0 holds. -/
def wRequest (granted received : Bool) (acks : Nat) : OwnReq :=
  { core := 1, line := 32, granted := granted, received := received, acks := acks }
def wInval (acked : Bool) : Inval := { holder := 0, line := 32, requester := 1, acked := acked }
def wAtomic : HomeAtomic := { group := 2, producer := none, op := .add, w64 := false, lanes := [(15, 0x1040, 1, 0)] }
def wMsg (k : MsgKind) : ActiveMsg :=
  { target := 0, slot := 0, group := 2, prod := none, team := 3, base := 0, kind := k, size := 4, lanes := [{ lane := 0, off := 124, v := 1, sv := 0 }] }

theorem witness_CoherenceEventsFire_ownership :
    (∃ (s : State) (o : OwnReq), s.own.find? (fun o => o.core = 1 && o.line = 32 && !o.granted) = some o ∧
      (∀ x ∈ s.own, x.line = 32 → x.granted = true → x.core ≠ 1 ∧ x.received = true)) ∧
    (∃ (s : State), (∃ o ∈ s.own, o.core = 1 ∧ o.line = 32 ∧ o.granted = true ∧ o.received = false) ∧
      s.fillWaits 1 (s.ownerFor 1 32) 32 = false) ∧
    (∃ (s : State) (i : Inval), s.inval.find? (fun i => i.holder = 0 && i.line = 32 && !i.acked) = some i ∧ s.holderDelays 0 32 = []) ∧
    ∃ (s : State) (i : Inval), s.inval.find? (fun i => i.requester = 1 && i.line = 32 && i.acked) = some i :=
  ⟨⟨{ wHeld wG with own := [wRequest false false 0] }, wRequest false false 0, by decide +kernel, by decide +kernel⟩,
   ⟨{ wHeld wG with own := [wRequest true false 1] }, ⟨wRequest true false 1, by decide +kernel, rfl, rfl, rfl, rfl⟩, by decide +kernel⟩,
   ⟨{ wHeld wG with inval := [wInval false] }, wInval false, by decide +kernel, by decide +kernel⟩,
   ⟨{ wHeld wG with inval := [wInval true] }, wInval true, by decide +kernel⟩⟩

theorem witness_CoherenceEventsFire_performed :
    (∃ (s : State) (g : Group) (h : HomeAtomic), s.homeAtoms.find? (fun h => h.group = 2) = some h ∧ h.lanes = [(15, 0x1040, 1, 0)] ∧
      s.locked .mem 0x1040 4 true = false ∧ s.heldOff [lineOf 0x1040] true = false ∧ s.badLine (lineOf 0x1040) = false ∧ s.homeAtoms.Nodup ∧
      s.group? 2 = some g) ∧
    (∀ k ∈ [MsgKind.load false, .store, .atom .add], ∃ (s : State) (m : ActiveMsg) (tm : Team),
      s.msgs.find? (fun m => m.target = 0) = some m ∧ m.kind = k ∧ s.team? m.team = some tm ∧ tm.state = .running ∧
      s.delayed (some m.group) { space := .scratch m.team, line := lineOf m.base } (decide (∀ x, m.kind ≠ .load x)) = false ∧
      (∀ x ∈ m.lanes, s.locked (.scratch m.team) (m.base + x.off) m.size (decide (∀ x, m.kind ≠ .load x)) = false) ∧
      (∃ x, m.lanes = [x]) ∧ (∀ y ∈ s.msgs.erase m, y.group ≠ m.group)) ∧
    ∃ (g : Group), (wAt g).group? 2 = some g ∧ (∃ sl l addr want c, (g.slot sl).wait = .monitor l false addr want c) ∧
      ∀ y ∈ (wAt g).groups, y.window = none := by
  refine ⟨⟨{ wAt wG with homeAtoms := [wAtomic] }, wG, wAtomic, by decide +kernel, rfl, by decide +kernel⟩, ?_,
    { wG with slotB := { wG.slotB with wait := .monitor 32 false 0x1040 0 0 } }, rfl, ⟨true, 32, _, _, _, rfl⟩, by decide +kernel⟩
  intro k hk
  simp only [List.mem_cons, List.not_mem_nil, or_false] at hk
  rcases hk with rfl | rfl | rfl
  · exact ⟨{ wAt wG with msgs := [wMsg (.load false)] }, wMsg (.load false), _, rfl, rfl, rfl, rfl, by decide +kernel,
      by decide +kernel, ⟨_, rfl⟩, by decide +kernel⟩
  · exact ⟨{ wAt wG with msgs := [wMsg .store] }, wMsg .store, _, rfl, rfl, rfl, rfl, by decide +kernel, by decide +kernel,
      ⟨_, rfl⟩, by decide +kernel⟩
  · exact ⟨{ wAt wG with msgs := [wMsg (.atom .add)] }, wMsg (.atom .add), _, rfl, rfl, rfl, rfl, by decide +kernel,
      by decide +kernel, ⟨_, rfl⟩, by decide +kernel⟩

/-! ### Hypotheses of the claims about events of queues and engines -/

/-- Registers of queue 0 of function 0: rings of 16 slots at VA 0x1000, the tail line at VA 0x1400, HEAD 1, a state. -/
def qRegs (ctl st : Word) : List (Nat × Word) := [(0, 0x1000), (8, 0x1000), (0x10, 0x1400), (0x18, ctl), (0x1C, st), (0x2C, 1)]
def wRec (op : RecOp) (result : Option (Nat × Nat)) : SubRecord :=
  { seq := 1, op := op, order := false, started := false, launch := none, addr := 0x1080, value := 0, cond := 0, notify := some 0,
    result := result, doneAt := 0, parkedOn := none, checkAt := none }
def wCtx (recs : List SubRecord) : QueueCtx := { vf := 0, q := 0, tail := 2, records := recs, flush := 0 }
/-- The queue with records accepted, TAIL 2 and bytes of the record at HEAD. -/
def wQueue (ctl st : Word) (recs : List SubRecord) (mid : List Cell) : State :=
  { wAt wG with mem := cells mid [], vfq := qRegs ctl st, queues := [wCtx recs] }

theorem enabled_of {s : State} {vf q : Nat} {x : QueueCtx}
    (h : (decide (s.queue? vf q = some x) && decide ((s.vfq.map (·.1)).Pairwise (· < ·)) && decide (vf ∉ s.stopped) && s.running) = true) :
    Enabled s vf q x := by
  simp only [Bool.and_eq_true, decide_eq_true_eq] at h
  exact ⟨h.1.1.1, h.1.1.2, h.1.2, h.2⟩

theorem witness_QueueEventsFire_enable :
    ∃ (s t : State), (0 : Nat) < 512 ∧ (63 : Nat) < 64 ∧ Rising s.vfq ∧ 0 ∉ s.stopped ∧ s.running = true ∧ s.recovery = false ∧ s.queueState 0 63 = 0 ∧
      s.queue? 0 63 = none ∧ s.enableRefused 0 63 = false ∧ s.monitorMode 0 63 = false ∧
      Rising t.vfq ∧ 0 ∉ t.stopped ∧ t.running = true ∧ t.queueState 0 63 = 0 ∧ t.queue? 0 63 = none ∧ t.enableRefused 0 63 = true :=
  ⟨{ wAt wG with vfq := [(0x40 * 63 + 0x18, 0x84400000)] }, wAt wG, by decide, by decide, by unfold Rising; decide +kernel,
   by decide +kernel, by decide +kernel, by decide +kernel, by decide +kernel, by decide +kernel, by decide +kernel, by decide +kernel,
   by unfold Rising; decide +kernel, by decide +kernel⟩

theorem witness_QueueEventsFire_states :
    ∀ st ∈ [1, 2, 3, 4], ∃ (s : State) (x : QueueCtx), Enabled s 0 0 x ∧ s.queueState 0 0 = st ∧ s.monitorMode 0 0 = false ∧
      15 < s.sqSlots 0 0 ∧ x.records = [] ∧ (∀ l ∈ s.launches, l.q ≠ 0 ∨ st ≠ 3) ∧
      seqNotBefore 0 (s.acked 0 0) = true ∧ seqNotBefore (s.completed 0 0) 0 = true ∧ seqNotBefore (s.completed 0 0) 1 = false := by
  intro st h
  simp only [List.mem_cons, List.not_mem_nil, or_false] at h
  rcases h with rfl | rfl | rfl | rfl
  · exact ⟨wQueue 0x84400000 0x20000000 [] [], wCtx [], enabled_of (by decide +kernel), by decide +kernel, by decide +kernel,
      by decide +kernel, rfl, by decide +kernel, by decide +kernel, by decide +kernel, by decide +kernel⟩
  · exact ⟨wQueue 0x84400000 0x40000000 [] [], wCtx [], enabled_of (by decide +kernel), by decide +kernel, by decide +kernel,
      by decide +kernel, rfl, by decide +kernel, by decide +kernel, by decide +kernel, by decide +kernel⟩
  · exact ⟨{ wQueue 0x84400000 0x60000000 [] [] with launches := [] }, wCtx [], enabled_of (by decide +kernel), by decide +kernel,
      by decide +kernel, by decide +kernel, rfl, by decide +kernel, by decide +kernel, by decide +kernel, by decide +kernel⟩
  · exact ⟨wQueue 0x84400000 0x80000000 [] [], wCtx [], enabled_of (by decide +kernel), by decide +kernel, by decide +kernel,
      by decide +kernel, rfl, by decide +kernel, by decide +kernel, by decide +kernel, by decide +kernel⟩

def readIs (v : Nat) : HubRead → Bool
  | .ok x _ => decide (x = v)
  | _ => false
def readLines : HubRead → List Nat
  | .ok _ ls => ls
  | _ => []
theorem eq_read {r : HubRead} {v : Nat} (h : readIs v r = true) : r = .ok v (readLines r) := by
  cases r <;> first | (have := of_decide_eq_true h; subst this; rfl) | exact absurd h Bool.false_ne_true

def hubPieces : HubWrite → Option (List (Nat × Nat × Bool) × List Nat)
  | .ok ps ws => some (ps, ws)
  | _ => none
theorem eq_hubWrite {r : HubWrite} (h : (hubPieces r).isSome = true) : r = .ok ((hubPieces r).get h).1 ((hubPieces r).get h).2 := by
  cases r <;> first | rfl | exact absurd h Bool.false_ne_true

theorem witness_QueueEventsFire_records :
    (∃ (s : State) (x : QueueCtx) (v : Nat) (ls : List Nat), Enabled s 0 0 x ∧ s.queueState 0 0 = 1 ∧ s.monitorMode 0 0 = true ∧
      s.hubRead 0 (s.queueDev 0 0) (s.qGet64 0 0 0x10 / 128 * 128) 4 = .ok v ls) ∧
    (∃ (s : State) (x : QueueCtx) (r : SubRecord) (st c : Nat) (ps : List (Nat × Nat × Bool)) (ws : List Nat), Enabled s 0 0 x ∧ x.records = [r] ∧
      r.result = some (st, c) ∧ s.queueState 0 0 = 1 ∧ r.seq < 2 ^ 32 ∧
      s.hubWrite 0 (s.queueDev 0 0)
          (s.qGet64 0 0 8 / 4096 * 4096 + 64 * (s.seqIndex 0 0 r.seq % s.cqSlots 0 0)) 64 = .ok ps ws) ∧
    (∀ op ∈ [RecOp.nop, .waitmem], ∃ (s : State) (x : QueueCtx) (r : SubRecord) (v : Nat) (ls : List Nat), Enabled s 0 0 x ∧
      x.records.find? (fun r => r.seq = 1) = some r ∧ r.op = op ∧ r.result = none ∧ r.parkedOn = none ∧ x.lets r = true ∧
      s.queueState 0 0 ≠ 5 ∧ s.hubRead 0 (s.queueDev 0 0) r.addr 8 = .ok v ls) := by
  refine ⟨⟨wQueue 0xC4400000 0x20000000 [] [], wCtx [], 0, _, enabled_of (by decide +kernel), by decide +kernel, by decide +kernel,
      eq_read (by decide +kernel)⟩,
    ⟨wQueue 0x84400000 0x20000000 [wRec .nop (some (0, 0))] [], wCtx [wRec .nop (some (0, 0))], wRec .nop (some (0, 0)), 0, 0,
      _, _, enabled_of (by decide +kernel), rfl, rfl, by decide +kernel, by decide, eq_hubWrite (by decide +kernel)⟩, ?_⟩
  intro op h
  simp only [List.mem_cons, List.not_mem_nil, or_false] at h
  rcases h with rfl | rfl
  · exact ⟨wQueue 0x84400000 0x20000000 [wRec .nop none] [], wCtx [wRec .nop none], wRec .nop none, 0, _,
      enabled_of (by decide +kernel), rfl, rfl, rfl, rfl, by decide +kernel, by decide +kernel, eq_read (by decide +kernel)⟩
  · exact ⟨wQueue 0x84400000 0x20000000 [wRec .waitmem none] [], wCtx [wRec .waitmem none], wRec .waitmem none, 0, _,
      enabled_of (by decide +kernel), rfl, rfl, rfl, rfl, by decide +kernel, by decide +kernel, eq_read (by decide +kernel)⟩

theorem headRecord_of {s : State} {x : QueueCtx} {r : Nat}
    (h : (decide (s.queue? 0 0 = some x) && decide ((s.vfq.map (·.1)).Pairwise (· < ·)) && decide (0 ∉ s.stopped) && s.running &&
      decide (s.queueState 0 0 = 1) && decide (s.head 0 0 ≠ x.tail) && decide (x.flush = 0) &&
      readIs r (s.hubRead 0 (s.queueDev 0 0) (s.qGet64 0 0 0 / 4096 * 4096 + 64 * s.head 0 0) 64)) = true) :
    HeadRecord s 0 0 x r (readLines (s.hubRead 0 (s.queueDev 0 0) (s.qGet64 0 0 0 / 4096 * 4096 + 64 * s.head 0 0) 64)) := by
  simp only [Bool.and_eq_true, decide_eq_true_eq] at h
  obtain ⟨⟨⟨⟨⟨⟨⟨h1, h2⟩, h3⟩, h4⟩, h5⟩, h6⟩, hf⟩, h7⟩ := h
  exact ⟨⟨h1, h2, h3, h4⟩, h5, h6, hf, eq_read h7⟩

def goodB (s : State) (r : Nat) : Bool :=
  decide (bits r 0 32 = (s.accepted 0 0 + 1) % 2 ^ 32) && opKnown (bits r 32 8) && !s.recordBad 0 r &&
    decide ((bits r 0 32 + 2 ^ 32 - s.acked 0 0) % 2 ^ 32 < s.cqSlots 0 0)
theorem good_of {s : State} {r : Nat} (h : goodB s r = true) : GoodRecord s 0 0 r := by
  simp only [goodB, Bool.and_eq_true, decide_eq_true_eq, Bool.not_eq_true'] at h
  exact ⟨h.1.1.1, h.1.1.2, h.1.2, h.2⟩

/-- The record at HEAD: its SEQ and OP, the rest zero. -/
def wHead (seq op : Byte) : State := wQueue 0x84400000 0x20000000 [] [(4160, seq), (4164, op)]

theorem witness_QueueEventsFire_head :
    (∃ r ls, HeadRecord (wHead 2 5) 0 0 (wCtx []) r ls ∧ bits r 0 32 ≠ ((wHead 2 5).accepted 0 0 + 1) % 2 ^ 32) ∧
    (∃ r ls, HeadRecord (wHead 1 9) 0 0 (wCtx []) r ls ∧ bits r 0 32 = ((wHead 1 9).accepted 0 0 + 1) % 2 ^ 32 ∧
      opKnown (bits r 32 8) = false) ∧
    (∃ r ls, HeadRecord (wHead 1 1) 0 0 (wCtx []) r ls ∧ GoodRecord (wHead 1 1) 0 0 r ∧ bits r 32 8 = 1) ∧
    (∃ r ls, HeadRecord (wHead 1 2) 0 0 (wCtx []) r ls ∧ GoodRecord (wHead 1 2) 0 0 r ∧ bits r 32 8 = 2) ∧
    (∃ r ls, HeadRecord (wHead 1 3) 0 0 (wCtx []) r ls ∧ GoodRecord (wHead 1 3) 0 0 r ∧ bits r 32 8 = 3) ∧
    (∃ r ls, HeadRecord (wHead 1 4) 0 0 (wCtx []) r ls ∧ GoodRecord (wHead 1 4) 0 0 r ∧ bits r 32 8 = 4) ∧
    ∃ r ls, HeadRecord (wHead 1 5) 0 0 (wCtx []) r ls ∧ GoodRecord (wHead 1 5) 0 0 r ∧ bits r 32 8 = 5 ∧
      (∀ y ∈ (wCtx []).records, y.seq ≠ bits r 0 32) :=
  ⟨⟨2 + 5 * 2 ^ 32, _, headRecord_of (by decide +kernel), by decide +kernel⟩,
   ⟨1 + 9 * 2 ^ 32, _, headRecord_of (by decide +kernel), by decide +kernel, by decide⟩,
   ⟨1 + 1 * 2 ^ 32, _, headRecord_of (by decide +kernel), good_of (by decide +kernel), by decide⟩,
   ⟨1 + 2 * 2 ^ 32, _, headRecord_of (by decide +kernel), good_of (by decide +kernel), by decide⟩,
   ⟨1 + 3 * 2 ^ 32, _, headRecord_of (by decide +kernel), good_of (by decide +kernel), by decide⟩,
   ⟨1 + 4 * 2 ^ 32, _, headRecord_of (by decide +kernel), good_of (by decide +kernel), by decide⟩,
   ⟨1 + 5 * 2 ^ 32, _, headRecord_of (by decide +kernel), good_of (by decide +kernel), by decide, by decide⟩⟩

theorem witness_QueueEventsFire_launch :
    ∃ (s : State) (l : Launch) (c : QueueCtx), s.launch? 1 = some l ∧ s.launchDone l = true ∧ l.enq = false ∧ l.aborted = false ∧
      s.queue? l.vf l.q = some c ∧ s.mgmt.alarmed = false ∧ Rising s.vfq ∧
      (∀ x ∈ s.queues, ∀ r ∈ x.records, s.watchedLine x.vf x.q r ≠ some 32) ∧ s.heldOff [32] false = false :=
  ⟨{ wQueue 0x84400000 0x20000000 [] [] with teams := [], groups := [] }, _, _, rfl, by decide +kernel, rfl, rfl, rfl, rfl,
   by unfold Rising; decide +kernel, by decide +kernel⟩

/-- An operation of the team. -/
def wOp (kind : OpKind) (st : OpState) (ws : List Word) : EngineOp :=
  { id := 8, launch := 1, team := 3, group := 0, core := 0, kind := kind, word := 0, operands := ws, lanes := [], progress := 0,
    state := st, leave := false, parkedOn := none }
def wOps (o : EngineOp) : State := { wOwned wG with ops := [o] }
/-- A copy of 4 bytes between scratchpad offsets 0 and 64. -/
def copyWords : List Word := [0, 0, 64, 0, 4, 0x60000]


def gotRes {α : Type} : OpRes α → Option (State × α)
  | .ok s x => some (s, x)
  | _ => none
theorem eq_got {α : Type} {r : OpRes α} (h : (gotRes r).isSome = true) : r = .ok ((gotRes r).get h).1 ((gotRes r).get h).2 := by
  cases r <;> first | rfl | exact absurd h Bool.false_ne_true
theorem eq_gotPair {α β : Type} {r : OpRes (α × β)} (h : (gotRes r).isSome = true) :
    r = .ok ((gotRes r).get h).1 (((gotRes r).get h).2.1, ((gotRes r).get h).2.2) := eq_got h
def gotSome {α : Type} : OpRes (Option α) → Option (State × α)
  | .ok s (some x) => some (s, x)
  | _ => none
theorem eq_gotSome {α : Type} {r : OpRes (Option α)} (h : (gotSome r).isSome = true) :
    r = .ok ((gotSome r).get h).1 (some ((gotSome r).get h).2) := by
  cases r with
  | ok s x => cases x <;> first | rfl | exact absurd h Bool.false_ne_true
  | _ => exact absurd h Bool.false_ne_true
def gotNone {α : Type} : OpRes (Option α) → Option State
  | .ok s none => some s
  | _ => none
theorem eq_gotNone {α : Type} {r : OpRes (Option α)} (h : (gotNone r).isSome = true) : r = .ok ((gotNone r).get h) none := by
  cases r with
  | ok s x => cases x <;> first | rfl | exact absurd h Bool.false_ne_true
  | _ => exact absurd h Bool.false_ne_true
theorem eq_locks {r : List RangeLock × List (Parked × Nat × Bool)} (h : r.2 = []) : r = (r.1, []) := Prod.ext rfl h

theorem witness_EngineEventsFire_tiles :
    ∀ w ∈ [TileWork.write [(0, 5)], .convert 0 .int32 0], ∃ (s : State) (t : TileOp) (m : Team), s.op? 8 = none ∧
      s.tileOps.find? (fun t => t.id = 8) = some t ∧ s.tileTurn t = true ∧ s.team? t.team = some m ∧ t.work = w := by
  intro w h
  simp only [List.mem_cons, List.not_mem_nil, or_false] at h
  rcases h with rfl | rfl <;>
    exact ⟨{ wAt wG with tileOps := [{ id := 8, team := 3, group := 2, tile := 1, work := _, after := [] }] }, _, _, rfl, rfl,
      by decide +kernel, rfl, rfl⟩

theorem witness_EngineEventsFire_starts :
    (∃ (s : State) (o : EngineOp), s.op? 8 = some o ∧ o.kind.path = .matrix ∧ o.state = .queued ∧ s.shadowed o = false ∧
      s.behindTile o = false ∧ o.kind = .mloop ∧ 64 < (mmaArgs o.operands).k ∧ o.leave = false ∧ s.waitsFor o = false ∧
      (∀ l ∈ s.leaves, l.who ≠ .op 8)) ∧
    ∃ (s : State) (o : EngineOp) (ls new : List RangeLock), s.op? 8 = some o ∧ o.kind.path = .copy ∧ o.state = .queued ∧
      s.shadowed o = false ∧ s.behindTile o = false ∧
      (s.ops.filter (fun x => x.core = o.core && x.kind.path = .copy && x.state = .running)).length < 32 ∧ o.kind ≠ .mloop ∧
      s.allLocks o = (ls, []) ∧ new = ls.filter (fun l => !s.locks.contains l) ∧ (∀ a ∈ new, ∀ b ∈ s.locks, a.clash b = false) ∧
      (∀ h, h < 5 → tableEntries (s.locks ++ new) h ≤ 256) ∧ (∀ k ∈ lockKeys new, s.delayed none k true = false) ∧
      s.heldOff ((o.ranges.filter (fun r => !r.scratch)).flatMap (fun r =>
        s.walkLines (some (o.core / 64)) (s.opVf o) r.a r.n)) false = false :=
  ⟨⟨wOps (wOp .mloop .queued [0, 0, 0, 0, 4160]), _, rfl, rfl, rfl, by decide +kernel, by decide +kernel, rfl, by decide, rfl,
    by decide +kernel, by decide +kernel⟩,
   wOps (wOp .copy .queued copyWords), _, _, _, rfl, rfl, rfl, by decide +kernel, by decide +kernel, by decide +kernel, by decide,
   eq_locks (by decide +kernel), rfl, by decide +kernel, by decide +kernel, by decide +kernel, by decide +kernel⟩

/-- A multiplication of one product, both operands in the scratchpad. -/
def mmaWords : List Word := [0, 0, 64, 0, 0xC00040, 0, 0, 0, 0, 0]

theorem witness_EngineEventsFire_singlePoint :
    (∃ (s : State) (o : EngineOp) (bs : List (Space × Nat × Byte)), s.op? 8 = some o ∧ s.waitsFor o = false ∧ o.kind = .copy ∧
      o.state = .running ∧ o.hostDue = [] ∧ (copyArgs (decide (o.kind = .copyt)) o.operands).ssp = true ∧
      (copyArgs (decide (o.kind = .copyt)) o.operands).dsp = true ∧
      s.copyBytes o (copyArgs (decide (o.kind = .copyt)) o.operands) = (bs, none) ∧
      (copyArgs (decide (o.kind = .copyt)) o.operands).notify = false) ∧
    (∃ (s : State) (o : EngineOp) (t u : Team), s.op? 8 = some o ∧ s.waitsFor o = false ∧ o.kind = .mma ∧ o.state = .running ∧
      s.team? o.team = some t ∧ s.hostNext o = none ∧ o.hostDue = [] ∧ o.hostSeen = [] ∧ s.symErrs = [] ∧
      (mmaArgs o.operands).blocks = 1 ∧
      s.mmaBlocks o (mmaArgs o.operands) ((mmaArgs o.operands).blocks - o.progress) o.progress t = (u, none)) ∧
    (∃ (s u : State) (o : EngineOp) (l : Launch) (ps : List (Nat × Nat × Bool)) (r : Nat), s.op? 8 = some o ∧ s.waitsFor o = false ∧
      o.kind = .enq ∧ o.state = .queued ∧ s.launch? o.launch = some l ∧ l.aborted = false ∧ dq o.operands 0 % 64 = 0 ∧
      s.opTouch o .read (dq o.operands 0) 64 = .ok u ps ∧ r = leNat (u.readPieces ps) ∧ bits r 32 8 = 1 ∧
      s.launchBad l.vf r = false) ∧
    (∃ (s : State) (o : EngineOp), s.op? 8 = some o ∧ s.waitsFor o = false ∧ o.kind = .regroup ∧ o.state = .queued ∧
      s.launch? o.launch = none) ∧
    ∃ (s t : State) (o : EngineOp) (l : Launch), s.op? 8 = some o ∧ s.waitsFor o = false ∧ o.kind = .regroup ∧ o.state = .queued ∧
      s.launch? o.launch = some l ∧ s.fillRows o l 65 o.lanes = (t, [], none) :=
  ⟨⟨wOps (wOp .copy .running copyWords), _, _, rfl, by decide +kernel, rfl, rfl, rfl, by decide +kernel, by decide +kernel,
    Prod.ext rfl (by decide +kernel), by decide +kernel⟩,
   ⟨wOps (wOp .mma .running mmaWords), _, _, _, rfl, by decide +kernel, rfl, rfl, rfl, by decide +kernel, rfl, rfl, rfl,
    by decide +kernel, Prod.ext rfl (by decide +kernel)⟩,
   ⟨{ wOps (wOp .enq .queued [0x1080, 0]) with mem := cells [(4228, 1)] [] }, _, _, _, _, _, rfl, by decide +kernel,
    rfl, rfl, rfl, rfl, by decide, eq_got (by decide +kernel), rfl, by decide +kernel, by decide +kernel⟩,
   ⟨{ wOps (wOp .regroup .queued []) with launches := [] }, _, rfl, by decide +kernel, rfl, rfl, rfl⟩,
   wOps (wOp .regroup .queued []), _, _, _, rfl, by decide +kernel, rfl, rfl, rfl, rfl⟩

/-- A `bin`, a `dice` or a `resolve` on the frame, the patch or the filter at VA 0x1080; the frame OPEN, the patch's bytes. -/
def wBin (o : EngineOp) (mid : List Cell) : State :=
  { wOps o with mem := cells mid [], frames := [{ wFrame with st := .opened }] }
/-- Control points outside the screen: X of each is 1,000,000 and Z is 2; and points at its corner. -/
def farPoints : List Cell :=
  [(4256, 0x00), (4257, 0x24), (4258, 0x74), (4259, 0x49), (4267, 0x40), (4269, 0x24), (4270, 0x74), (4271, 0x49), (4279, 0x40),
   (4281, 0x24), (4282, 0x74), (4283, 0x49), (4291, 0x40), (4293, 0x24), (4294, 0x74), (4295, 0x49), (4303, 0x40)]
def nearPoints : List Cell := [(4267, 0x40), (4279, 0x40), (4291, 0x40), (4303, 0x40)]

theorem witness_EngineEventsFire_bin :
    (∀ far ∈ [true, false], ∃ (s u : State) (o : EngineOp) (f : Frame) (p : Patch) (x : List Nat), s.op? 8 = some o ∧
      s.waitsFor o = false ∧ o.kind = .bin ∧ o.state = .queued ∧ s.binFrame o = some f ∧ o.lanes = [] ∧ f.takesBin 8 = true ∧
      s.readPatch o (dq o.operands 0) = .ok u (some p) ∧ x = (screenBound f.desc p.dbound (p.opn ++ p.cls)).indices f.desc ∧
      (x = [] ↔ far = true)) ∧
    ∀ is ∈ [[0], [0, 0]], ∃ (s u : State) (o : EngineOp) (f : Frame) (i : Word), s.op? 8 = some o ∧
      o.kind = .bin ∧ o.state = .running ∧ s.binFrame o = some f ∧ o.lanes = [is] ∧ is[o.progress]? = some i ∧
      s.append o f.desc i.toNat (dq o.operands 0) = .ok u none := by
  constructor
  · intro far h
    simp only [List.mem_cons, List.not_mem_nil, or_false] at h
    rcases h with rfl | rfl
    · exact ⟨wBin (wOp .bin .queued [0x1080, 0, 0]) farPoints, _, _, _, _, _, rfl, by decide +kernel, rfl, rfl, rfl, rfl,
        by decide +kernel, eq_gotSome (by decide +kernel), rfl, by decide +kernel⟩
    · exact ⟨wBin (wOp .bin .queued [0x1080, 0, 0]) nearPoints, _, _, _, _, _, rfl, by decide +kernel, rfl, rfl, rfl, rfl,
        by decide +kernel, eq_gotSome (by decide +kernel), rfl, by decide +kernel⟩
  · intro is h
    simp only [List.mem_cons, List.not_mem_nil, or_false] at h
    rcases h with rfl | rfl
    · exact ⟨wBin { wOp .bin .running [0x1080, 0, 0] with lanes := [[0]] } [(4356, 9)], _, _, _, 0, rfl, rfl, rfl, rfl, rfl, rfl,
        eq_gotNone (by decide +kernel)⟩
    · exact ⟨wBin { wOp .bin .running [0x1080, 0, 0] with lanes := [[0, 0]] } [(4356, 9)], _, _, _, 0, rfl, rfl, rfl, rfl, rfl, rfl,
        eq_gotNone (by decide +kernel)⟩

def resolved : Performed → Option State
  | .done s => some s
  | _ => none
theorem eq_done {r : Performed} (h : (resolved r).isSome = true) : r = .done ((resolved r).getD wS) := by
  cases r <;> first | rfl | exact absurd h Bool.false_ne_true

/-- The operands of a `resolve` of a frame of one pixel to VA 0x1000 with its filter record at VA 0x1800, whose radius is 0.5 and first weight 1. -/
def resolveWords : List Word := [0x1000, 0, 128, 0, 0x1800, 0]
def wResolve (st : OpState) : State :=
  { wOps (wOp .resolve st resolveWords) with
    mem := cells [(6144, 64), (6150, 0x80), (6151, 0x3F)] [], frames := [{ wFrame with desc := wDesc - 0x3C00F }] }

theorem witness_EngineEventsFire_resolve :
    (∃ (s u v : State) (o : EngineOp) (x : Store) (f : Frame) (radius : Nat) (ws : List Nat) (locks : List RangeLock),
      s.op? 8 = some o ∧ s.waitsFor o = false ∧ o.kind = .resolve ∧ o.state = .queued ∧ o.lanes = [] ∧
      (∀ y ∈ s.groups, y.window = none) ∧
      s.stores.find? (fun x => x.team = o.team && (x.resolving.isNone || x.resolving = some 8)) = some x ∧ s.storeFrame x = some f ∧
      (s.setStore { x with resolving := some 8 }).readFilter o = .ok u (radius, ws) ∧
      v = u.setOp { o with lanes := [BitVec.ofNat 32 radius :: ws.map (BitVec.ofNat 32)] } ∧
      v.resolveLocks { o with lanes := [BitVec.ofNat 32 radius :: ws.map (BitVec.ofNat 32)] } x f.desc = (locks, []) ∧
      s.locks = [] ∧ v.mayLock locks = true) ∧
    ∃ (s : State) (o : EngineOp) (x : Store) (f : Frame) (radius : Word) (ws : List Word) (t : State), s.op? 8 = some o ∧
      o.kind = .resolve ∧ o.state = .running ∧ s.stores.find? (fun x => x.resolving = some 8) = some x ∧ s.storeFrame x = some f ∧
      o.lanes = [radius :: ws] ∧ o.hostDue = [] ∧ x.parkedOn = none ∧
      s.resolveRows o x f.desc radius.toNat (ws.map (·.toNat)) = .done t :=
  ⟨⟨wResolve .queued, _, _, wOp .resolve .queued resolveWords, wStore, { wFrame with desc := wDesc - 0x3C00F }, _, _, _, rfl,
    by decide +kernel, rfl, rfl, rfl, by decide +kernel, rfl, rfl, eq_gotPair (by decide +kernel), rfl, eq_locks (by decide +kernel), rfl,
    by decide +kernel⟩,
   { wResolve .running with
     stores := [{ wStore with resolving := some 8 }], ops := [{ wOp .resolve .running resolveWords with lanes := [[64, 0x3F800000]] }] },
   { wOp .resolve .running resolveWords with lanes := [[64, 0x3F800000]] }, { wStore with resolving := some 8 },
   { wFrame with desc := wDesc - 0x3C00F }, 64, _, _, rfl, rfl, rfl, rfl, rfl, rfl, rfl, rfl, eq_done (by decide +kernel)⟩

def diceIs : DiceRes → Option (Nat × Nat × Nat × Nat)
  | .emit k nu nv next => some (k, nu, nv, next)
  | _ => none
theorem eq_emit {r : DiceRes} {k nu nv next : Nat} (h : diceIs r = some (k, nu, nv, next)) : r = .emit k nu nv next := by
  cases r with
  | emit a b c d => simp only [diceIs, Option.some.injEq, Prod.mk.injEq] at h; obtain ⟨rfl, rfl, rfl, rfl⟩ := h; rfl
  | _ => exact absurd h (by simp [diceIs])

theorem witness_EngineEventsFire_dice :
    (∃ (s : State) (o : EngineOp) (rest : List EngineOp), s.op? 8 = some o ∧ s.dicesAt 0 0 = o :: rest ∧ o.state ≠ .parked ∧
      o.leave = false ∧ (∀ l ∈ s.leaves, l.who ≠ .op o.id)) ∧
    (∃ (s u : State) (o : EngineOp) (rest : List EngineOp) (x : Store) (f : Frame) (p : Patch) (next : Nat),
      s.op? 8 = some o ∧ s.dicesAt 0 0 = o :: rest ∧ o.state ≠ .parked ∧ o.leave = true ∧
      s.stores.find? (fun x => x.team = o.team) = some x ∧ s.storeFrame x = some f ∧
      s.readPatch o (dq o.operands 0) = .ok u (some p) ∧
      ({ d := f.desc, patch := p } : Dicer).run x.bx x.by_ 34 (dw o.operands 2) = .none next) ∧
    (∃ (s u : State) (o : EngineOp) (rest : List EngineOp) (x : Store) (f : Frame) (p : Patch) (k nu nv next place : Nat),
      s.op? 8 = some o ∧ s.dicesAt 0 0 = o :: rest ∧ o.state ≠ .parked ∧ o.leave = true ∧
      s.stores.find? (fun x => x.team = o.team) = some x ∧ s.storeFrame x = some f ∧
      s.readPatch o (dq o.operands 0) = .ok u (some p) ∧
      ({ d := f.desc, patch := p } : Dicer).run x.bx x.by_ 34 (dw o.operands 2) = .emit k nu nv next ∧ x.freePlace = some place ∧
      gridLines nu nv ≤ x.freeLines f.desc) ∧
    ∃ (s v : State) (o : EngineOp) (f : Frame), s.op? 8 = some o ∧ s.dropIn o (fdSpillHdr f.desc) = .ok v () :=
  ⟨⟨wBin (wOp .dice .queued [0x1080, 0, 1, 0]) [], _, _, rfl, rfl, by decide, rfl, by decide +kernel⟩,
   ⟨wBin { wOp .dice .queued [0x1080, 0, 0, 0] with leave := true } nearPoints, _, _, _, _, _, _, 0, rfl, rfl, by decide, rfl, rfl,
    rfl, eq_gotSome (by decide +kernel), by decide +kernel⟩,
   ⟨wBin { wOp .dice .queued [0x1080, 0, 1, 0] with leave := true } nearPoints, _, _, _, _, _, _, 1, 1, 1, 0, 1, rfl, rfl, by decide, rfl,
    rfl, rfl, eq_gotSome (by decide +kernel), eq_emit (by decide +kernel), by decide +kernel, by decide +kernel⟩,
   wBin { wOp .dice .queued [0x1080, 0, 1, 0] with leave := true } nearPoints, _, _, wFrame, rfl, eq_got (by decide +kernel)⟩

theorem witness_EngineEventsFire_returns :
    (∃ (s : State) (o : EngineOp) (a l : Nat), s.op? 8 = some o ∧ o.state = .parked ∧ o.parkedOn = some (.pool a l none) ∧
      l ≠ s.readNat (a + 4) 4) ∧
    (∃ (s : State) (o : EngineOp) (a l c : Nat), s.op? 8 = some o ∧ o.state = .parked ∧ o.parkedOn = some (.pool a l (some c)) ∧
      (∀ y ∈ s.groups, y.window = none) ∧ (∀ y ∈ s.ops, y ≠ o → ∀ l c, y.parkedOn ≠ some (.pool a l c)) ∧
      ∀ y ∈ s.stores, y.parkedOn = none) ∧
    ∃ (s : State) (o : EngineOp) (x : Store), s.op? 8 = some o ∧ s.stores.find? (fun x => x.team = o.team && x.resolving.isNone) = some x ∧
      x.parkedOn = none ∧ s.team? o.team = none ∧ (∀ y ∈ s.ops, y.team = o.team → y.kind ≠ .dice ∧ y.kind ≠ .resolve) :=
  ⟨⟨wBin { wOp .bin .parked [0x1080, 0, 0] with parkedOn := some (.pool 4352 7 none) } [], _, _, _, rfl, rfl, rfl, by decide +kernel⟩,
   ⟨wBin { wOp .bin .parked [0x1080, 0, 0] with parkedOn := some (.pool 4352 7 (some 0)) } [], _, _, _, _, rfl, rfl, rfl,
    by decide +kernel, fun y hy hn => absurd (List.mem_singleton.mp hy) hn, by decide +kernel⟩,
   { wBin (wOp .copy .stopped []) [] with teams := [] }, _, _, rfl, rfl, rfl, rfl, by decide +kernel⟩

/-! ### Hypotheses of the claims about events of distributors, launches and teams -/

/-- The frame with deques on dies 0 and 1. -/
def wDeque (d : Nat) (bs : List Nat) (steal : Option Nat) (stolen : Option (List Nat)) : Deque :=
  { die := d, buckets := bs, known := [(1 - d, 2)], excluded := [], steal := steal, stolen := stolen, asks := [] }
def wSteals (qs : List Deque) : State :=
  { wOwned wG with frames := [{ wFrame with buckets := [.owned 3, .dealt, .dealt], deques := qs, counts := [{ src := 1, dst := 0, count := 0 }] }] }

theorem witness_DistributorEventsFire :
    (∃ (s : State) (f : Frame) (ids : List Nat), s.frame? 0 0 0 = some f ∧ f.sealing = some ids ∧ (∀ i ∈ ids, s.op? i = none)) ∧
    (∃ (s : State) (x : Store) (f : Frame) (tm : Team), s.stores.find? (fun y => y.team = x.team && y.resolving.isNone) = some x ∧
      x.parkedOn = none ∧ s.team? x.team = some tm ∧ tm.state = .ended ∧
      (∀ y ∈ s.ops, y.team = x.team → y.kind ≠ .dice ∧ y.kind ≠ .resolve) ∧
      s.storeFrame x = some f ∧ (∀ q ∈ f.deques, q.claims = []) ∧ (∃ q ∈ f.deques, q.die = x.core / 64)) ∧
    (∃ (s : State) (f : Frame) (c : CountMsg), s.frames.find? (fun f => f.counts.any (fun c => c.dst = 0 && c.src = 1)) = some f ∧
      f.counts.find? (fun c => c.dst = 0 && c.src = 1) = some c) ∧
    (∀ bs ∈ [[], [1, 2]], ∃ (s : State) (f : Frame) (v : Deque), s.frames.findSome? (fun f => (f.deques.find? (fun q => q.die = 1 &&
        q.thief.isSome)).map (fun q => (f, q))) = some (f, v) ∧ v.thief = some 0 ∧ v.buckets = bs) ∧
    ∀ got ∈ [[], [2]], ∃ (s : State) (f : Frame) (q : Deque), s.frames.findSome? (fun f => (f.deques.find? (fun q => q.die = 0 &&
        q.stolen.isSome)).map (fun q => (f, q))) = some (f, q) ∧ q.stolen = some got ∧ q.steal = some 1 ∧ 1 ∉ q.excluded := by
  refine ⟨⟨{ wBin (wOp .copy .queued []) [] with frames := [{ wFrame with st := .opened, sealing := some [9] }] }, _, _, rfl, rfl,
      by decide +kernel⟩,
    ⟨{ wSteals [wDeque 0 [1, 2] none none] with teams := wS.teams.map (fun t => { t with state := .ended }) }, wStore, _, _, rfl, rfl, rfl,
      rfl, by decide +kernel, rfl, by decide +kernel, by decide +kernel⟩,
    ⟨wSteals [wDeque 0 [1, 2] none none, wDeque 1 [] none none], _, _, rfl, rfl⟩, ?_, ?_⟩
  · intro bs _
    exact ⟨wSteals [wDeque 0 [] (some 1) none, { wDeque 1 bs none none with asks := [.steal 0] }], _, _, rfl, rfl, rfl⟩
  intro got h
  simp only [List.mem_cons, List.not_mem_nil, or_false] at h
  rcases h with rfl | rfl
  · exact ⟨wSteals [wDeque 0 [] (some 1) (some []), wDeque 1 [1, 2] none none], _, _, rfl, rfl, rfl, by decide +kernel⟩
  · exact ⟨wSteals [wDeque 0 [] (some 1) (some [2]), wDeque 1 [1] none none], _, _, rfl, rfl, rfl, by decide +kernel⟩

/-- One more launch, number 5, with a kernel. -/
def wLaunch (k : Kernel) (prio : Nat) (since : Option Nat) : Launch :=
  { Launch.single with id := 5, prio := prio, kernel := k, next := 0, waitSince := since }
/-- A kernel that fits no core, and one that needs a whole pair. -/
def kHuge : Kernel := { Kernel.single with scratch := 5000 }
def kPair : Kernel := { Kernel.single with pair := true, scratch := 8000 }

theorem witness_LaunchEventsFire_placement :
    (∃ (s : State) (l : Launch) (core : Nat) (cs : List Nat), s.launch? 5 = some l ∧ l.aborted = false ∧ l.kdesc = none ∧
      s.argsHeld 5 = none ∧ s.waiters.contains (.fresh l) = true ∧ s.turnOf (.fresh l) = some (core, cs) ∧ l.kernel.argn = 0 ∧
      s.team? s.nextId = none) ∧
    ∃ (s : State) (l : Launch) (w : Nat), s.launch? 5 = some l ∧ l.waitSince = some w ∧
      s.waiters.filter (fun x => decide (x.launch = 5)) = [.fresh l] ∧ s.resvWait ≠ 0 ∧
      ({ s with cycle := max s.cycle (w + 256 * s.resvWait) } : State).wantsCore (.fresh l) = true ∧
      ({ s with cycle := max s.cycle (w + 256 * s.resvWait) } : State).reservable (.fresh l) ≠ [] :=
  ⟨⟨{ wAt wG with launches := [Launch.single, wLaunch Kernel.single 0 none] }, _, 1, [0], rfl, rfl, rfl, by decide +kernel,
      by decide +kernel, by decide +kernel, rfl, by decide +kernel⟩,
    { wAt wG with launches := [Launch.single, wLaunch kHuge 0 (some 0)] }, wLaunch kHuge 0 (some 0), 0, rfl, rfl, by decide +kernel,
    by decide +kernel, by decide +kernel, by decide +kernel⟩

/-- A row of the first queue of launch 1, complete; the queue, and the launch with it. -/
def wRow : Row := { launch := 1, die := 0, queue := 0, index := 0, born := 0, filled := 0xFFFF, aged := false }
def wPQueue : PQueue := { kernel := Kernel.single, rows := 0x1000, nrows := 8, pay := 1, age := 4 }
def wQLaunch : Launch := { Launch.single with queues := [wPQueue] }
def wRows (r : Row) : State := { wAt wG with launches := [wQLaunch], rows := [r] }
/-- A row that is not complete, of a pipeline that drains. -/
def wOpenRow : Row := { wRow with filled := 0xFF }
def wDrains : State := { wRows wOpenRow with teams := [], groups := [] }

theorem witness_LaunchEventsFire_rows :
    (∃ (s : State) (core c x : Nat) (lines : List Nat), s.launch? 1 = some wQLaunch ∧ s.oldestRow wQLaunch 0 0 = some (wPQueue, wRow) ∧
      s.turnOf (.row wQLaunch 0 wPQueue.kernel) = some (core, [c]) ∧
      s.hubRead wQLaunch.vf wQLaunch.dev (s.rowVa wQLaunch wPQueue wRow) (4 * wPQueue.pay * wPQueue.kernel.width) = .ok x lines ∧
      s.team? s.nextId = none ∧ s.queueToLaunch wQLaunch 0 = some 0) ∧
    (∃ (s : State) (core c x : Nat) (lines : List Nat), s.launch? 1 = some wQLaunch ∧
      s.oldestRow wQLaunch 0 0 = some (wPQueue, wOpenRow) ∧ s.turnOf (.row wQLaunch 0 wPQueue.kernel) = some (core, [c]) ∧
      s.hubRead wQLaunch.vf wQLaunch.dev (s.rowVa wQLaunch wPQueue wOpenRow) (4 * wPQueue.pay * wPQueue.kernel.width) = .ok x lines ∧
      s.team? s.nextId = none ∧ s.drained wQLaunch = true ∧
      (∀ d ∈ diesOf (s.pmode wQLaunch.vf) wQLaunch.dev, s.queueToLaunch wQLaunch d = none) ∧
      ∃ pre post, diesOf (s.pmode wQLaunch.vf) wQLaunch.dev = pre ++ 0 :: post ∧ pre = []) ∧
    (wQLaunch.aborted = false ∧ wPQueue.kernel.argn = 0 ∧ wPQueue.pay ≤ 32 ∧ wPQueue.kernel.groups = 1 ∧ wPQueue.kernel.pair = false) ∧
    ∃ (s : State), s.launch? 1 = some wQLaunch ∧ wQLaunch.queues[0]? = some wPQueue ∧ s.rowsOf 1 0 0 = [wRow] ∧ wPQueue.age ≠ 0 ∧
      wRow.aged = false :=
  ⟨⟨wRows wRow, 1, 0, 0x1000000, _, rfl, by decide +kernel, by decide +kernel, eq_read (by decide +kernel), by decide +kernel,
      by decide +kernel⟩,
   ⟨wDrains, 0, 0, 0x1000000, _, rfl, by decide +kernel, by decide +kernel, eq_read (by decide +kernel), by decide +kernel,
      by decide +kernel, by decide +kernel, [], _, rfl, rfl⟩,
   ⟨rfl, rfl, by decide, rfl, rfl⟩, wRows wRow, rfl, rfl, rfl, by decide, rfl⟩

/-- A decrement of slot 3 of function 0, which has the first 64 slots. -/
def wTask (k n : Nat) (ts : List TaskSlot) (st : LaunchState) : State :=
  { wAt wG with
    pf := [(devstat, 0x80000000), (0x100000, 0xC0000001), (0x110000, 1)], tasks := ts, decs := [{ vf := 0, k := k, n := n, op := none }]
    launches := [{ Launch.single with state := st }] }

theorem witness_LaunchEventsFire_tasks :
    (∃ (s : State) (d : TaskDec), s.decs = [d] ∧ d.op = none ∧ s.taskCount d.vf ≤ d.k ∧ (s.launch? 1).isSome) ∧
    (∃ (s : State) (d : TaskDec), s.decs = [d] ∧ d.op = none ∧ d.k < s.taskCount d.vf ∧
      (s.taskSlot (s.taskBase d.vf + d.k)).held = none ∧ 0 < d.n ∧ (s.launch? 1).isSome) ∧
    (∃ (s : State) (d : TaskDec), s.decs = [d] ∧ d.op = none ∧ d.k < s.taskCount d.vf ∧
      (s.taskSlot (s.taskBase d.vf + d.k)).held = some 1 ∧ d.n < (s.taskSlot (s.taskBase d.vf + d.k)).c ∧ (s.launch? 1).isSome) ∧
    ∃ (s : State) (d : TaskDec) (l : Launch), s.decs = [d] ∧ d.op = none ∧ s.launch? 1 = some l ∧ d.k < s.taskCount d.vf ∧
      (s.taskSlot (s.taskBase d.vf + d.k)).held = some 1 ∧ (s.taskSlot (s.taskBase d.vf + d.k)).c ≤ d.n ∧ l.state = .waiting ∧
      l.started = true ∧ l.kdesc = none ∧ l.kernel.invalid = false :=
  ⟨⟨wTask 64 1 [] .ready, _, rfl, rfl, by decide +kernel, rfl⟩,
   ⟨wTask 63 1 [] .ready, _, rfl, rfl, by decide +kernel, by decide +kernel, by decide, rfl⟩,
   ⟨wTask 63 1 [{ k := 63, c := 2, e := 0, held := some 1 }] .waiting, _, rfl, rfl, by decide +kernel, by decide +kernel,
    by decide +kernel, rfl⟩,
   wTask 63 1 [{ k := 63, c := 1, e := 0, held := some 1 }] .waiting, _, _, rfl, rfl, rfl, by decide +kernel, by decide +kernel,
   by decide +kernel, rfl, rfl, rfl, rfl⟩

/-- Function 0 has a save slot at PA 0; the team in a state. -/
def wTeam (f : Team → Team) (g : List Group) : State :=
  { wAt wG with
    pf := [(devstat, 0x80000000), (0x100000, 0xC0000001), (0x130008, 1)], teams := wS.teams.map f, groups := g }

theorem witness_TeamEventsFire_choices :
    (∃ (s : State) (t : Team) (c i : Nat) (w : Waiter), s.team? 3 = some t ∧ t.idleSince = some c ∧
      s.slotFor (s.vfOf t) (corePartition t.core) = some i ∧ t.state = .running ∧ s.swapWait ≠ 0 ∧ w ∈ s.waiters ∧
      (s.launch? w.launch).map (·.vf) = some (s.vfOf t) ∧ s.choosePlace w = none) ∧
    ∃ (s : State) (t : Team) (l : Launch) (w : Waiter) (v : Nat × Nat) (vs : List (Nat × Nat)), s.team? 3 = some t ∧
      s.launch? 5 = some l ∧ s.waiters.find? (fun w => w.launch = 5) = some w ∧ s.choosePlace w = none ∧
      (∀ y ∈ s.teams, y.displacers.getLast? = some 5 → y.state ≠ .stopping ∧ y.state ≠ .saving) ∧ s.chooseVictims w l = some (v :: vs) :=
  ⟨⟨{ wTeam (fun t => { t with idleSince := some 0 }) [wG] with launches := [Launch.single, wLaunch kHuge 0 none] }, _, 0, 0,
    .fresh (wLaunch kHuge 0 none), rfl, rfl, by decide +kernel, rfl, by decide +kernel, by decide +kernel, rfl, by decide +kernel⟩,
   { wTeam id [wG] with
     launches := [Launch.single, wLaunch kPair 1 none]
     reserved := [2, 4, 6, 8, 10, 12, 14].map (fun c => { die := 0, core := c, pair := true, launch := 9, team := none }) },
   _, _, _, (3, 0), [], rfl, rfl, rfl, by decide +kernel, by decide +kernel, by decide +kernel⟩

/-- A small kernel: no scratchpad, stacks or tiles. -/
def kSmall : Kernel :=
  { Kernel.single with scratch := 0, stack := 0, divstack := 0, acc := 0 }
def gSmall : Group := Group.start 2 3 0 0 0 kSmall
def tSmall (st : TeamState) (gs : List Group) : Team → Team :=
  fun t => { t with kernel := kSmall, state := st, slot := some 0, savedGroups := gs, rejoin := true }

theorem witness_TeamEventsFire_stops :
    (∃ (s : State) (t : Team) (g : Group), s.team? 3 = some t ∧ t.state = .stopping ∧
      (s.teamGroups 3).find? (fun g => !g.hasStopped && s.mayStop t g) = some g) ∧
    (∀ d ∈ [true, false], ∃ (s : State) (t : Team), s.team? 3 = some t ∧ t.state = .stopping ∧ t.discard = d ∧
      (∀ g ∈ s.teamGroups 3, g.hasStopped = true) ∧ s.teamGroups 3 ≠ [] ∧ (∀ o ∈ s.teamOps 3, s.mustComplete t o = false) ∧
      s.poolsHeld 3 = []) ∧
    (∃ (s : State) (t : Team), s.team? 3 = some t ∧ t.state = .saved ∧ t.discard = true ∧ s.poolsHeld 3 = []) ∧
    (∃ (s : State) (t : Team), s.team? 3 = some t ∧ t.state = .saving ∧ t.discard = false ∧ s.saveBefore t = false ∧
      s.heldOff ((List.range ((s.teamRecord t (s.teamGroups 3)).length / 128)).map
        (lineOf (s.slotAddr (s.vfOf t) (t.slot.getD 0)) + ·)) true = false) ∧
    ∃ (s : State) (t : Team) (core a : Nat) (cs lines : List Nat) (bytes : List Byte), s.team? 3 = some t ∧ t.state = .saved ∧
      s.waiters.contains (.saved t) = true ∧ s.turnOf (.saved t) = some (core, cs) ∧ a = s.slotAddr (s.vfOf t) (t.slot.getD 0) ∧
      lines = (List.range (t.kernel.layout.engines / 128)).map (lineOf a + ·) ∧
      bytes = Memory.getBytes (s.eccRead lines).mem a t.kernel.layout.engines ∧ s.heldOff lines false = false ∧
      headerFits (leNat (bytes.take 128)) t.kernel = true ∧ t.savedGroups = [gSmall] ∧ (∀ g ∈ t.savedGroups, partsFit t bytes g = true) := by
  refine ⟨⟨wTeam (fun t => { t with state := .stopping }) [wG], _, wG, rfl, rfl, by decide +kernel⟩, ?_,
    ⟨wTeam (fun t => { t with state := .saved, discard := true }) [], _, rfl, rfl, rfl, by decide +kernel⟩,
    ⟨wTeam (tSmall .saving []) [{ gSmall with block := .stopped }], _, rfl, rfl, rfl, by decide +kernel, by decide +kernel⟩,
    { wTeam (tSmall .saved [gSmall]) [] with mem := [(0x200094, 0xE0), (0x200095, 1)], pf := [(devstat, 0x80000000), (0x100000, 0xC0000001), (0x130000, 0x200000)] },
    _, 0, _, [0], _, _, rfl, rfl, by decide +kernel, by decide +kernel, rfl, rfl, rfl, by decide +kernel, by decide +kernel, rfl,
    by decide +kernel⟩
  intro d h
  simp only [List.mem_cons, List.not_mem_nil, or_false] at h
  rcases h with rfl | rfl
  · exact ⟨wTeam (fun t => { t with state := .stopping, discard := true }) [{ wG with block := .stopped }], _, rfl, rfl, rfl,
      by decide +kernel, by decide +kernel, by decide +kernel, by decide +kernel⟩
  · exact ⟨wTeam (fun t => { t with state := .stopping }) [{ wG with block := .stopped }], _, rfl, rfl, rfl,
      by decide +kernel, by decide +kernel, by decide +kernel, by decide +kernel⟩

/-! ### Hypotheses of the claims about events of arbiters and of translation -/

theorem witness_ArbiterEventsFire_writes :
    (∃ (s t : State) (w c : Nat), w = packBits [(16, 1), (14, 0), (2, 0x80000001 / 2 ^ 30)] ∧
      (s.pfSet (shareBlock 511) w).bindCause 511 w (s.vfBusy 511) = none ∧
      (t.pfSet (shareBlock 511) w).bindCause 511 w (t.vfBusy 511) = some c) ∧
    (∃ (s : State) (off w w' : Nat), off = shareOff 511 1 ∧ 1 ∈ classesOf 511 ∧ w = 0x000101 % 2 ^ 21 ∧ w' = 0x000001 % 2 ^ 21 ∧
      (s.pfSet off w).overCapacity [1] = false ∧ 1 ≤ bits w 8 13 ∧ bits w 8 13 ≤ 4096 ∧ (s.pfSet off w').overCapacity [1] = false ∧
      bits w' 8 13 = 0) ∧
    ∃ (s : State) (off w : Nat), off = shareOff 513 4 ∧ 4 ∈ classesOf 513 ∧ w = 0x0001FF % 2 ^ 21 ∧
      (s.pfSet off w).overCapacity [4] = true :=
  ⟨⟨wAt wG, { wAt wG with stopped := [511] }, _, 5, rfl, by decide +kernel, by decide +kernel⟩,
   ⟨wAt wG, _, _, _, rfl, by decide, rfl, rfl, by decide +kernel, by decide, by decide, by decide +kernel, by decide⟩,
   wAt wG, _, _, rfl, by decide, rfl, by decide +kernel⟩

/-- A request of function 0 at carousel 0; a message at the hub for device 5 by port 2; a head at mesh output 0. -/
def wReq : ArbReq := { arb := arbOf 1 0, owner := 0, charge := 2, reserved := false, line := none, vc := 0, rest := [] }
def wSend : FabMsg := { id := 4, dst := 5, owner := 512, header := 2 * 2 ^ 23, payload := [], source := none }
def wPf (xs : List (Nat × Word)) : State :=
  { wAt wG with pf := [(devstat, 0x80000000), (0x100000, 0xC0000001)] ++ xs }
def wHead1 : MeshHead := { output := 0, input := 4, vc := 3, flits := 2, owner := 0, reserved := false, age := 1, asOf := 0, rest := [] }

theorem witness_ArbiterEventsFire_grants :
    (∀ ls ∈ [[], [({ arb := arbOf 1 0, owner := 0, level := 1 } : Level)]], ∃ (s : State) (r : ArbReq), arbClass (arbOf 1 0) ≠ 7 ∧
      arbClass (arbOf 1 0) ≠ 6 ∧ s.requests.filter (fun r => r.arb = arbOf 1 0) = [r] ∧ r.reserved = false ∧ r.rest = [] ∧
      (s.holdsTokens (arbOf 1 0) r.owner = true ↔ ls ≠ []) ∧ s.lend r.owner = true ∧ r.owner < 514 ∧ Rising s.pf) ∧
    (∃ (s : State) (m : FabMsg), s.portMsgs 2 = [m] ∧ m.control = true ∧ 0 < s.level (arbOf 7 2) 514) ∧
    (∃ (s : State) (h : MeshHead), s.meshHeads.filter (fun h => h.output = 0 && s.eligible h) = [h] ∧ s.cycle = (s.meshOut 0).freeAt ∧
      h.vc < 4 ∧ h.input < 5 ∧ h.rest = [] ∧ s.promoted h = false) ∧
    ∃ (s : State) (h : MeshHead),
      s.meshHeads.find? (fun h => h.output = 0 && h.input = 4 && s.eligible h && !s.promoted h) = some h ∧ s.meshPromote 0 ≠ 0 := by
  refine ⟨?_, ⟨{ wPf [(froute 5, 0x80000002)] with fabWaiting := [wSend] }, wSend, by decide +kernel, by decide +kernel, by decide +kernel⟩,
    ⟨{ wAt wG with meshHeads := [wHead1], cycle := 0 }, wHead1, by decide +kernel, by decide +kernel, by decide, by decide,
      rfl, by decide +kernel⟩,
    { wAt wG with meshHeads := [wHead1], cycle := 0 }, wHead1, by decide +kernel, by decide +kernel⟩
  intro ls h
  simp only [List.mem_cons, List.not_mem_nil, or_false] at h
  rcases h with rfl | rfl
  · exact ⟨{ wAt wG with requests := [wReq] }, wReq, by decide, by decide, by decide +kernel, rfl, rfl, by decide +kernel,
      by decide +kernel, by decide, by unfold Rising; decide +kernel⟩
  · exact ⟨{ wAt wG with requests := [wReq], levels := [{ arb := arbOf 1 0, owner := 0, level := 1 }] }, wReq, by decide,
      by decide, by decide +kernel, rfl, rfl, by decide +kernel, by decide +kernel, by decide, by unfold Rising; decide +kernel⟩

/-- Way 0 of slice 0 is function 0's; function 1 holds a line in it, and it is being taken back. -/
def wSlice : Slice := { id := 0, deal := [(0, 1)], lastFill := [(0, 0)], reclaim := [0], evictions := [], lines := [{ line := 32, owner := 1, way := 0, dirty := false }] }

theorem witness_ArbiterEventsFire_ways :
    (∃ (s : State) (l : SliceLine), (s.slice 0).borrowed s.epoch = some l ∧
      ((s.slice 0).evictions.filter (fun c => s.cycle < c + 1000)).length < 64) ∧
    (∃ (s : State) (l : Leave), s.leaves.find? (fun l => l.die = 0 && !l.granted) = some l) ∧
    ∃ (s : State) (p : Nat × Nat), s.raysIdle.find? (fun p => p.1 = 0) = some p ∧ s.raysOf 0 = 0 :=
  ⟨⟨{ wAt wG with slices := [wSlice] }, { line := 32, owner := 1, way := 0, dirty := false }, by decide +kernel, by decide +kernel⟩,
   ⟨{ wAt wG with leaves := [{ die := 0, units := 8, who := .op 8, granted := false }] }, _, rfl⟩,
   { wAt wG with raysIdle := [(0, 0)] }, _, rfl, by decide +kernel⟩

/-- A fault of function 0 on the page of VA 0x5000, for the group; a cached translation of the page of VA 0x1000; its move to the
frame at 0x40000. -/
def wFault (tag : Option Nat) : FaultRec :=
  { vf := 0, page := 5, va := 0x5000, write := false, exec := false, eng := false, hub := false, core := 0, tag := tag, agents := [.group 2] }
def wCached1 : TlbEntry := { place := 256, vf := 0, page := 0x1000, size := 12, leaf := 0x402F, leafAddr := 73736, count := 7 }
def wMove (slot : Option Nat) : Move :=
  { vf := 0, leaf := 73736, count := 1, size := 12, oldPa := 0x4000, newPa := 0x40000, hp := 0, slot := slot, element := none }

theorem witness_TranslationEventsFire_faults :
    (∀ b ∈ [0, 1], ∃ (s : State), Rising s.pf ∧ bits (s.pfGet (transBlock 0 + 0x28)) 31 1 = b) ∧
    (∀ b ∈ [0, 1], ∃ (s : State) (c : Nat), Rising s.pf ∧ s.pfGet (transBlock 0 + 0x28) = c ∧ bits c 31 1 = 1 ∧ bits c 30 1 = b ∧
      s.accessesOut 0 = false ∧ s.heatHeld s.tlb = false) ∧
    (∃ (s : State) (f : FaultRec) (pa tail : Nat), Rising s.pf ∧ s.faults.find? (fun f => decide (f.vf = 0) && f.tag.isNone) = some f ∧
      s.ringFull 0 = false ∧ tail = s.pfGet (transBlock 0 + 0x14) ∧
      pa = canonPa .perDie 0 (s.pfGet64 (transBlock 0 + 8) / 4096 * 4096 + 32 * tail) ∧ s.heldOff [lineOf pa] true = false ∧
      s.locked .mem pa 32 true = false ∧ paExists .perDie 0 pa = true) ∧
    ∃ (s : State) (f : FaultRec), s.faults.find? (fun f => f.vf = 0 && f.tag = some 3) = some f ∧ f.agents = [.group 2] ∧
      ∀ g ∈ s.groups, g.id = 2 → g.parkedOn = [.page f.page] ∧ g.block = .fault := by
  refine ⟨?_, ?_, ⟨{ wPf [(0x120008, 0x14000), (0x120010, 0x1000000)] with faults := [wFault none] }, wFault none, _, _,
      by unfold Rising; decide +kernel, rfl, by decide +kernel, rfl, rfl, by decide +kernel, by decide +kernel, by decide +kernel⟩,
    { wAt { wG with parkedOn := [.page 5], block := .fault } with faults := [wFault (some 3)] }, wFault (some 3), rfl, rfl,
    by decide +kernel⟩
  · intro b h
    simp only [List.mem_cons, List.not_mem_nil, or_false] at h
    rcases h with rfl | rfl
    · exact ⟨wPf [], by unfold Rising; decide +kernel, by decide +kernel⟩
    · exact ⟨wPf [(0x120028, 0x80000000)], by unfold Rising; decide +kernel, by decide +kernel⟩
  · intro b h
    simp only [List.mem_cons, List.not_mem_nil, or_false] at h
    rcases h with rfl | rfl
    · exact ⟨wPf [(0x120028, 0x80000001)], _, by unfold Rising; decide +kernel, rfl, by decide +kernel, by decide +kernel, by decide +kernel,
        by decide +kernel⟩
    · exact ⟨wPf [(0x120028, 0xC0000000)], _, by unfold Rising; decide +kernel, rfl, by decide +kernel, by decide +kernel, by decide +kernel,
        by decide +kernel⟩

/-- The ring of moves at PA 0x14000 with one record, of the leaf at a number. -/
def wRing (lo : Byte) : State :=
  { wPf [(0x114000, 0x14000), (0x114008, 0x81000000), (0x11400C, 1)] with
    mem := cells [] [(81920, lo), (81921, 0x24), (81930, 0x40)], tlb := [wCached1] }

theorem witness_TranslationEventsFire_moves :
    (∃ (s : State) (e : TlbEntry), s.hot = [] ∧ (s.heats 0)[0]? = some e ∧ e.count ≠ 0 ∧ e.leafAddr < 2 ^ 52 ∧
      s.heatHeld [e] = false ∧ 1 < s.mrSlots) ∧
    (∀ k ∈ [1, 2, 3], ∃ (s u : State) (slot a r leaf : Nat), bits (s.pfGet (mrBlock + 8)) 31 1 = 1 ∧ slot = s.pfGet (mrBlock + 0x10) ∧
      slot ≠ s.pfGet (mrBlock + 0xC) ∧ s.moves = [] ∧ a = s.mrRecord slot ∧ s.mrHeld slot true = false ∧ r = s.readNat a 32 ∧
      leaf = canonPa .perDie 0 (8 * bits r 0 49) ∧
      u = ((s.readBy [lineOf a]).postLines 513 false hubPlace false [lineOf a]).pfSet (mrBlock + 0x10) ((slot + 1) % s.mrSlots) ∧
      (paExists .perDie 0 (8 * bits r 0 49) = true ↔ k ≠ 2) ∧
      (k ≠ 2 → ∃ size m, u.movable (bits r 64 9) leaf = some size ∧
        (u.frameSound (bits r 64 9) (bits r 80 40 * 4096) (bits r 76 4) size = true ↔ k = 1) ∧
        m = ({ vf := bits r 64 9, leaf := leaf, count := if size = 16 then 16 else 1, size := size,
               oldPa := frameOf (u.readNat leaf 8), newPa := bits r 80 40 * 4096, hp := bits r 76 4, slot := some slot,
               element := none } : Move) ∧
        (k = 1 → m = wMove (some 0) ∧ u.mayLock (u.moveLocks m) = true ∧ u.atomsInto (u.moveLocks m) = false))) ∧
    ∃ (s : State) (m : Move), s.moves = [m] ∧ s.moveHeld m = [] ∧ m.count = 1 ∧ m.slot = none ∧ m.element = none ∧
      Memory.wf s.mem = true ∧ s.symErrs = [] := by
  refine ⟨⟨{ wRing 1 with tlb := [{ wCached1 with count := 255 }] }, { wCached1 with count := 255 }, rfl, by decide +kernel, by decide,
      by decide, by decide +kernel, by decide +kernel⟩, ?_,
   { wRing 1 with moves := [wMove none] }, _, rfl, by decide +kernel, rfl, rfl, rfl, by decide +kernel, rfl⟩
  intro k h
  simp only [List.mem_cons, List.not_mem_nil, or_false] at h
  rcases h with rfl | rfl | rfl
  · exact ⟨wRing 1, _, _, _, _, _, by decide +kernel, rfl, by decide +kernel, rfl, rfl, by decide +kernel, rfl, rfl, rfl,
      by decide +kernel, fun _ => ⟨12, _, by decide +kernel, by decide +kernel, rfl, fun _ =>
        ⟨by decide +kernel, by decide +kernel, by decide +kernel⟩⟩⟩
  · exact ⟨{ wRing 1 with mem := cells [] [(81926, 1)] }, _, _, _, _, _, by decide +kernel, rfl, by decide +kernel, rfl, rfl,
      by decide +kernel, rfl, rfl, rfl, by decide +kernel, fun h => absurd rfl h⟩
  · exact ⟨{ wRing 1 with mem := cells [] [(81920, 1), (81921, 0x24), (81930, 0x41)] }, _, _, _, _, _, by decide +kernel, rfl,
      by decide +kernel, rfl, rfl, by decide +kernel, rfl, rfl, rfl, by decide +kernel, fun _ => ⟨12, _, by decide +kernel,
        by decide +kernel, rfl, fun h => absurd h (by decide)⟩⟩

/-! ### Hypotheses of the claims about events of links, the fabric, management and the host -/

/-- Direction 0 with packets on their way, lines held and a resynchronisation asked for. -/
def wDir (wire : List LinePacket) (held : List HeldLine) (resync : Option (Nat × Nat)) (discarding : Bool) : LinkDir :=
  { LinkDir.reset 0 with wire := wire, held := held, resync := resync, discarding := discarding }
def wLink (d : LinkDir) : State := { (wAt wG).pfSet (dlstatOf 0) 1 with linkDirs := d :: wS.linkDirs.drop 1 }
/-- Packets of sequence number 5: a line of zeros for die 1 and for die 2, one of a form that does not exist, and one whose CRC is
wrong. -/
def zeroPacket : LinePacket := { header := 0x508000, payload := [], src := 0, dst := 1, cls := 2 }
def badPacket : LinePacket := { zeroPacket with header := 0x528000 }
def crcPacket : LinePacket := { zeroPacket with header := 0x508001 }
/-- A message of die 0 to another. -/
def wMsgTo (dst : Nat) : DieMsg := { src := 0, dst := dst, cls := 2, line := 7 }

def decodedLine (r : Option (List Word × List Word)) : List Word × List Word := r.getD ([], [])
theorem eq_decoded {r : Option (List Word × List Word)} (h : r.isSome = true) : r = some ((decodedLine r).1, (decodedLine r).2) := by
  cases r <;> first | rfl | exact absurd h Bool.false_ne_true

theorem witness_LinkEventsFire_sends :
    (∃ (s : State) (d : LinkDir) (p : LinePacket) (tx : LinkEnd), s.linkDir? 0 = some d ∧ s.linkUp (0 / 2) = true ∧ s.fatal = false ∧
      d.held.length < 512 ∧ d.resync = none ∧
      d.tx.encodeLine (s.pfGet (dlctlOf 0)) d.tx.seq (wMsgTo 1) (Config.choice s.draw) = (p, tx) ∧
      d.relay.find? (wMsgTo 1).sameStream = some (wMsgTo 1)) ∧
    (∃ (s : State) (d : LinkDir), s.linkDir? 0 = some d ∧ s.linkUp (0 / 2) = true ∧ s.fatal = false ∧ d.held.length < 512 ∧
      d.resync = none ∧ d.relay.find? (wMsgTo 1).sameStream = none ∧ (wMsgTo 1).src = senderOf 0 ∧ (wMsgTo 1).dst ≠ (wMsgTo 1).src ∧
      opposite (wMsgTo 1).src (wMsgTo 1).dst = false ∧ 0 = dirTo (wMsgTo 1).src (wMsgTo 1).dst) ∧
    ∀ free ∈ [true, false], ∃ (s : State) (d : LinkDir) (q : OppPath), s.linkDir? 0 = some d ∧ s.linkUp (0 / 2) = true ∧
      s.fatal = false ∧ d.held.length < 512 ∧ d.resync = none ∧ d.relay.find? (wMsgTo 2).sameStream = none ∧
      (wMsgTo 2).src = senderOf 0 ∧ (wMsgTo 2).dst ≠ (wMsgTo 2).src ∧ opposite (wMsgTo 2).src (wMsgTo 2).dst = true ∧
      s.oppPath? (wMsgTo 2).src = some q ∧ 0 = nextDir (wMsgTo 2).src (wMsgTo 2).dst (s.oppVia (wMsgTo 2).src) ∧
      (free = true ↔ q.held = [] ∧ (q.viaHub = s.oppVia (wMsgTo 2).src ∨ q.outstanding = 0)) ∧
      (free = false ↔ q.held ≠ [] ∨ (q.viaHub ≠ s.oppVia (wMsgTo 2).src ∧ q.outstanding ≠ 0)) := by
  refine ⟨⟨wLink { wDir [] [] none false with relay := [wMsgTo 1] }, _, _, _, rfl, by decide +kernel, by decide +kernel, by decide, rfl,
      (Prod.eta _).symm, rfl⟩,
    ⟨wLink (wDir [] [] none false), _, rfl, by decide +kernel, by decide +kernel, by decide, rfl, rfl, rfl, by decide, by decide,
      by decide⟩, ?_⟩
  intro free h
  simp only [List.mem_cons, List.not_mem_nil, or_false] at h
  rcases h with rfl | rfl
  · exact ⟨wLink (wDir [] [] none false), _, _, rfl, by decide +kernel, by decide +kernel, by decide, rfl, rfl, rfl, by decide,
      by decide, rfl, by decide +kernel, by decide +kernel, by decide +kernel⟩
  · exact ⟨{ wLink (wDir [] [] none false) with oppPaths := [{ die := 0, viaHub := true, outstanding := 1, held := [] }] }, _, _, rfl,
      by decide +kernel, by decide +kernel, by decide, rfl, rfl, rfl, by decide, by decide, rfl, by decide +kernel, by decide +kernel,
      by decide +kernel⟩

theorem witness_LinkEventsFire_receives :
    (∀ dst ∈ [1, 2], ∃ (s : State) (d : LinkDir) (p : LinePacket) (ws ls : List Word) (m : DieMsg), s.linkDir? 0 = some d ∧
      d.wire = [p] ∧ s.linkUp (0 / 2) = true ∧ s.fatal = false ∧ d.rx.epoch < 4 ∧ bits p.header.toNat 18 2 = d.rx.epoch ∧
      d.discarding = false ∧ d.rx.decodeLine p = some (ws, ls) ∧
      m = ({ src := p.src, dst := p.dst, cls := p.cls, line := BitVec.ofNat 1024 (natOfWords ws) } : DieMsg) ∧
      crc8 (lineBytes m.line) = bits p.header.toNat 0 8 ∧ (receiverOf 0 = p.dst ↔ dst = 1) ∧ (opposite p.src p.dst = true ↔ dst = 2)) ∧
    (∃ (s : State) (d : LinkDir) (p : LinePacket), s.linkDir? 0 = some d ∧ d.wire = [p] ∧ s.linkUp (0 / 2) = true ∧ s.fatal = false ∧
      d.rx.epoch < 4 ∧ bits p.header.toNat 18 2 = d.rx.epoch ∧ d.discarding = false ∧ d.rx.decodeLine p = none ∧ Rising s.pf) ∧
    (∃ (s : State) (d : LinkDir) (p : LinePacket) (ws ls : List Word), s.linkDir? 0 = some d ∧ d.wire = [p] ∧ s.linkUp (0 / 2) = true ∧
      s.fatal = false ∧ d.rx.epoch < 4 ∧ bits p.header.toNat 18 2 = d.rx.epoch ∧ d.discarding = false ∧
      d.rx.decodeLine p = some (ws, ls) ∧ crc8 (lineBytes (BitVec.ofNat 1024 (natOfWords ws))) ≠ bits p.header.toNat 0 8) ∧
    ∃ (s : State) (d : LinkDir) (p : LinePacket), s.linkDir? 0 = some d ∧ d.wire = [p] ∧ s.linkUp (0 / 2) = true ∧ s.fatal = false ∧
      d.rx.epoch < 4 ∧ bits p.header.toNat 18 2 = d.rx.epoch ∧ d.discarding = true := by
  refine ⟨?_, ⟨wLink (wDir [badPacket] [] none false), _, badPacket, rfl, rfl, by decide +kernel, by decide +kernel, by decide,
    by decide +kernel, rfl, by decide +kernel, by unfold Rising; decide +kernel⟩,
   ⟨wLink (wDir [crcPacket] [] none false), _, crcPacket, _, _, rfl, rfl, by decide +kernel, by decide +kernel, by decide,
    by decide +kernel, rfl, eq_decoded (by decide +kernel), by decide +kernel⟩,
   wLink (wDir [zeroPacket] [] none true), _, zeroPacket, rfl, rfl, by decide +kernel, by decide +kernel, by decide,
   by decide +kernel, rfl⟩
  intro dst h
  simp only [List.mem_cons, List.not_mem_nil, or_false] at h
  rcases h with rfl | rfl
  · exact ⟨wLink (wDir [zeroPacket] [] none false), _, zeroPacket, _, _, _, rfl, rfl, by decide +kernel, by decide +kernel, by decide,
      by decide +kernel, rfl, eq_decoded (by decide +kernel), rfl, by decide +kernel, by decide +kernel, by decide +kernel⟩
  · exact ⟨wLink (wDir [{ zeroPacket with dst := 2 }] [] none false), _, { zeroPacket with dst := 2 }, _, _, _, rfl, rfl,
      by decide +kernel, by decide +kernel, by decide, by decide +kernel, rfl, eq_decoded (by decide +kernel), rfl, by decide +kernel,
      by decide +kernel, by decide +kernel⟩

theorem witness_LinkEventsFire_layer :
    (∀ p ∈ [(5, 3), (6, 0), (5, 0)], ∃ (s : State) (d : LinkDir), s.linkDir? 0 = some d ∧ d.resync = some p ∧
      s.linkUp (0 / 2) = true ∧ s.fatal = false ∧
      (p = (5, 3) ↔ p.2 ≠ d.tx.epoch) ∧ (p = (6, 0) → d.held.dropWhile (fun x => x.seq ≠ 6) = [])) ∧
    (∃ (s : State) (d : LinkDir) (x : HeldLine) (ys zs : List HeldLine), s.linkDir? 0 = some d ∧ d.held = ys ++ x :: zs ∧
      (∀ y ∈ ys, y.seq ≠ x.seq) ∧ (d.rx.seq + 4095 - x.seq) % 4096 < 2048 ∧ s.linkUp (0 / 2) = true ∧ s.fatal = false) ∧
    (∃ (s : State) (l : LinkLayer), s.layer? (0 / 2) = some l ∧ s.fatal = false ∧ l.training = some 3 ∧ Rising s.pf ∧ l.attempts < 4 ∧
      s.inTrainTime l = true) ∧
    (∃ (s : State) (v : Nat), v < 2 ^ 32 ∧ Rising s.pf ∧ s.recovery = false) ∧
    (∃ (s : State) (q : OppPath), s.oppPath? 0 = some q ∧ q.outstanding = 0 ∧ q.held = [] ∧ q.viaHub ≠ s.oppVia 0) ∧
    ∃ (s : State) (q : OppPath), s.oppPath? 0 = some q ∧ q.outstanding = 0 ∧ q.held = [(true, wMsgTo 2)] := by
  refine ⟨?_, ⟨wLink { wDir [] [{ seq := 4094, msg := wMsgTo 1 }] none false with rx := { (LinkDir.reset 0).rx with seq := 1 } }, _,
      { seq := 4094, msg := wMsgTo 1 }, [], [], rfl, rfl, by decide, by decide, by decide +kernel, by decide +kernel⟩,
    ⟨{ wAt wG with linkLayers := [{ link := 0, training := some 3, attempts := 1, replays := 0 }] }, _, rfl, by decide +kernel,
      rfl, by unfold Rising; decide +kernel, by decide, by decide +kernel⟩,
    ⟨wAt wG, 32, by decide, by unfold Rising; decide +kernel, by decide +kernel⟩,
    ⟨{ wAt wG with oppPaths := [{ die := 0, viaHub := true, outstanding := 0, held := [] }] }, _, rfl, rfl, rfl, by decide +kernel⟩,
    { wAt wG with oppPaths := [{ die := 0, viaHub := false, outstanding := 0, held := [(true, wMsgTo 2)] }] }, _, rfl, rfl, rfl⟩
  intro p h
  simp only [List.mem_cons, List.not_mem_nil, or_false] at h
  rcases h with rfl | rfl | rfl
  · exact ⟨wLink (wDir [] [{ seq := 5, msg := wMsgTo 1 }] (some (5, 3)) false), _, rfl, rfl, by decide +kernel, by decide +kernel,
      by decide, by decide⟩
  · exact ⟨wLink (wDir [] [{ seq := 5, msg := wMsgTo 1 }] (some (6, 0)) false), _, rfl, rfl, by decide +kernel, by decide +kernel,
      by decide, by decide⟩
  · exact ⟨wLink (wDir [] [{ seq := 5, msg := wMsgTo 1 }] (some (5, 0)) false), _, rfl, rfl, by decide +kernel, by decide +kernel,
      by decide, by decide⟩

/-- The header of an `xst` of one word from device 3 to offset 0x40 of window 0, and one whose kind is 7. -/
def xstHeader : BitVec 128 := BitVec.ofNat 128 (1 * 2 ^ 23 + 3 * 2 ^ 42 + 9 * 2 ^ 48 + 0x40 * 2 ^ 79)
def badHeader : BitVec 128 := BitVec.ofNat 128 (7 * 2 ^ 23)

theorem witness_FabricEventsFire :
    (∃ (s : State) (c : Nat), channelOf 32 = some c ∧ ∀ p ∈ s.symErrs, p.1 ≠ 32) ∧
    (∃ (s : State) (a : Nat), bits xstHeader.toNat 23 4 = 1 ∧ bits xstHeader.toNat 36 6 = s.device ∧
      [(1 : Word)].length = bits xstHeader.toNat 72 5 + 1 ∧ bits xstHeader.toNat 79 49 % 128 + 4 * (bits xstHeader.toNat 72 5 + 1) ≤ 128 ∧
      s.running = true ∧ s.arrivalAt (bits xstHeader.toNat 64 8) (bits xstHeader.toNat 79 49) (bits xstHeader.toNat 72 5) = some a ∧
      s.heldOff [lineOf a] true = false ∧ s.locks = []) ∧
    (∃ (s : State), bits xstHeader.toNat 36 6 = s.device ∧ s.running = true ∧
      s.arrivalAt (bits xstHeader.toNat 64 8) (bits xstHeader.toNat 79 49) (bits xstHeader.toNat 72 5) = none ∧ Rising s.pf) ∧
    (∃ (s : State) (u : FabWait), s.fabUnacked.find? (fun u => u.dst = 3 && u.seq = 9) = some u ∧
      (∃ g ∈ s.groups, g.team = u.team ∧ g.num = u.group)) ∧
    6 < bits badHeader.toNat 23 4 ∧ ∃ (s t : State), Rising s.pf ∧ Rising t.pf ∧ s.recovery = false ∧ t = s.pfSet (froute 3) 0x80000001 ∧ t.sentTo 3 = true :=
  ⟨⟨wAt wG, 0, by decide +kernel, by decide +kernel⟩,
   ⟨wPf [(0x140004, 0x80C00000), (0x140008, 0x4000)], 0x1040, by decide, by decide, by decide, by decide, by decide +kernel,
    by decide +kernel, by decide +kernel, rfl⟩,
   ⟨wAt wG, by decide, by decide +kernel, by decide +kernel, by unfold Rising; decide +kernel⟩,
   ⟨{ wAt { wG with xstOut := 1 } with fabUnacked := [{ dst := 3, seq := 9, launch := 1, team := 3, group := 0 }] }, _, rfl,
    ⟨_, List.mem_singleton.mpr rfl, rfl, rfl⟩⟩,
   by decide, { wAt wG with fabUnacked := [{ dst := 3, seq := 9, launch := 1, team := 3, group := 0 }] }, _,
   by unfold Rising; decide +kernel, by unfold Rising; decide +kernel, by decide +kernel, rfl, by decide +kernel⟩

/-- The group's state with the management state changed, and DEVSTAT. -/
def wMgmt (f : Mgmt → Mgmt) (d : Word) : State :=
  { wAt wG with pf := [(devstat, d)], mgmt := f wS.mgmt }

theorem witness_ManagementEventsFire_power :
    (∃ (s : State), Rising s.pf ∧ s.mgmt.powered = false) ∧
    (∃ (s : State), Rising s.pf ∧ s.mgmt.powered = true ∧ 3 ∉ s.mgmt.throttled ∧ 2 ∈ s.mgmt.throttled ∧ s.fatal = false ∧
      1 ≤ s.mgmt.stage ∧ s.mgmt.alarmed = false) ∧
    (∃ (s : State), Rising s.pf ∧ s.mgmt.powered = true ∧ 1 ≤ s.mgmt.stage ∧ s.mgmt.alarmed = true) ∧
    ∀ n ∈ [0, 1, 2, 3, 4], ∃ (s : State), Rising s.pf ∧ s.mgmt.powered = true ∧ s.recovery = false ∧ s.fatal = false ∧ s.mgmt.stage = n := by
  refine ⟨⟨wMgmt (fun m => { m with powered := false }) 0, by unfold Rising; decide +kernel, rfl⟩,
    ⟨wMgmt (fun m => { m with throttled := [2] }) 0x80000000, by unfold Rising; decide +kernel, rfl, by decide +kernel, by decide +kernel,
      by decide +kernel, by decide +kernel, rfl⟩,
    ⟨wMgmt (fun m => { m with alarmed := true }) 0xC8000000, by unfold Rising; decide +kernel, rfl, by decide +kernel, rfl⟩, ?_⟩
  intro n h
  have key : ∀ n ∈ [0, 1, 2, 3, 4], ((wMgmt (fun m => { m with stage := n }) 0).pf.map (·.1)).Pairwise (· < ·) ∧
      (wMgmt (fun m => { m with stage := n }) 0).recovery = false ∧ (wMgmt (fun m => { m with stage := n }) 0).fatal = false := by
    decide +kernel
  exact ⟨wMgmt (fun m => { m with stage := n }) 0, (key n h).1, rfl, (key n h).2.1, (key n h).2.2, rfl⟩

theorem witness_ManagementEventsFire_mailbox :
    (∃ (s : State), Rising s.pf ∧ s.mgmt.powered = true ∧ s.cytosRuns = true ∧ s.mgmt.record.length = 128 ∧ s.mgmt.alarmed = false ∧
      s.recovery = false ∧ s.mgmt.keys = true ∧ s.mgmt.alarmPolicy = true) ∧
    (∃ (s : State), Rising s.pf ∧ s.mgmt.powered = true ∧ s.cytosRuns = true ∧ s.mgmt.alarmed = false ∧ s.mgmt.alarmPolicy = false) ∧
    ∃ (s : State), Rising s.pf ∧ s.mgmt.powered = true ∧ s.cytosRuns = true ∧ s.mgmt.alarmed = true :=
  ⟨⟨wMgmt (fun m => { m with keys := true, alarmPolicy := true, record := List.replicate 128 0 }) 0x80000000,
    by unfold Rising; decide +kernel, rfl, by decide +kernel, by decide +kernel, rfl, by decide +kernel, rfl, rfl⟩,
   ⟨wMgmt id 0x80000000, by unfold Rising; decide +kernel, rfl, by decide +kernel, rfl, rfl⟩,
   wMgmt (fun m => { m with alarmed := true }) 0xC8000000, by unfold Rising; decide +kernel, rfl, by decide +kernel, rfl⟩

theorem witness_HostEventsFire_accesses :
    (∃ (s : State) (a c : Nat), a % 128 + [(1 : Byte)].length ≤ 128 ∧ s.mgmt.powered = true ∧ s.mgmt.stage = 5 ∧ s.locks = [] ∧
      canonPa .perDie 0 a = c ∧ paExists .perDie 0 a = true ∧ regionOf a = some .near ∧ (∀ w, s.heldOff [lineOf c] w = false) ∧
      s.cxl = true ∧ a < 2 ^ 37) ∧
    (∃ (s : State) (a : Nat), a % 128 + [(1 : Byte)].length ≤ 128 ∧ s.mgmt.powered = true ∧ s.mgmt.stage = 5 ∧ s.locks = [] ∧
      canonPa .perDie 0 a = a ∧ paExists .perDie 0 a = true ∧ regionOf a = some .far ∧ s.heldOff [lineOf a] true = false ∧
      s.heldOff [lineOf a] false = false ∧ s.cxl = true) ∧
    ∃ (s : State) (a : Nat), a % 128 + [(1 : Byte)].length ≤ 128 ∧ s.mgmt.powered = true ∧ s.mgmt.stage = 5 ∧ s.locks = [] ∧
      s.cxl = true ∧ regionOf a = some .host ∧ s.heldOff [lineOf a] true = false ∧ s.heldOff [lineOf a] false = false :=
  ⟨⟨wAt wG, 0x107F, 0x107F, by decide, rfl, rfl, rfl, by decide +kernel, by decide +kernel, by decide +kernel,
    fun w => by cases w <;> decide +kernel, rfl, by decide⟩,
   ⟨wAt wG, 2 ^ 48, by decide, rfl, rfl, rfl, by decide +kernel, by decide +kernel, by decide +kernel, by decide +kernel,
    by decide +kernel, rfl⟩,
   wAt wG, 2 ^ 49, by decide, rfl, rfl, rfl, rfl, by decide +kernel, by decide +kernel, by decide +kernel⟩

/-- A queue of function 0 that is not DISABLED. -/
def wBusy : State := { wAt wG with queues := [wCtx []] }

theorem witness_HostEventsFire_writes :
    (∃ (s : State), Rising s.pf ∧ s.vfBusy 0 = true) ∧
    (∃ (s : State) (v w x y : Nat), Rising s.pf ∧ s.vfBusy 0 = false ∧ 1024 < bits v 16 10 + bits v 0 11 ∧
      bits w 16 10 + bits w 0 11 ≤ 1024 ∧ (∀ o, o < 512 → o ≠ 0 → s.taskCount o = 0) ∧ bits x 16 8 + bits x 0 9 ≤ 256 ∧
      (∀ o, o < 512 → o ≠ 0 → bits (s.boothallot o) 0 9 = 0) ∧ bits x 0 2 ≠ 3 ∧
      (∀ i, i < bits x 0 16 → s.slotSound 0 (s.slotAddr 0 i) = true) ∧
      (∃ i, i < bits y 0 16 ∧ s.slotSound 0 (s.slotAddr 0 i) = false)) ∧
    ∃ (s : State) (off : Nat), Rising s.pf ∧ s.mgmt.powered = true ∧ s.recovery = false ∧ off < 2 ^ 26 ∧ off % 4 = 0 ∧ 0x1000 ≤ off ∧
      off < 0x2000 := by
  refine ⟨⟨wBusy, by unfold Rising; decide +kernel, by decide +kernel⟩,
    ⟨wAt wG, 1023 * 2 ^ 16 + 2, 1023 * 2 ^ 16 + 1, 1, 0xFFFF, by unfold Rising; decide +kernel, by decide +kernel, by decide, by decide, ?_,
      by decide, ?_, by decide, ?_, ⟨0x4000, by decide +kernel, by decide +kernel⟩⟩,
    wAt wG, 0x1FFC, by unfold Rising; decide +kernel, rfl, by decide +kernel, by decide, by decide, by decide, by decide⟩
  · have h : ∀ o < 512, o ≠ 0 → (wAt wG).taskCount o = 0 := by decide +kernel
    exact h
  · have h : ∀ o < 512, o ≠ 0 → bits ((wAt wG).boothallot o) 0 9 = 0 := by decide +kernel
    exact h
  · have h : ∀ i < 1, (wAt wG).slotSound 0 ((wAt wG).slotAddr 0 i) = true := by decide +kernel
    intro i hi
    exact h i (Nat.lt_of_lt_of_le hi (by decide))

/-! ### Hypotheses of the claims about events of ports and of presents -/

/-- The state with registers of the physical function. -/
def wRegs (xs : List (Nat × Nat)) : State := xs.foldl (fun s p => s.pfSet p.1 p.2) (wAt wG)
/-- Port 1 shows 16 × 32 pixels of 32 × 200; its DPCTL; function 0 owns it. -/
def timing1 : List (Nat × Nat) :=
  [(dptim 1, 0x40080010), (dptim 1 + 4, 0x800001), (dptim 1 + 8, 0x28064), (dptim 1 + 12, 0), (portown 1, 0x80000000)]
def wPort (x : Port) (ctl : Nat) (xs : List (Nat × Nat)) : State :=
  { wRegs ((dpctl 1, ctl) :: (timing1 ++ xs)) with ports := [Port.reset 0, x, Port.reset 2, Port.reset 3] }
def shownFrame : Presented := { vf := 0, dev := 0, rec_ := 0, net := false, swap := 0 }

theorem rising_of {m : List (Nat × Word)} (h : (m.map (·.1)).Pairwise (· < ·)) : Rising m := h

theorem witness_PortEventsFire_control :
    (∃ (s : State) (x : Port), s.port? 1 = some x ∧ Rising s.pf ∧ bits (s.pfGet (dpctl 1)) 31 1 = 1) ∧
    ∃ (s : State) (x : Port), s.port? 1 = some x ∧ Rising s.pf ∧ bits (s.pfGet (dpctl 1)) 31 1 = 0 ∧
      s.cannotCarry 1 0x80000000 = false ∧ s.cannotCarry 1 0x9C000000 = true :=
  ⟨⟨wPort (Port.reset 1) 0x80000000 [], _, rfl, rising_of (by decide +kernel), by decide +kernel⟩,
   wPort (Port.reset 1) 0 [], _, rfl, rising_of (by decide +kernel), by decide +kernel, by decide +kernel, by decide +kernel⟩

def poseRead (r : State ⊕ (Option (BitVec 512) × State)) : Option (BitVec 512) × State := r.elim (fun s => (none, s)) id
theorem eq_pose {r : State ⊕ (Option (BitVec 512) × State)} (h : r.isRight = true) : r = .inr ((poseRead r).1, (poseRead r).2) := by
  cases r <;> first | rfl | exact absurd h Bool.false_ne_true

def wBand : Band := { band := 0, pose := none, hold := [] }
/-- What is left of the frame, with that band open. -/
def wLate : Finishing := { frame := shownFrame, repeats := false, previous := none, rpose := none, bands := [wBand], map := [] }
/-- A port whose frame of 200 lines takes 6,000 cycles. -/
def wScan : Port := { Port.reset 1 with frameLen := 6000 }

theorem witness_PortEventsFire_lines :
    (∃ (s : State) (x : Port), s.port? 1 = some x ∧ Rising s.pf ∧ s.portOn 1 = true ∧ bits (s.pfGet (dpctl 1)) 30 1 = 1 ∧
      bits (s.pfGet glctl) 31 1 = 1 ∧ s.referenceOk 1 0 (s.nominalFrame 1) = true) ∧
    (∃ (s : State) (x : Port), s.port? 1 = some x ∧ Rising s.pf ∧ s.portOn 1 = true ∧ s.sgOn = false ∧ x.writes = [] ∧
      x.latched = true ∧ s.vtotal 1 ≤ s.nextFrame x (max s.cycle (x.line0At + x.frameLen))) ∧
    (∃ (s u : State) (x : Port) (f : Presented) (r : Option (BitVec 512)) (v : State), s.port? 1 = some x ∧ Rising s.pf ∧
      s.portOn 1 = true ∧ s.sgOn = false ∧ x.writes = [] ∧ x.latched = false ∧
      u = { s with cycle := max s.cycle (s.lineAt x ((s.vtotal 1 : Int) - 64)) } ∧ x.pending = some f ∧
      u.readPose f f.rposeVa = .inr (r, v)) ∧
    (∃ (s : State) (x : Port), s.port? 1 = some x ∧ Rising s.pf ∧ s.portOn 1 = true ∧ s.sgOn = false ∧ x.writes = [] ∧
      x.latched = false ∧ x.pending = none ∧ x.shown = none) ∧
    (∃ (s u : State) (x : Port) (f : Presented) (r : Option (BitVec 512)) (v : State), s.port? 1 = some x ∧ Rising s.pf ∧
      s.portOn 1 = true ∧ s.sgOn = false ∧ x.writes = [] ∧ x.latched = false ∧
      u = { s with cycle := max s.cycle (s.lineAt x ((s.vtotal 1 : Int) - 64)) } ∧ x.pending = none ∧ x.shown = some f ∧
      u.readPose f f.rposeVa = .inr (r, v)) ∧
    (∃ (s u : State) (x : Port) (f : Presented) (r : Option (BitVec 512)) (v w : State) (f3 : List (Option Nat)), s.port? 1 = some x ∧
      Rising s.pf ∧ s.portOn 1 = true ∧ x.writes = [] ∧ x.building = some f ∧ 0 = x.map.length + x.bands.length ∧ 0 < s.bandCount 1 ∧
      x.bands.length < 2 ∧ u = s.by_ (s.buildLine x (16 * (((0 : Nat) : Int) - 4))) ∧ u.readPose f f.poseVa = .inr (r, v) ∧
      v.fetchF3 (v.bandCtx 1 (x.current f)) 0 = (f3, w)) ∧
    ∀ late ∈ [true, false], ∃ (s : State) (x : Port) (c : Finishing) (w : Band), s.port? 1 = some x ∧ Rising s.pf ∧
      s.portOn 1 = true ∧ c.bands = [w] ∧
      (if late = true then x.finishing = some c else x.finishing = none ∧ ∃ f, x.building = some f ∧ c = x.current f) := by
  refine ⟨⟨wPort wScan 0xC0000000 [(glctl, 0x80000000), (dptim 1 + 12, 0x19000)], wScan, rfl, rising_of (by decide +kernel),
      by decide +kernel, by decide +kernel, by decide +kernel, by decide +kernel⟩,
   ⟨wPort { wScan with latched := true } 0x80000000 [], _, rfl, rising_of (by decide +kernel), by decide +kernel, by decide +kernel,
      rfl, rfl, by decide +kernel⟩,
   ⟨wPort { wScan with pending := some shownFrame } 0x80000000 [], _, _, shownFrame, _, _, rfl, rising_of (by decide +kernel),
      by decide +kernel, by decide +kernel, rfl, rfl, rfl, rfl, eq_pose (by decide +kernel)⟩,
   ⟨wPort wScan 0x80000000 [], _, rfl, rising_of (by decide +kernel), by decide +kernel, by decide +kernel, rfl, rfl, rfl, rfl⟩,
   ⟨wPort { wScan with shown := some shownFrame } 0x80000000 [], _, _, shownFrame, _, _, rfl, rising_of (by decide +kernel),
     by decide +kernel, by decide +kernel, rfl, rfl, rfl, rfl, rfl, eq_pose (by decide +kernel)⟩,
   ⟨wPort { wScan with building := some shownFrame } 0x80000000 [], _, _, shownFrame, _, _, _, _, rfl, rising_of (by decide +kernel),
     by decide +kernel, rfl, rfl, rfl, by decide +kernel, by decide, rfl, eq_pose (by decide +kernel), (Prod.eta _).symm⟩, ?_⟩
  intro late h
  simp only [List.mem_cons, List.not_mem_nil, or_false] at h
  rcases h with rfl | rfl
  · exact ⟨wPort { wScan with finishing := some wLate } 0x80000000 [], _, wLate, wBand, rfl, rising_of (by decide +kernel), by decide +kernel, rfl, rfl⟩
  · exact ⟨wPort { wScan with building := some shownFrame, bands := [wBand] } 0x80000000 [], _, _, wBand, rfl,
      rising_of (by decide +kernel), by decide +kernel, rfl, rfl, shownFrame, rfl, rfl⟩

/-- A present of VA 0x1080, or of one that is not aligned. -/
def wPresent (va : Nat) : PresentReq := { vf := 0, dev := 0, va := va, group := 2, source := (1, 3, 0) }
/-- The frame record at PA 0x1080: port 1, 16 × 32 pixels. -/
def wFrameRecord (s : State) (va : Nat) : State :=
  { s with presents := [wPresent va], mem := cells [(4228, 1), (4229, 0xF0), (4231, 0x7C)] [] }

theorem witness_SwapEventsFire_records :
    (∃ (s : State) (q : PresentReq), s.presents = [q] ∧ s.running = true ∧ q.va % 64 ≠ 0) ∧
    (∃ (s : State) (q : PresentReq) (r p : Nat) (ls : List Nat), s.presents = [q] ∧ s.running = true ∧ q.va % 64 = 0 ∧
      s.hubRead q.vf q.dev q.va 64 = .ok r ls ∧ p = bits r 32 2 ∧ bits (s.pfGet (portown p)) 31 1 = 0) ∧
    ∃ (s : State) (q : PresentReq) (r p : Nat) (ls : List Nat) (x : Port), s.presents = [q] ∧ s.running = true ∧ q.va % 64 = 0 ∧
      s.hubRead q.vf q.dev q.va 64 = .ok r ls ∧ p = bits r 32 2 ∧ bits (s.pfGet (portown p)) 31 1 = 1 ∧
      bits (s.pfGet (portown p)) 0 9 = q.vf ∧ bits r 34 1 = 0 ∧ s.sgOn = false ∧ bits r 40 4 < 2 ∧
      scaleOk (s.hactive p) (s.vactive p) (bits r 44 14 + 1) (bits r 58 14 + 1) = true ∧ s.portOn p = true ∧ s.port? p = some x :=
  ⟨⟨wFrameRecord (wAt wG) 0x1081, _, rfl, by decide +kernel, by decide⟩,
   ⟨wFrameRecord (wAt wG) 0x1080, _, _, _, _, rfl, by decide +kernel, by decide,
    eq_read (v := 2 ^ 32 + 15 * 2 ^ 44 + 31 * 2 ^ 58) (by decide +kernel), rfl, by decide +kernel⟩,
   wFrameRecord (wPort (Port.reset 1) 0x80000000 []) 0x1080, _, _, _, _, Port.reset 1, rfl, by decide +kernel, by decide,
   eq_read (v := 2 ^ 32 + 15 * 2 ^ 44 + 31 * 2 ^ 58) (by decide +kernel), rfl, by decide +kernel⟩

/-- The swap group: device 0 and device 3, of which this one is the ringmaster or not. -/
def wSwap (ctl : Nat) : State := wPort wScan 0xA0000000 [(sgctl, ctl), (sgmem, 0x8380)]
/-- A message of the swap group from device 3: its kind, and whether it is a response. -/
def swapHeader (kind resp : Nat) : BitVec 512 := BitVec.ofNat 512 (kind * 2 ^ 23 + 3 * 2 ^ 42 + resp * 2 ^ 200)

theorem witness_SwapEventsFire_group :
    (∃ (s : State), s.running = true ∧ s.sgOn = true ∧ bits (swapHeader 3 0).toNat 36 6 = s.device ∧
      bits (swapHeader 3 0).toNat 128 8 = bits (s.pfGet sgctl) 12 8 ∧ bits (swapHeader 3 0).toNat 23 4 = 3 ∧ s.ringmaster = true ∧
      bits (swapHeader 3 0).toNat 42 6 ∈ s.members ∧ bits (swapHeader 3 0).toNat 136 32 = s.gathering ∧
      bits (swapHeader 3 0).toNat 42 6 ∉ s.swap.arrived ∧ bits (swapHeader 6 0).toNat 23 4 = 6 ∧ bits (swapHeader 6 0).toNat 200 1 = 0 ∧
      s.swapPorts = [1] ∧ s.port? 1 = some wScan ∧ s.portOn 1 = true ∧ wScan.latched = false ∧ s.swap.decision = none) ∧
    (∃ (s : State), s.running = true ∧ s.sgOn = true ∧ s.ringmaster = true ∧ bits (swapHeader 3 0).toNat 42 6 ∈ s.members ∧
      bits (swapHeader 3 0).toNat 136 32 = s.gathering ∧ bits (swapHeader 3 0).toNat 42 6 ∈ s.swap.arrived) ∧
    ∀ line ∈ [0, 150], ∃ (s : State), s.running = true ∧ s.sgOn = true ∧ bits (swapHeader 4 0).toNat 36 6 = s.device ∧
      bits (swapHeader 4 0).toNat 128 8 = bits (s.pfGet sgctl) 12 8 ∧ s.ringmaster = false ∧ bits (swapHeader 4 0).toNat 42 6 = s.master ∧
      bits (swapHeader 4 0).toNat 136 32 = s.swapNo ∧ s.pastLatch = decide (line = 150) ∧ Rising s.pf ∧
      bits (swapHeader 6 1).toNat 200 1 = 1 ∧ bits (swapHeader 5 0).toNat 23 4 = 5 := by
  refine ⟨⟨wSwap 0xC8000000, by decide +kernel⟩,
    ⟨{ wSwap 0xC8000000 with swap := { wS.swap with arrived := [3] } }, by decide +kernel⟩, ?_⟩
  intro line h
  simp only [List.mem_cons, List.not_mem_nil, or_false] at h
  rcases h with rfl | rfl
  · exact ⟨wSwap 0x88300000, by decide +kernel, by decide +kernel, by decide +kernel, by decide +kernel, by decide +kernel,
      by decide +kernel, by decide +kernel, by decide +kernel, rising_of (by decide +kernel), by decide +kernel, by decide +kernel⟩
  · exact ⟨{ wSwap 0x88300000 with cycle := 4500 }, by decide +kernel, by decide +kernel, by decide +kernel, by decide +kernel, by decide +kernel,
      by decide +kernel, by decide +kernel, by decide +kernel, rising_of (by decide +kernel), by decide +kernel, by decide +kernel⟩

/-! ### Hypotheses of the claims about the machine as a whole -/

def planned : Plan → Option State
  | .issue t => some t
  | _ => none
theorem eq_issue {p : Plan} (h : (planned p).isSome = true) : p = .issue ((planned p).getD wS) := by
  cases p <;> first | rfl | exact absurd h Bool.false_ne_true
def plannedEvent : Plan → Option (Instr × State)
  | .event i t => some (i, t)
  | _ => none
theorem eq_event {p : Plan} (h : (plannedEvent p).isSome = true) :
    p = .event ((plannedEvent p).getD (.nop, wS)).1 ((plannedEvent p).getD (.nop, wS)).2 := by
  cases p <;> first | rfl | exact absurd h Bool.false_ne_true
def wentOn (o : Host.Outcome State Fault Refusal) : Option State :=
  match o with
  | .next t => some t
  | _ => none
theorem eq_next {o : Host.Outcome State Fault Refusal} (h : (wentOn o).isSome = true) : o = .next ((wentOn o).getD wS) := by
  cases o <;> first | rfl | exact absurd h Bool.false_ne_true
theorem eq_some {α : Type} {r : Option α} (d : α) (h : r.isSome = true) : r = some (r.getD d) := by
  cases r <;> first | rfl | exact absurd h Bool.false_ne_true
theorem eq_instr {ε : Type} {r : Except ε Instr} {i : Instr} (h : r.toOption = some i) : r = .ok i := by
  cases r with
  | ok x => simp only [Except.toOption, Option.some.injEq] at h; rw [h]
  | error e => exact absurd h (by simp [Except.toOption])

theorem witness_StepRunsDecodedInstruction :
    (∃ (s : State) (i : Instr), s.agenda = [i]) ∧
    (∃ (s t : State) (i : Instr), s.agenda = [] ∧ s.plan = .event i t) ∧
    (∃ (s : State) (g : Group), s.turns = [2 * 0] ∧ pickFrom ({ s with turns := [] } : State).picks 0 = some g ∧
      s.plan = .issue (({ s with turns := [] } : State).takeTurn g)) ∧
    ∃ (s t u : State) (g : Group) (h : Hit), s.agenda = [] ∧ s.plan = .issue t ∧ t.group? t.cur = some g ∧ t.fetchPlace g = .hit h ∧ decode (BitVec.ofNat 32 (t.readNat h.addr 4)) = .ok .nop ∧
      exec .nop t = .next u :=
  ⟨⟨{ wS with agenda := [.epochBoundary] }, .epochBoundary, rfl⟩,
   ⟨{ wS with turns := [] }, _, _, rfl, eq_event (by decide +kernel)⟩,
   ⟨wS, wG, rfl, by decide +kernel, by rfl⟩,
   wS, _, _, _, _, rfl, eq_issue (by decide +kernel), eq_some wG (by decide +kernel), eq_hit (by decide +kernel),
   eq_instr (by decide +kernel), eq_next (by decide +kernel)⟩

theorem witness_StepKeepsSpaces : ∃ s t : State, s.spacesOk ∧ step s = .next t :=
  ⟨wS, _, by unfold State.spacesOk; decide +kernel, eq_next (by decide +kernel)⟩

theorem witness_DecodeOfEncode : ∃ (i : Instr) (w : Word), i.wellFormed = true ∧ encode i = some w :=
  ⟨.add 3 2 67 true true, 0x20060A1E, by decide +kernel, by decide +kernel⟩

/-! ### Words of the encoding tables: the formats of R337, bit by bit -/

def fA (op d a b ta tb k : Nat) : Word := BitVec.ofNat 32 (op * 2 ^ 24 + d * 2 ^ 17 + a * 2 ^ 10 + b * 2 ^ 3 + ta * 4 + tb * 2 + k)
def fB (op d a imm ta k : Nat) : Word := BitVec.ofNat 32 (op * 2 ^ 24 + d * 2 ^ 17 + a * 2 ^ 10 + imm * 4 + ta * 2 + k)
def fC (op d imm k : Nat) : Word := BitVec.ofNat 32 (op * 2 ^ 24 + d * 2 ^ 17 + imm * 2 + k)
def fD (op u n p off : Nat) : Word := BitVec.ofNat 32 (op * 2 ^ 24 + u * 2 ^ 23 + n * 2 ^ 22 + p * 2 ^ 19 + off)
def fJ (op off : Nat) : Word := BitVec.ofNat 32 (op * 2 ^ 24 + off)
def fE (op d a sub ta x : Nat) : Word := BitVec.ofNat 32 (op * 2 ^ 24 + d * 2 ^ 17 + a * 2 ^ 10 + sub * 16 + ta * 8 + x)
def fM (op d a sz off ta k : Nat) : Word :=
  BitVec.ofNat 32 (op * 2 ^ 24 + d * 2 ^ 17 + a * 2 ^ 10 + sz * 2 ^ 8 + off * 4 + ta * 2 + k)
def fS (op d csr x : Nat) : Word := BitVec.ofNat 32 (op * 2 ^ 24 + d * 2 ^ 17 + csr * 32 + x)

/-- Every word decodes to its instruction. -/
def decodesTo (ps : List (Word × Instr)) : Bool := ps.all (fun p => decide ((decode p.1).toOption = some p.2))

/-- R356. -/
theorem test_decode_control : decodesTo [
    (0x01000000, .nop),
    (fC 0x02 0 0xA5C3 0, .mode 0xA5C3),
    (fC 0x03 0 0x2D 0, .modex 0x2D),
    (fJ 0x04 0xFFFFFE, .bra 0xFFFFFE),
    (fD 0x05 1 0 6 0x40001, .brc true false 6 0x40001),
    (fD 0x06 0 1 3 0x7FFFF, .brn true 3 0x7FFFF),
    (fC 0x07 6 0x8001 0, .call 6 0x8001),
    (fA 0x08 0 6 0 1 0 0, .ret 6 true),
    (fA 0x09 0 8 0 0 0 0, .jr 8 false),
    (fJ 0x0A 0x000012, .join 0x12),
    (fJ 0x0B 0, .yield),
    (fC 0x0C 0 0xFFFF 0, .sleep 0xFFFF),
    (fJ 0x0D 0, .stop),
    (fC 0x0E 0 7 0, .bar 7),
    (fC 0x0F 0 5 0, .barc 5),
    (fC 0x10 0 4 0, .barw 4),
    (fC 0x11 0 (2 * 2 ^ 14 + 0x3FFF) 0, .waitp .render 0x3FFF),
    (fJ 0x12 0, .settle)] = true := by decide +kernel

/-- R383. -/
theorem test_decode_integer : decodesTo [
    (fA 0x20 3 5 119 1 0 0, .add 3 5 119 true false),
    (fA 0x21 3 5 119 0 1 0, .sub 3 5 119 false true),
    (fA 0x22 3 5 119 1 0 0, .mul 3 5 119 true false),
    (fA 0x23 3 5 119 1 0 1, .mad 3 5 119 true false true),
    (fA 0x24 3 5 119 1 0 0, .min 3 5 119 true false),
    (fA 0x25 3 5 119 1 0 0, .max 3 5 119 true false),
    (fA 0x26 3 5 0 1 0 0, .abs 3 5 true),
    (fA 0x27 3 5 0 1 0 0, .neg 3 5 true),
    (fE 0x28 3 5 0x15 1 6, .cmp 3 5 true .ge true 6),
    (fE 0x29 3 5 0x01 0 2, .sel 3 5 true false 2),
    (fB 0x2A 3 5 0x80 1 0, .addi 3 5 0x80 true),
    (fC 0x2B 127 0xBEEF 0, .movl 127 0xBEEF),
    (fC 0x2C 3 0x1234 1, .movh 3 0x1234 true),
    (fA 0x2D 3 5 0 1 0 0, .mov 3 5 true),
    (fA 0x2E 3 5 119 0 1 1, .clamp 3 5 119 false true true),
    (fA 0x30 3 5 119 1 0 0, .mulh 3 5 119 true false),
    (fA 0x31 3 5 119 1 0 0, .div 3 5 119 true false),
    (fA 0x32 3 5 119 1 0 0, .rem 3 5 119 true false),
    (fA 0x33 4 5 119 1 0 1, .addc 4 5 119 true false true),
    (fA 0x34 4 5 119 1 0 0, .subb 4 5 119 true false false),
    (fA 0x35 3 5 119 1 0 0, .and 3 5 119 true false),
    (fA 0x36 3 5 119 1 0 0, .or 3 5 119 true false),
    (fA 0x37 3 5 119 1 0 0, .xor 3 5 119 true false),
    (fA 0x38 3 5 119 1 0 0, .andn 3 5 119 true false),
    (fA 0x39 3 5 0 1 0 0, .not 3 5 true),
    (fA 0x3A 3 5 119 1 0 0, .shl 3 5 119 true false),
    (fA 0x3B 3 5 119 1 0 0, .shr 3 5 119 true false),
    (fA 0x3C 3 5 119 1 0 0, .rot 3 5 119 true false),
    (fB 0x3D 3 5 63 1 0, .shli 3 5 63 true),
    (fB 0x3E 3 5 31 0 0, .shri 3 5 31 false),
    (fB 0x3F 3 5 0xF0 1 0, .andi 3 5 0xF0 true),
    (fB 0x40 3 5 0x0F 0 0, .ori 3 5 0x0F false),
    (fB 0x41 3 5 0xFF 1 0, .xori 3 5 0xFF true),
    (fA 0x42 3 5 119 1 0 0, .bfe 3 5 119 true false),
    (fA 0x43 3 5 119 1 0 1, .bfi 3 5 119 true false true),
    (fA 0x44 3 5 0 1 0 0, .popc 3 5 true),
    (fA 0x45 3 5 0 1 0 0, .clz 3 5 true),
    (fA 0x46 3 5 0 1 0 0, .ctz 3 5 true),
    (fA 0x47 3 5 0 1 0 0, .brev 3 5 true),
    (fA 0x48 3 5 119 1 0 1, .perm 3 5 119 true false true),
    (fE 0x49 4 5 0x0B 1 0, .lea 4 5 true 3 true)] = true := by decide +kernel

/-- R404. -/
theorem test_decode_float : decodesTo [
    (fA 0x60 3 5 0 1 0 0, .rcp 3 5 true),
    (fA 0x61 3 5 0 1 0 0, .rsq 3 5 true),
    (fA 0x62 3 5 0 1 0 0, .sqrt 3 5 true),
    (fA 0x63 3 5 0 1 0 0, .exp2 3 5 true),
    (fA 0x64 3 5 0 1 0 0, .log2 3 5 true),
    (fA 0x65 3 5 0 1 0 0, .sin 3 5 true),
    (fA 0x66 3 5 0 1 0 0, .cos 3 5 true),
    (fA 0x67 3 5 0 1 0 0, .fract 3 5 true),
    (fA 0x68 3 5 0 1 0 0, .rnd 3 5 true),
    (fA 0x69 3 5 119 1 0 0, .ldexp 3 5 119 true false),
    (fA 0x6A 3 5 0 1 0 0, .frexpm 3 5 true),
    (fA 0x6B 3 5 0 1 0 0, .frexpe 3 5 true),
    (fE 0x6C 2 5 0x2A 1 7, .fpClass .neg 5 0x2A true 7),
    (fE 0x6D 3 5 0x12 1 0, .cvt 3 5 .crumb8x4 true),
    (fA 0x6E 3 6 0 1 0 0, .pack 3 6 true),
    (fA 0x6F 4 5 0 1 0 0, .unpack 4 5 true),
    (fA 0x70 3 5 119 1 0 0, .copysign 3 5 119 true false),
    (fA 0x72 3 5 119 1 0 1, .dot2 3 5 119 true false true)] = true := by decide +kernel

/-- R372. -/
theorem test_decode_lanes : decodesTo [
    (fA 0x80 3 5 119 1 0 0, .shfl 3 5 119 true false),
    (fA 0x81 3 5 119 1 0 0, .shflx 3 5 119 true false),
    (fA 0x82 3 5 119 1 0 0, .shflu 3 5 119 true false),
    (fA 0x83 3 5 119 1 0 0, .shfld 3 5 119 true false),
    (fE 0x84 5 0 0x0A 0 3, .pfold 5 true .eqv 3),
    (fE 0x85 3 0 0x08 0 6, .ballot 3 true 6),
    (fA 0x86 3 5 0 1 0 0, .rdfirst 3 5 true),
    (fA 0x87 3 5 119 1 0 0, .rdlane 3 5 119 true false),
    (fA 0x88 3 5 119 1 0 1, .wrlane 3 5 119 true false true),
    (fA 0x89 3 5 0 1 0 0, .matchLanes 3 5 true),
    (fE 0x8A 3 5 0x02 1 0, .reduce 3 5 .max true),
    (fE 0x8B 3 5 0x0D 1 0, .scan 3 5 true .xor true),
    (fA 0x8C 3 5 119 1 0 0, .aff 3 5 119 true false),
    (fA 0x8D 3 5 0 1 0 0, .shape 3 5 true),
    (fA 0x8E 3 5 0 1 0 0, .gen 3 5 true),
    (fA 0x8F 3 5 0 1 0 0, .uni 3 5 true)] = true := by decide +kernel

/-- R420. -/
theorem test_decode_memory : decodesTo [
    (fM 0xA0 4 6 2 0x3F 1 0, .ld 4 6 .b64 0x3F true),
    (fM 0xA1 8 6 3 0x3F 1 1, .st 8 6 .b128 0x3F true true),
    (fM 0xA2 3 6 1 0x21 0 0, .ldb 3 6 true 0x21 false),
    (fM 0xA3 3 6 0 0x1F 1 1, .stb 3 6 0x1F true true),
    (fM 0xA4 4 5 1 0x3F 1 0, .lds 4 5 .b32 0x3F true),
    (fM 0xA5 4 5 0 0x3F 1 1, .sts 4 5 .b16 0x3F true true),
    (fM 0xA6 4 6 2 0x3F 1 0, .ldw 4 6 .b64 0x3F true),
    (fM 0xA7 4 6 1 0x3F 1 0, .stw 4 6 .b32 0x3F true false),
    (fE 0xA8 4 6 0x31 1 1, .atom 4 6 true .umin true true),
    (fE 0xA9 3 6 0x0A 0 0, .red 3 6 .fadd false false),
    (fE 0xAA 3 5 0x27 1 0, .atoms 3 5 true .cas true false),
    (fM 0xAB 0 6 3 0x02 1 0, .pref 6 .b128 0x02 true),
    (fM 0xAC 4 6 2 0x3F 1 0, .ldone 4 6 .b64 0x3F true),
    (fB 0xAD 3 5 1 1 0, .wopen 3 5 true true),
    (fA 0xAE 0 5 0 1 0 0, .wclose 5 true),
    (fC 0xC0 0 6 0, .fence .package),
    (fA 0xC1 0 6 119 1 0 0, .waitc 6 119 true false),
    (fA 0xC2 3 5 0 1 0 0, .ticket 3 5 true),
    (fA 0xC3 0 5 0 1 0 0, .serve 5 true),
    (fA 0xC4 0 5 119 0 1 0, .waitt 5 119 false true),
    (fB 0xC5 0 5 0xFE 1 0, .taskdec 5 0xFE true)] = true := by decide +kernel

/-- R459. -/
theorem test_decode_matrix : decodesTo [
    (fA 0xD0 0 5 0 1 0 0, .mcfg 5 true),
    (fA 0xD1 0 5 0 1 0 0, .mma 5 true),
    (fA 0xD2 0 5 0 1 0 0, .mloop 5 true),
    (fA 0xD3 3 5 119 1 0 0, .mrd 3 5 119 true false),
    (fA 0xD4 3 5 119 1 0 1, .mwr 3 5 119 true false true),
    (fA 0xD5 0 5 0 1 0 0, .mclr 5 true),
    (fE 0xD6 3 5 0x0A 1 0, .mcvt 3 5 .bf16x2 true),
    (fA 0xD7 0 5 0 1 0 0, .copy 5 true),
    (fA 0xD8 0 5 0 1 0 0, .copyt 5 true)] = true := by decide +kernel

/-- R468. -/
theorem test_decode_render : decodesTo [
    (fA 0xE0 0 5 0 1 0 0, .bin 5 true),
    (fA 0xE1 0 5 0 1 0 0, .dice 5 true),
    (fM 0xE2 4 5 2 0x3F 1 0, .gld 4 5 .b64 0x3F true),
    (fM 0xE3 4 5 1 0x3F 1 1, .gst 4 5 .b32 0x3F true true),
    (fA 0xE4 3 5 119 1 0 0, .rast5 3 5 119 true false),
    (fA 0xE5 3 5 119 1 0 0, .rast3 3 5 119 true false),
    (fA 0xE6 4 6 0 1 0 1, .swr 4 6 true true),
    (fA 0xE7 0 5 0 1 0 0, .resolve 5 true),
    (fA 0xE8 4 8 10 1 0 0, .trace 4 8 10 true false),
    (fA 0xE9 3 5 0 0 0 1, .regroup 3 5 false true),
    (fA 0xEA 0 6 0 1 0 0, .enq 6 true),
    (fA 0xEB 4 6 8 1 0 0, .sample 4 6 8 true false),
    (fA 0xEC 4 6 8 1 0 0, .sampleg 4 6 8 true false),
    (fA 0xED 3 6 0 1 0 0, .bktOpen 3 6 true),
    (fA 0xED 0 5 1 1 0 0, .bktSeal 5 true),
    (fA 0xED 3 5 2 0 0 0, .bktClaim 3 5 false),
    (fA 0xED 3 5 3 1 0 0, .bktClose 3 5 true),
    (fA 0xED 0 5 4 1 0 0, .bktFree 5 true)] = true := by decide +kernel

/-- R488. -/
theorem test_decode_system : decodesTo [
    (fA 0xF0 3 6 119 1 0 1, .xst 3 6 119 true false true),
    (fA 0xF1 0 6 0 1 0 0, .present 6 true),
    (fS 0xF2 3 0x029 0, .csrr 3 0x029),
    (fS 0xF3 3 0x010 1, .csrw 3 0x010 true),
    (fC 0xF4 0 0xFFFF 0, .trap 0xFFFF),
    (fC 0xF5 0 1 0, .rft true),
    (fA 0xF6 0 6 0 1 0 0, .save 6 true),
    (fA 0xF7 0 6 0 0 0 0, .rest 6 false)] = true := by decide +kernel

/-- Words that no row gives a meaning: the all-zero and all-ones words (R344), a trap bit on a field that is not read (R340), a
`brn` with u = 1 and a `modex` above bit 5 (R340), codes that are not assigned (R372, R404, R429), and a bucket operation above 4. -/
theorem test_decode_refuses :
    [0, 0xFFFFFFFF, fA 0x26 3 5 0 0 1 0, fD 0x06 1 0 0 4, fC 0x03 0 0x40 0, fE 0x8A 3 5 6 0 0, fE 0x8A 3 5 8 0 0, fE 0x84 8 0 0 0 0,
      fE 0x84 0 0 3 0 0, fE 0x6C 3 5 1 0 0, fE 0x6D 3 5 0x06 0 0, fE 0x6D 3 5 0x20 0 0, fE 0xA9 3 6 0x06 0 0, fE 0xA8 3 6 0x0B 0 0,
      fE 0xA8 3 6 0 0 2, fM 0xA2 3 6 2 0 0 0, fM 0xA3 3 6 1 0 0 0, fC 0xC0 0 8 0, fC 0x0E 0 8 0, fB 0xAD 3 5 2 0 0, fC 0xF5 0 2 0,
      fA 0xED 3 5 5 0 0 0, fS 0xF2 3 0 1, fB 0x3D 3 5 64 0 0, fE 0x28 3 5 8 0 0].all (fun w => (decode w).toOption.isNone) = true := by
  decide +kernel

/-! ### Terms that WellFormed refuses, one for each check -/

/-- `red` has no `xchg` and no `cas` (R429). -/
theorem test_wellFormed_red : [Instr.red 3 6 .xchg false false, .red 3 6 .cas false true].all (fun i => !i.wellFormed) = true ∧
    (Instr.red 3 6 .fadd false false).wellFormed = true := by decide +kernel

/-- Dies, clusters, cores, links, directions, fabric and display ports, devices of a peer. -/
theorem test_wellFormed_places : [Instr.diceService 4 0, .diceService 0 16, .remainingCountUpdate 4 0, .remainingCountUpdate 0 4, .stealServe 4,
    .stealComplete 4, .queueRowLaunch 1 4 0, .rowAgeLimit 1 4 0, .leaveGrant 4, .heatFlush 4 0, .oppPathSwitch 4, .thermalThrottle 4,
    .thermalThrottleEnd 4, .ownershipRequest 256 0, .ownershipGrant 256 0, .invalidationAcknowledgement 256 0, .activeMessage 256,
    .traceBurstIdle 256, .dieLinkFlitCrcFail 8, .linkRetrain 8, .linkRetrainDone 8, .linkOutOfService 8, .linePacketSend ⟨16, 0, 1, 0, false⟩ 0,
    .linePacketSend ⟨0, 5, 1, 0, false⟩ 0, .linePacketSend ⟨0, 0, 5, 0, false⟩ 0, .linePacketSend ⟨0, 0, 1, 4, false⟩ 0,
    .linePacketReceive ⟨16, false⟩, .resync 16, .cumulativeAcknowledgement 16 0, .dlctlWrite 16 0, .fabricFlitCrcFail 8, .dpctlWrite 4 0,
    .dpLinkTrained 4, .dpLinkLost 4, .line0Start 4, .latchLine 4, .bandWindowOpen 4 0, .bandWindowOpen 0 512, .bandDeadline 4 0,
    .bandDeadline 0 512, .genlockLocked ⟨4, 0, 0, 0⟩, .genlockLocked ⟨0, 2, 0, 0⟩, .genlockLost 4, .frouteWrite 64 0].all (fun i => !i.wellFormed) = true := by decide +kernel

/-- Functions, queues, devices and codes. -/
theorem test_wellFormed_functions : [Instr.frameSealEffect 512 0 0, .frameSealEffect 0 4 0, .frameSealEffect 0 0 4, .invalidate 512, .invalidateDone 512, .faultPost 512,
    .translationResume 512 0, .frheadWrite 512 0, .vfFunctionLevelReset 512, .vfbindWrite 512 0, .taskallotWrite 512 0, .vfmodeWrite 512 0,
    .boothallotWrite 512 0, .savecntWrite 512 0, .doorbellWrite 512 0 0, .doorbellWrite 0 64 0, .tailLineInvalidate 512 0,
    .tailLineInvalidate 0 64, .queueEnable 512 0, .queueEnable 0 64, .destroy 512 0, .destroy 0 64, .abort 512 0, .abort 0 64, .resume 512 0,
    .resume 0 64, .abortDone 512 0, .abortDone 0 64, .ackedWrite 512 0 0, .ackedWrite 0 64 0, .launch 512 0, .launch 0 64, .signal 512 0,
    .signal 0 64, .waitmem 512 0, .waitmem 0 64, .counter 512 0, .counter 0 64, .nopRecord 512 0, .nopRecord 0 64, .recordStart 512 0 0,
    .recordStart 0 64 0, .completionWrite 512 0, .completionWrite 0 64, .badOpRecord 512 0, .badOpRecord 0 64, .patrolScrub 0 69,
    .securityAlarm 3, .mailboxBadCommand 1, .mailboxBadCommand 5, .mailboxBadCommand (2 ^ 32)].all (fun i => !i.wellFormed) = true := by
  decide +kernel

/-- Values of registers, and payloads. -/
theorem test_wellFormed_values : [Instr.mrtailWrite (2 ^ 32), .dlctlWrite 0 (2 ^ 32), .frouteWrite 0 (2 ^ 32), .dpctlWrite 0 (2 ^ 32),
    .doorbellWrite 0 0 (2 ^ 32), .ackedWrite 0 0 (2 ^ 32), .vfbindWrite 0 (2 ^ 32), .shareEntryWrite 0 (2 ^ 32), .taskallotWrite 0 (2 ^ 32),
    .vfmodeWrite 0 (2 ^ 32), .boothallotWrite 0 (2 ^ 32), .savecntWrite 0 (2 ^ 32), .registerWrite 0 (2 ^ 32), .frheadWrite 0 (2 ^ 32),
    .xstArrival 0 (List.replicate 33 0), .hostCxlCacheAccess 0 true (List.replicate 129 0), .hostCxlMemAccess 0 true (List.replicate 129 0),
    .bar2Access 0 true (List.replicate 129 0)].all (fun i => !i.wellFormed) = true := by decide +kernel

/-! ### What single instructions do on the small state: the values are worked out by hand from the rules named -/

/-- The group after an instruction. -/
def ran (i : Instr) (g : Group) : Group := ((wentOn (exec i (wAt g))).map (fun s => s.groups.headD wG)).getD wG
/-- The word of a name in a lane after an instruction, on names that hold uniform words. -/
def word (i : Instr) (xs : List (RegName × Word)) (d : RegName) (l : Nat) : Word := (ran i (gWith xs)).word d l
/-- The same with MODE.TYPE set (R343). -/
def typed (t : Word) (i : Instr) (xs : List (RegName × Word)) (d : RegName) (l : Nat) : Word :=
  (ran i { gWith xs with mode := t <<< 5 }).word d l

/-- R387: INT32 sums wrap. -/
theorem test_add_wraps : word (.add 3 5 6 false false) [(5, 0xFFFFFFFF), (6, 2)] 3 15 = 1 := by decide +kernel
/-- R387: a − b, not b − a. -/
theorem test_sub_order : word (.sub 3 5 6 false false) [(5, 2), (6, 5)] 3 0 = 0xFFFFFFFD := by decide +kernel
/-- R387: the low word of a product. -/
theorem test_mul_low : word (.mul 3 5 6 false false) [(5, 0x10001), (6, 0x10001)] 3 0 = 0x20001 := by decide +kernel
/-- R387: d + a × b, where d is a source too. -/
theorem test_mad_reads_d : word (.mad 3 5 6 false false false) [(3, 10), (5, 3), (6, 4)] 3 0 = 22 := by decide +kernel
/-- R341: the immediate of addi is signed. -/
theorem test_addi_signed : word (.addi 3 5 0x80 false) [(5, 1)] 3 0 = 0xFFFFFF81 := by decide +kernel
/-- R395: the lower half stays. -/
theorem test_movh_keeps_lower_half : word (.movh 3 0x1234 false) [(3, 0xAAAA5555)] 3 0 = 0x12345555 := by decide +kernel
/-- R389: signed under INT32, unsigned under UINT32. -/
theorem test_mulh_signed : word (.mulh 3 5 6 false false) [(5, 0xFFFFFFFF), (6, 2)] 3 0 = 0xFFFFFFFF := by decide +kernel
theorem test_mulh_unsigned : typed 1 (.mulh 3 5 6 false false) [(5, 0xFFFFFFFF), (6, 2)] 3 0 = 1 := by decide +kernel
/-- R390: the remainder has the sign of a. -/
theorem test_rem_sign : word (.rem 3 5 6 false false) [(5, 0xFFFFFFF9), (6, 2)] 3 0 = 0xFFFFFFFF := by decide +kernel
/-- R388: min by signedness. -/
theorem test_min_signed : word (.min 3 5 6 false false) [(5, 0xFFFFFFFF), (6, 1)] 3 0 = 0xFFFFFFFF := by decide +kernel
theorem test_min_unsigned : typed 1 (.min 3 5 6 false false) [(5, 0xFFFFFFFF), (6, 1)] 3 0 = 1 := by decide +kernel
/-- R388: min(max(d, a), b) is b when a exceeds b. -/
theorem test_clamp_crossed : word (.clamp 3 5 6 false false false) [(3, 5), (5, 9), (6, 4)] 3 0 = 4 := by decide +kernel
/-- R397: a and not b. -/
theorem test_andn_order : word (.andn 3 5 6 false false) [(5, 0xF0F0), (6, 0xFF00)] 3 0 = 0xF0 := by decide +kernel
/-- R398: shr is arithmetic under INT32 and logical under UINT32. -/
theorem test_shr_arithmetic : word (.shri 3 5 31 false) [(5, 0x80000000)] 3 0 = 0xFFFFFFFF := by decide +kernel
theorem test_shr_logical : typed 1 (.shri 3 5 31 false) [(5, 0x80000000)] 3 0 = 1 := by decide +kernel
/-- R398: rot turns left. -/
theorem test_rot_left : word (.rot 3 5 6 false false) [(5, 0x80000001), (6, 1)] 3 0 = 3 := by decide +kernel
/-- R400: counts of a word, and its bits reversed. -/
theorem test_popc : word (.popc 3 5 false) [(5, 0xF00000FF)] 3 0 = 12 := by decide +kernel
theorem test_clz : word (.clz 3 5 false) [(5, 0x00010000)] 3 0 = 15 := by decide +kernel
theorem test_ctz : word (.ctz 3 5 false) [(5, 0x00010000)] 3 0 = 16 := by decide +kernel
theorem test_brev : word (.brev 3 5 false) [(5, 0x80000002)] 3 0 = 0x40000001 := by decide +kernel
/-- R310, R387: the two halves of a packed word do not carry into each other. -/
theorem test_add_packed : typed 2 (.add 3 5 6 false false) [(5, 0x0001FFFF), (6, 0x00010001)] 3 0 = 0x00020000 := by decide +kernel
/-- R384: under INT64 a pair carries from its first name into its second. -/
theorem test_add_pair : typed 4 (.add 4 6 8 false false) [(6, 0xFFFFFFFF), (7, 1), (8, 1), (9, 2)] 5 0 = 4 := by decide +kernel
/-- FP32 (R391): 1.5 + 2.25 = 3.75, and 1 − 2 = −1. -/
theorem test_add_fp32 : typed 8 (.add 3 5 6 false false) [(5, 0x3FC00000), (6, 0x40100000)] 3 0 = 0x40700000 := by decide +kernel
theorem test_sub_fp32 : typed 8 (.sub 3 5 6 false false) [(5, 0x3F800000), (6, 0x40000000)] 3 0 = 0xBF800000 := by decide +kernel
/-- R310, R391: FP16X2 halves: 1 × 0.5 in the upper and 2 × 2 in the lower. -/
theorem test_mul_fp16x2 : typed 9 (.mul 3 5 6 false false) [(5, 0x3C004000), (6, 0x38004000)] 3 0 = 0x38004400 := by decide +kernel
/-- R415: INT32 −1 to FP32. -/
theorem test_cvt_int_to_fp32 : typed 8 (.cvt 3 5 .int32 false) [(5, 0xFFFFFFFF)] 3 0 = 0xBF800000 := by decide +kernel
/-- R415: FP32 2.75 to INT32 under RNE. -/
theorem test_cvt_fp32_to_int : word (.cvt 3 5 .fp32 false) [(5, 0x40300000)] 3 0 = 3 := by decide +kernel
/-- R410: 6 = 0.75 × 2^3. -/
theorem test_frexpm : typed 8 (.frexpm 3 5 false) [(5, 0x40C00000)] 3 0 = 0x3F400000 := by decide +kernel
theorem test_frexpe : typed 8 (.frexpe 3 5 false) [(5, 0x40C00000)] 3 0 = 3 := by decide +kernel
/-- R412: the sign of b on the magnitude of a. -/
theorem test_copysign : typed 8 (.copysign 3 5 6 false false) [(5, 0x40C00000), (6, 0x80000000)] 3 0 = 0xC0C00000 := by decide +kernel
/-- R393: the condition is on d against a. -/
theorem test_cmp_order : (ran (.cmp 3 5 false .lt false 2) (gWith [(3, 1), (5, 2)])).preds = [0, 0, 0xFFFF, 0, 0, 0, 0, 0] := by
  decide +kernel
/-- R376, R493: LANEID reads as the lane numbers. -/
theorem test_csrr_laneid : word (.csrr 3 0) [] 3 13 = 13 := by decide +kernel
/-- R380: the sum of one in 16 lanes. -/
theorem test_reduce_add : word (.reduce 3 5 .add false) [(5, 1)] 3 0 = 16 := by decide +kernel
/-- R380: an inclusive scan of one, in lane 4. -/
theorem test_scan_add : word (.scan 3 5 false .add false) [(5, 1)] 3 4 = 5 := by decide +kernel
/-- R381: base a and stride b. -/
theorem test_aff : word (.aff 3 5 6 false false) [(5, 100), (6, 7)] 3 3 = 121 := by decide +kernel
/-- R375: the mask of the lanes where a predicate holds. -/
theorem test_ballot : (ran (.ballot 3 true 0) wG).word 3 9 = 0xFFFF := by decide +kernel
/-- R357, R341: 4 × the signed offset, from the address of the instruction. -/
theorem test_bra_back : (ran (.bra 0xFFFFFE) wG).slotA.pc = 0xFF8 := by decide +kernel
/-- R360: the return address is the next word. -/
theorem test_call : (ran (.call 6 4) wG).slotA.pc = 0x1010 ∧ (ran (.call 6 4) wG).word 6 0 = 0x1004 := by decide +kernel
/-- R363: MODE[21:16] from imm16[5:0]. -/
theorem test_modex : (ran (.modex 0x21) { wG with mode := 0xFFFF }).mode = 0x21FFFF := by decide +kernel
/-- R293, R296, R496: the address of the trap is saved, and the slot goes to TRAPBASE. -/
theorem test_trap_enters : (ran (.trap 7) wG).slotA.pc = 0x2000 ∧ (ran (.trap 7) wG).trapPc = 0x1000 ∧ (ran (.trap 7) wG).inTrap = true := by
  decide +kernel
/-- R340, R344: an unassigned word enters the handler. -/
theorem test_illegal_opcode_enters : (ran (.illegalOpcode 0) wG).slotA.pc = 0x2000 ∧ (ran (.illegalOpcode 0) wG).trapPc = 0x1000 := by
  decide +kernel
/-- R495: csrw of MODE writes all but the reserved bits. -/
theorem test_csrw_mode : (ran (.csrw 3 0x010 false) (gWith [(3, 0xFFFFFFFF)])).mode = 0x3FFFFF := by decide +kernel


/-! ### The assembler: the kernel and the lines worked out under R354 -/

def fillSource : String :=
  "        .base     0x40_0000\n        .kernel   fill\n        .width    32\n        .team     1\n" ++
  "        .regs     general=2 affine=0 uniform=4\n        .args     2\n        .mode     int32\n" ++
  "        movi      v4, 0x7FC0_0000   ; uniform value to store\n        st.32     [v2 + 20], v4     ; v2, v3 hold A (R119)\n" ++
  "        stop\n        .kend\n"

/-- The words of R354's example: descriptor words 0 to 5, zeros, and the code at 0x40_0100. -/
theorem test_fill : (assemble fillSource.toList).map (fun m => (m.base, m.refused, m.bytes)) =
    some (0x400000, [], ([0x04000201, 0, 0x00020000, 0, 0x00100040, 0] ++ List.replicate 58 0 ++
      [0x2B080000, 0x2C08FF80, 0xA1080914, 0x0D000000]).flatMap (asmBytes 4)) := by decide +kernel

/-- One instruction line at 0x1030 with a label `top` at 0x1000, under the example's `.regs`. -/
def line (m : String) (sfx ops : List String) : Except AsmError (List Word) :=
  asmInstruction { general := 2, affine := 0, uniform := 4 } m
    { sfx := sfx, ops := ops.map String.toList, here := 0x1030, env := { labels := some [("top", 0x1000)], dataStart := 0 } }

def refusal {α : Type} : Except AsmError α → Option AsmError
  | .ok _ => none
  | .error e => some e

theorem ok_of {α : Type} {e : Except AsmError α} {v : α} (h : e.toOption = some v) : e = .ok v := by
  cases e <;> simp_all [Except.toOption]

/-- The verdicts of R354's table. -/
theorem test_refused_lines : refusal (line "st" ["32"] ["[v3 + 20]", "v4"]) = some .illegalRegister ∧
    refusal (line "st" ["32"] ["[v2 + 22]", "v4"]) = some .misaligned ∧
    refusal (line "st" ["32"] ["[v2 + 128]", "v4"]) = some .outOfRange ∧
    refusal (line "movl" [] ["v4!", "0"]) = some .illegalOpcode ∧
    refusal (line "shli" [] ["v1", "v0", "64"]) = some .outOfRange := by decide +kernel
theorem test_accepted_lines : (line "movh" [] ["v4!", "0x7FC0"]).toOption = some [0x2C08FF81] ∧
    (line "mode" [] ["fp32", " rne", " g=p1"]).toOption = some [0x02000212] ∧
    (line "brc" ["u"] ["p2", "top"]).toOption = some [0x0597FFF4] := by
  decide +kernel

theorem witness_AssemblerOutput : ∃ (k : AsmRegs) (m : String) (x : AsmText) (ws : List Word), m ≠ "movi" ∧
    asmInstruction k m x = .ok ws :=
  ⟨{ general := 2, affine := 0, uniform := 4 }, "movh", { sfx := [], ops := ["v4!".toList, "0x7FC0".toList], here := 0x1030, env := { labels := none, dataStart := 0 } },
    [0x2C08FF81], by decide, ok_of (by decide +kernel)⟩
theorem witness_AssemblerOutput_movi : ∃ (k : AsmRegs) (x : AsmText) (d e : List Char) (n : RegName) (v : Word), x.sfx = [] ∧
    x.ops = [d, e] ∧ asmReg d = .ok n ∧ k.accepts (asmOne n) = true ∧ x.imm 32 (-2147483648) 4294967295 e = .ok v :=
  ⟨{ general := 2, affine := 0, uniform := 4 },
    { sfx := [], ops := ["v4".toList, "0x7FC0_0000".toList], here := 0x1030, env := { labels := none, dataStart := 0 } },
    "v4".toList, "0x7FC0_0000".toList, 4, 0x7FC00000, rfl, rfl, ok_of (by decide +kernel), by decide +kernel,
    ok_of (by decide +kernel)⟩
theorem witness_AssemblerOutput_descriptor : ∃ (k : AsmKernel) (e h : Nat), k.width ≤ 2 ∧ k.team < 32 ∧ k.regs.general ≤ 120 ∧
    k.regs.affine ≤ 120 ∧ k.regs.uniform ≤ 120 ∧ k.scratch ≤ 4096 ∧ k.stack < 64 ∧ k.divstack < 64 ∧ k.copyq ≤ 32 ∧ k.acc ≤ 64 ∧
    k.argn ≤ 16 ∧ e % 4 = 0 ∧ e < 2 ^ 49 ∧ h % 4 = 0 ∧ h < 2 ^ 49 :=
  ⟨AsmKernel.opened 0 [] [], 2 ^ 49 - 4, 0, by decide +kernel⟩

end Sys2Proof.Tests
end

section
/-!
PROOFS. Fields of words, registers of PF 0 BAR0, and what an event that is served comes to: the rules that statements about
registers and events share.
-/

namespace Sys2Proof.Machine

/-! ### Fields of a number -/

theorem bits_lt (x lo n : Nat) : bits x lo n < 2 ^ n := Nat.mod_lt _ (Nat.two_pow_pos n)

theorem bits_zero (x n : Nat) : bits x 0 n = x % 2 ^ n := by rw [bits, Nat.pow_zero, Nat.div_one]

/-- The bits of a field, one by one. -/
theorem testBit_bits (x lo n i : Nat) : (bits x lo n).testBit i = (decide (i < n) && x.testBit (lo + i)) := by
  rw [bits, Nat.testBit_mod_two_pow, Nat.testBit_div_two_pow, Nat.add_comm]

/-- A field lies within the low bits that are kept. -/
theorem bits_mod_two_pow {k lo n : Nat} (x : Nat) (h : lo + n ≤ k) : bits (x % 2 ^ k) lo n = bits x lo n := by
  refine Nat.eq_of_testBit_eq fun i => ?_
  by_cases hi : i < n
  · simp [testBit_bits, hi, show lo + i < k by omega]
  · simp [testBit_bits, hi]

/-- What replacing a field makes of a number: the bits below the field, the new field, the bits above it. -/
theorem putBits_eq (x lo w v : Nat) :
    putBits x lo w v = 2 ^ lo * (2 ^ w * (x / 2 ^ lo / 2 ^ w) + v % 2 ^ w) + x % 2 ^ lo := by
  have hx : 2 ^ lo * (x / 2 ^ lo) + x % 2 ^ lo = x := Nat.div_add_mod x (2 ^ lo)
  have hd : 2 ^ w * (x / 2 ^ lo / 2 ^ w) + bits x lo w = x / 2 ^ lo := Nat.div_add_mod (x / 2 ^ lo) (2 ^ w)
  rw [← hd, Nat.mul_add] at hx
  rw [putBits, Nat.mul_add, Nat.mul_comm (bits x lo w), Nat.mul_comm (v % 2 ^ w)]
  omega

theorem bits_putBits_same (x lo w v : Nat) : bits (putBits x lo w v) lo w = v % 2 ^ w := by
  rw [putBits_eq, bits, Nat.mul_add_div (Nat.two_pow_pos lo), Nat.div_eq_of_lt (Nat.mod_lt _ (Nat.two_pow_pos lo)),
    Nat.add_zero, Nat.mul_add_mod_self_left, Nat.mod_mod]

theorem bits_putBits_below {l n lo : Nat} (x w v : Nat) (h : l + n ≤ lo) : bits (putBits x lo w v) l n = bits x l n := by
  rw [← bits_mod_two_pow (putBits x lo w v) h, putBits_eq, Nat.mul_add_mod_self_left, Nat.mod_mod, bits_mod_two_pow x h]

/-- A bit under the mask is replaced, and another kept. -/
theorem testBit_masked (old v m : Nat) {i : Nat} (hi : i < 32) :
    (masked old v m).testBit i = if m.testBit i then v.testBit i else old.testBit i := by
  have hones : Nat.testBit 0xFFFFFFFF i = true := by
    rw [show 0xFFFFFFFF = 2 ^ 32 - 1 from rfl, Nat.testBit_two_pow_sub_one, decide_eq_true hi]
  cases hm : m.testBit i <;> simp [masked, hones, hm]

/-- A field under the mask is that of the new value. -/
theorem bits_masked_written {l n m : Nat} (old v : Nat) (hl : l + n ≤ 32) (hm : ∀ i < n, m.testBit (l + i) = true) :
    bits (masked old v m) l n = bits v l n := by
  refine Nat.eq_of_testBit_eq fun i => ?_
  by_cases hi : i < n
  · simp [testBit_bits, testBit_masked old v m (show l + i < 32 by omega), hm i hi]
  · simp [testBit_bits, hi]

/-- A field beside the mask is that of the old value. -/
theorem bits_masked_kept {l n m : Nat} (old v : Nat) (hl : l + n ≤ 32) (hm : ∀ i < n, m.testBit (l + i) = false) :
    bits (masked old v m) l n = bits old l n := by
  refine Nat.eq_of_testBit_eq fun i => ?_
  by_cases hi : i < n
  · simp [testBit_bits, testBit_masked old v m (show l + i < 32 by omega), hm i hi]
  · simp [testBit_bits, hi]

/-! ### Registers of PF 0 BAR0 -/

theorem risingFrom_of_pairwise {lo : Nat} {m : List (Nat × Word)} (h : Rising m) (hlo : ∀ p ∈ m, lo ≤ p.1) : risingFrom lo m := by
  induction m generalizing lo with
  | nil => trivial
  | cons c m ih =>
    obtain ⟨hc, hm⟩ := List.pairwise_cons.mp h
    exact ⟨hlo c List.mem_cons_self, ih hm fun p hp => hc p.1 (List.mem_map_of_mem hp)⟩

theorem Rising.risingFrom {m : List (Nat × Word)} (h : Rising m) : risingFrom 0 m :=
  risingFrom_of_pairwise h fun _ _ => Nat.zero_le _

theorem State.pfGet_pfSet_same {s : State} (h : Rising s.pf) (off v : Nat) : (s.pfSet off v).pfGet off = v % 2 ^ 32 := by
  rw [State.pfGet, State.pfSet, lookup_assign _ _ h.risingFrom _ _ _ fun _ => rfl, if_pos rfl, BitVec.toNat_ofNat]

theorem State.pfGet_pfSet_ne {s : State} (h : Rising s.pf) {off o : Nat} (v : Nat) (ho : o ≠ off) :
    (s.pfSet off v).pfGet o = s.pfGet o := by
  rw [State.pfGet, State.pfSet, lookup_assign _ _ h.risingFrom _ _ _ fun e => absurd e ho, if_neg ho, State.pfGet]

/-- A field of a register that is written is the field of the value. -/
theorem State.bits_pfGet_pfSet {s : State} (h : Rising s.pf) (off v : Nat) {l n : Nat} (hl : l + n ≤ 32) :
    bits ((s.pfSet off v).pfGet off) l n = bits v l n := by
  rw [State.pfGet_pfSet_same h, bits_mod_two_pow v hl]

/-- A register holds the low 32 bits of what is written. -/
theorem State.pfSet_mod (s : State) (off v : Nat) : s.pfSet off (v % 2 ^ 32) = s.pfSet off v := by
  rw [State.pfSet, State.pfSet, show BitVec.ofNat 32 (v % 2 ^ 32) = BitVec.ofNat 32 v from BitVec.eq_of_toNat_eq (by simp)]

/-! ### What an event comes to -/

theorem event_some {f : State → Option State} {s t : State} (h : f s = some t) : event f s = .next t.wakeRetry.noteIdle := by
  rw [event, h, Option.getD_some]

/-- An event whose condition fails leaves the state as it is (log entry 14). -/
theorem event_none {f : State → Option State} {s : State} (h : f s = none) : event f s = .next s.wakeRetry.noteIdle := by
  rw [event, h, Option.getD_none]

/-- Outside RECOVERY a write of the host is served (R83). -/
theorem hostWrite_some {f : State → Option State} {s t : State} (hr : s.recovery = false) (h : f s = some t) :
    hostWrite f s = .next t.wakeRetry.noteIdle :=
  event_some (by simp [hr, h])

/-! ### What a request of an agent leaves alone -/

/-- A rollback changes groups, tile operations and the numbering of tickets alone (R268, R277). -/
theorem State.rollback_keeps {β : Type} (p : State → β)
    (hp : ∀ (s : State) gs ts n, p { s with groups := gs, tileOps := ts, nextId := n } = p s) (s : State) (g : Nat) (c : Bool) :
    p (s.rollback g c) = p s := by
  unfold State.rollback
  dsimp only
  split
  · split
    · exact hp s _ _ _
    · exact hp s _ _ _
  · exact hp s _ _ _

/-- What every step of a fold keeps, the fold keeps. -/
theorem foldl_keeps {α β : Type} (p : State → β) (f : State → α → State) (hf : ∀ s x, p (f s x) = p s) (xs : List α) (s : State) :
    p (xs.foldl f s) = p s := by
  induction xs generalizing s with
  | nil => rfl
  | cons x xs ih => exact (ih (f s x)).trans (hf s x)

/-- A request on lines does no more than roll groups back (R266). -/
theorem State.externalLines_keeps {β : Type} (p : State → β)
    (hp : ∀ (s : State) gs ts n, p { s with groups := gs, tileOps := ts, nextId := n } = p s) (s : State) (who : Option Nat)
    (ks : List LineKey) (write : Bool) : p (s.externalLines who ks write) = p s := by
  refine foldl_keeps p _ (fun s k => ?_) ks s
  refine foldl_keeps p _ (fun t g => ?_) s.groups s
  split
  · split
    · exact State.rollback_keeps p hp t g.id true
    · rfl
  · rfl

@[simp] theorem State.externalLines_mem (s : State) (who : Option Nat) (ks : List LineKey) (write : Bool) :
    (s.externalLines who ks write).mem = s.mem := State.externalLines_keeps State.mem (fun _ _ _ _ => rfl) s who ks write
@[simp] theorem State.externalLines_teams (s : State) (who : Option Nat) (ks : List LineKey) (write : Bool) :
    (s.externalLines who ks write).teams = s.teams := State.externalLines_keeps State.teams (fun _ _ _ _ => rfl) s who ks write

@[simp] theorem State.eccLine_teams (s : State) (line n : Nat) : (s.eccLine line n).teams = s.teams := by
  unfold State.eccLine
  dsimp only
  split
  · rfl
  · split
    · rfl
    · split <;> rfl

@[simp] theorem State.eccRead_teams (s : State) (lines : List Nat) : (s.eccRead lines).teams = s.teams :=
  foldl_keeps State.teams (fun s (p : Nat × Nat) => s.eccLine p.1 p.2) (fun s p => s.eccLine_teams p.1 p.2) _ s

@[simp] theorem State.wrote_mem (s : State) (who : Option Nat) (lines : List Nat) : (s.wrote who lines).mem = s.mem :=
  s.externalLines_mem who _ true
@[simp] theorem State.wrote_teams (s : State) (who : Option Nat) (lines : List Nat) : (s.wrote who lines).teams = s.teams :=
  s.externalLines_teams who _ true

/-- After a write of an agent no cache holds its lines (R279). -/
theorem State.wrote_line_not_cached {s : State} {who : Option Nat} {lines : List Nat} {x : CacheLine}
    (hx : x ∈ (s.wrote who lines).caches) : x.line ∉ lines := by
  simpa using (List.mem_filter.mp hx).2

@[simp] theorem State.readBy_mem (s : State) (lines : List Nat) : (s.readBy lines).mem = (s.eccRead lines).mem :=
  (s.eccRead lines).externalLines_mem none _ false
@[simp] theorem State.readBy_teams (s : State) (lines : List Nat) : (s.readBy lines).teams = s.teams :=
  ((s.eccRead lines).externalLines_teams none _ false).trans (s.eccRead_teams lines)

/-- After a read of an agent every copy of its lines is shared. -/
theorem State.readBy_line_shared {s : State} {lines : List Nat} {x : CacheLine} (hx : x ∈ (s.readBy lines).caches)
    (hl : x.line ∈ lines) : x.st = .shared := by
  obtain ⟨y, -, rfl⟩ := List.mem_map.mp hx
  by_cases hy : y.line ∈ lines
  · simp [hy]
  · simp [hy] at hl

end Sys2Proof.Machine
end

section
/-!
PROOFS. Events of the host (O52): accesses to memory, writes with checks of their own, plain writes and reads of registers.
-/

namespace Sys2Proof.Machine

/-! ### Accesses of the host to memory (R63, R64, R249, R289) -/

/-- A canonical address has its offset in the line from the address. -/
theorem canonPa_mod_line (m : PMode) (dev pa : Nat) : canonPa m dev pa % 128 = pa % 128 := by
  unfold canonPa
  split
  · dsimp only
    omega
  · rfl

/-- An access of the host at `a` that meets no obstacle but holders of its line: it lies within a line, start-up is complete,
and no range is locked. -/
structure HostMayAccess (s : State) (a : Nat) (data : List Byte) : Prop where
  some_data : data ≠ []
  in_line : a % 128 + data.length ≤ 128
  powered : s.mgmt.powered = true
  started : s.mgmt.stage = 5
  unlocked : s.locks = []

theorem HostMayAccess.canonPa {s : State} {a : Nat} {data : List Byte} (h : HostMayAccess s a data) (m : PMode) (dev : Nat) :
    HostMayAccess s (canonPa m dev a) data :=
  { h with in_line := by rw [canonPa_mod_line]; exact h.in_line }

/-- Such an access goes to the line, unless the line is held. -/
theorem HostMayAccess.hostAccess_eq {s : State} {a : Nat} {data : List Byte} (h : HostMayAccess s a data) (write : Bool)
    (hh : s.heldOff [lineOf a] write = false) :
    s.hostAccess a write data = some (if write then
      let s1 := if data.length = 128 then s.cleanLines [lineOf a] else s.eccRead [lineOf a]
      { s1 with mem := Memory.setBytes s1.mem a data }.wrote none [lineOf a]
    else s.readBy [lineOf a]) := by
  have hn : ¬ (data.length = 0 ∨ 128 < a % 128 + data.length ∨ s.mgmt.powered = false ∨ s.mgmt.stage < 5) := by
    simp [h.some_data, h.powered, h.started, h.in_line]
  have hk : s.locked .mem a data.length write = false := by simp [State.locked, h.unlocked]
  unfold State.hostAccess
  dsimp only
  rw [if_neg hn, hh, hk]
  cases write <;> simp

/-- A write of the host changes its bytes, and no cache holds the line after it (R249, R289). -/
theorem HostMayAccess.write {s : State} {a : Nat} {data : List Byte} (h : HostMayAccess s a data)
    (hh : s.heldOff [lineOf a] true = false) :
    ∃ t, s.hostAccess a true data = some t ∧ (∀ x ∈ t.caches, x.line ≠ lineOf a) ∧ t.teams = s.teams ∧
      t.mem = Memory.setBytes (if data.length = 128 then s else s.eccRead [lineOf a]).mem a data := by
  refine ⟨_, h.hostAccess_eq true hh, fun x hx => ?_, ?_, ?_⟩
  · simpa using State.wrote_line_not_cached hx
  · by_cases hn : data.length = 128 <;> simp [hn, State.cleanLines]
  · by_cases hn : data.length = 128 <;> simp [hn, State.cleanLines]

/-- A read of the host changes memory only where the code corrects it, and leaves every copy of the line shared (R25, R249). -/
theorem HostMayAccess.read {s : State} {a : Nat} {data : List Byte} (h : HostMayAccess s a data)
    (hh : s.heldOff [lineOf a] false = false) :
    ∃ t, s.hostAccess a false data = some t ∧ t.mem = (s.eccRead [lineOf a]).mem ∧
      (∀ x ∈ t.caches, x.line = lineOf a → x.st = .shared) ∧ t.teams = s.teams :=
  ⟨s.readBy [lineOf a], h.hostAccess_eq false hh, s.readBy_mem _,
    fun _ hx hl => State.readBy_line_shared hx (List.mem_singleton.mpr hl), s.readBy_teams _⟩

/-- Through CXL.mem and through BAR2 an access reaches the canonical address (R63, R64, R234). -/
theorem fires_hostAccess {s t : State} {a : Nat} {write : Bool} {data : List Byte} {i : Instr}
    (hi : i = Instr.hostCxlMemAccess a write data ∧ s.cxl = true ∨ i = .bar2Access a write data ∧ a < 2 ^ 37)
    (he : paExists .perDie 0 a = true) (hr : regionOf a = some .near ∨ regionOf a = some .far)
    (h : s.hostAccess (canonPa .perDie 0 a) write data = some t) : Fires i s t := by
  obtain ⟨rfl, hc⟩ | ⟨rfl, ha⟩ := hi
  · change execHostCxlMemAccess a write data s = _
    refine event_some ?_
    simp [hc, he, hr, h]
  · change execBar2Access a write data s = _
    refine event_some ?_
    simpa [he, h] using ha

/-- Through CXL.cache the host keeps the line of host memory that it has accessed (R289). -/
theorem fires_hostCxlCacheAccess {s t : State} {a : Nat} {write : Bool} {data : List Byte} (hc : s.cxl = true)
    (hr : regionOf a = some .host) (hh : s.heldOff [lineOf a] write = false) (h : s.hostAccess a write data = some t) :
    Fires (.hostCxlCacheAccess a write data) s (t.hostHolds (lineOf a) write) := by
  change execHostCxlCacheAccess a write data s = _
  refine event_some ?_
  simp [hc, hr, hh, h]

theorem State.mem_caches_or_eq_of_mem_hostHolds {s : State} {line : Nat} {write : Bool} {x : CacheLine}
    (hx : x ∈ (s.hostHolds line write).caches) :
    x ∈ s.caches ∨ x = { holder := 1024, line := line, st := if write then .modified else .shared } :=
  (List.mem_append.mp hx).imp (fun h => (List.mem_filter.mp h).1) List.mem_singleton.mp

theorem hostCxlCacheAccess_write {s : State} {a : Nat} {data : List Byte} (h : HostMayAccess s a data) (hc : s.cxl = true)
    (hr : regionOf a = some .host) (hh : s.heldOff [lineOf a] true = false) :
    ∃ t, Fires (.hostCxlCacheAccess a true data) s t ∧
      t.mem = Memory.setBytes (if data.length = 128 then s else s.eccRead [lineOf a]).mem a data ∧
      ∀ x ∈ t.caches, x.line = lineOf a → x.holder = 1024 ∧ x.st = .modified := by
  obtain ⟨t, ht, hcaches, -, hmem⟩ := h.write hh
  refine ⟨_, fires_hostCxlCacheAccess hc hr hh ht, hmem, fun x hx hl => ?_⟩
  obtain hold | rfl := State.mem_caches_or_eq_of_mem_hostHolds hx
  · exact absurd hl (hcaches x hold)
  · exact ⟨rfl, rfl⟩

theorem hostCxlCacheAccess_read {s : State} {a : Nat} {data : List Byte} (h : HostMayAccess s a data) (hc : s.cxl = true)
    (hr : regionOf a = some .host) (hh : s.heldOff [lineOf a] false = false) :
    ∃ t, Fires (.hostCxlCacheAccess a false data) s t ∧ t.mem = (s.eccRead [lineOf a]).mem ∧
      ∀ x ∈ t.caches, x.line = lineOf a → x.st = .shared := by
  obtain ⟨t, ht, hmem, hcaches, -⟩ := h.read hh
  refine ⟨_, fires_hostCxlCacheAccess hc hr hh ht, hmem, fun x hx hl => ?_⟩
  obtain hold | rfl := State.mem_caches_or_eq_of_mem_hostHolds hx
  · exact hcaches x hold hl
  · rfl

/-! ### Registers with ERR (R120, R303, R439) -/

/-- Below ERR a write that is refused changes nothing, and one that is taken gives the new value. -/
theorem State.bits_writeErr {s : State} (h : Rising s.pf) (off v new : Nat) (refused : Bool) {l n : Nat} (hl : l + n ≤ 31) :
    bits ((s.writeErr off v new refused).pfGet off) l n = bits (if refused then s.pfGet off else new) l n := by
  cases refused <;>
    exact (State.bits_pfGet_pfSet h off _ (by omega)).trans (bits_putBits_below _ 1 _ hl)

/-- A write that is refused sets ERR. -/
theorem State.err_writeErr_refused {s : State} (h : Rising s.pf) (off v new : Nat) :
    bits ((s.writeErr off v new true).pfGet off) 31 1 = 1 :=
  (State.bits_pfGet_pfSet h off _ (Nat.le_refl 32)).trans (bits_putBits_same _ 31 1 1)

/-! ### Allotments (R120, R439) -/

/-- Blocks `base` to `base + n` are refused to function `vf`: the run passes the limit, the function has a queue that is not
DISABLED, or the run meets the blocks from `first o`, `count o` of them, of another function `o`. -/
def State.runRefused (s : State) (vf limit base n : Nat) (first count : Nat → Nat) : Bool :=
  decide (limit < base + n) || s.vfBusy vf ||
    (List.range 512).any (fun o => decide (o ≠ vf) && runsMeet base n (first o) (count o))

theorem State.runRefused_of_busy {s : State} {vf limit base n : Nat} {first count : Nat → Nat} (h : s.vfBusy vf = true) :
    s.runRefused vf limit base n first count = true := by
  simp [State.runRefused, h]

theorem State.runRefused_of_beyond {s : State} {vf limit base n : Nat} {first count : Nat → Nat} (h : limit < base + n) :
    s.runRefused vf limit base n first count = true := by
  simp [State.runRefused, h]

/-- A run within the limit is taken while no other function has one. -/
theorem State.runRefused_of_alone {s : State} {vf limit base n : Nat} {first count : Nat → Nat} (hb : s.vfBusy vf = false)
    (hl : base + n ≤ limit) (ho : ∀ o, o < 512 → o ≠ vf → count o = 0) : s.runRefused vf limit base n first count = false := by
  have hmeet : ∀ o, o < 512 → o ≠ vf → runsMeet base n (first o) (count o) = false := fun o h512 hne => by
    simp [runsMeet, ho o h512 hne]
  simpa [State.runRefused, hb, hl] using hmeet

/-- COUNT and BASE of an allotment register. -/
theorem bits_allotment_count {n base k : Nat} (hn : n < 2 ^ k) (hk : k ≤ 16) : bits (n + base * 2 ^ 16) 0 k = n := by
  rw [← bits_mod_two_pow _ (show 0 + k ≤ 16 by omega), Nat.add_mul_mod_self_right, bits_mod_two_pow _ (by omega), bits_zero,
    Nat.mod_eq_of_lt hn]

theorem bits_allotment_base {n base k : Nat} (hn : n < 2 ^ 16) (hb : base < 2 ^ k) : bits (n + base * 2 ^ 16) 16 k = base := by
  rw [bits, Nat.add_mul_div_right _ _ (Nat.two_pow_pos 16), Nat.div_eq_of_lt hn, Nat.zero_add, Nat.mod_eq_of_lt hb]

/-- The state after TASKALLOT of a function is written. -/
def State.taskallotWritten (s : State) (vf v : Nat) (refused : Bool) : State :=
  s.writeErr (tasksOff vf) v (bits v 0 11 + bits v 16 10 * 2 ^ 16) refused

theorem fires_taskallotWrite {s : State} {vf : Nat} (v : Nat) (hvf : vf < 512) (hr : s.recovery = false) {refused : Bool}
    (h : s.runRefused vf 1024 (bits v 16 10) (bits v 0 11) (fun o => bits (s.taskallot o) 16 10)
      (fun o => bits (s.taskallot o) 0 11) = refused) :
    Fires (.taskallotWrite vf v) s (s.taskallotWritten vf v refused) := by
  subst h
  change execTaskallotWrite vf v s = _
  refine hostWrite_some hr ?_
  exact if_neg (Nat.not_le.mpr hvf)

theorem State.bits_taskallotWritten {s : State} (h : Rising s.pf) (vf v : Nat) (refused : Bool) {l n : Nat} (hl : l + n ≤ 31) :
    bits ((s.taskallotWritten vf v refused).taskallot vf) l n =
      bits (if refused then s.taskallot vf else bits v 0 11 + bits v 16 10 * 2 ^ 16) l n :=
  State.bits_writeErr h (tasksOff vf) v _ refused hl

/-- The state after BOOTHALLOT of a function is written. -/
def State.boothallotWritten (s : State) (vf v : Nat) (refused : Bool) : State :=
  let s1 := s.writeErr (boothsOff vf) v (bits v 0 9 + bits v 16 8 * 2 ^ 16) refused
  if refused then s1
  else { s1 with booths := s1.booths.filter (fun b =>
    !decide (16 * bits v 16 8 ≤ b.k ∧ b.k < 16 * (bits v 16 8 + bits v 0 9))) }

theorem fires_boothallotWrite {s : State} {vf : Nat} (v : Nat) (hvf : vf < 512) (hr : s.recovery = false) {refused : Bool}
    (h : s.runRefused vf 256 (bits v 16 8) (bits v 0 9) (fun o => bits (s.boothallot o) 16 8)
      (fun o => bits (s.boothallot o) 0 9) = refused) :
    Fires (.boothallotWrite vf v) s (s.boothallotWritten vf v refused) := by
  subst h
  change execBoothallotWrite vf v s = _
  refine hostWrite_some hr ?_
  exact if_neg (Nat.not_le.mpr hvf)

theorem State.pfGet_boothallotWritten (s : State) (vf v : Nat) (refused : Bool) (off : Nat) :
    (s.boothallotWritten vf v refused).pfGet off =
      (s.writeErr (boothsOff vf) v (bits v 0 9 + bits v 16 8 * 2 ^ 16) refused).pfGet off := by
  unfold State.boothallotWritten State.pfGet
  dsimp only
  split <;> rfl

theorem State.bits_boothallotWritten {s : State} (h : Rising s.pf) (vf v : Nat) (refused : Bool) {l n : Nat} (hl : l + n ≤ 31) :
    bits ((s.boothallotWritten vf v refused).boothallot vf) l n =
      bits (if refused then s.boothallot vf else bits v 0 9 + bits v 16 8 * 2 ^ 16) l n := by
  rw [State.boothallot, State.pfGet_boothallotWritten]
  exact State.bits_writeErr h (boothsOff vf) v _ refused hl

/-- While a queue of the function is not DISABLED, a write of either allotment sets ERR and changes nothing else. -/
theorem allotmentWrite_busy {s : State} {vf v : Nat} (hvf : vf < 512) (hpf : Rising s.pf) (hr : s.recovery = false)
    (hb : s.vfBusy vf = true) {i : Instr} {off : Nat}
    (hi : (i = .taskallotWrite vf v ∧ off = tasksOff vf) ∨ (i = .boothallotWrite vf v ∧ off = boothsOff vf)) :
    ∃ t, Fires i s t ∧ bits (t.pfGet off) 31 1 = 1 ∧ bits (t.pfGet off) 0 31 = bits (s.pfGet off) 0 31 ∧ t.booths = s.booths := by
  obtain ⟨rfl, rfl⟩ | ⟨rfl, rfl⟩ := hi
  · exact ⟨_, fires_taskallotWrite v hvf hr (State.runRefused_of_busy hb), State.err_writeErr_refused hpf _ _ _,
      State.bits_taskallotWritten hpf vf v true (by decide), rfl⟩
  · refine ⟨_, fires_boothallotWrite v hvf hr (State.runRefused_of_busy hb), ?_,
      State.bits_boothallotWritten hpf vf v true (by decide), rfl⟩
    rw [State.pfGet_boothallotWritten, State.err_writeErr_refused hpf]

/-- A run of task slots beyond the last is refused (R120). -/
theorem taskallotWrite_beyond {s : State} {vf v : Nat} (hvf : vf < 512) (hpf : Rising s.pf) (hr : s.recovery = false)
    (hl : 1024 < bits v 16 10 + bits v 0 11) :
    ∃ t, Fires (.taskallotWrite vf v) s t ∧ bits (t.pfGet (tasksOff vf)) 31 1 = 1 ∧ t.taskCount vf = s.taskCount vf ∧
      t.taskBase vf = s.taskBase vf := by
  refine ⟨_, fires_taskallotWrite v hvf hr (State.runRefused_of_beyond hl), State.err_writeErr_refused hpf _ _ _, ?_, ?_⟩
  · rw [State.taskCount, State.bits_taskallotWritten hpf vf v true (by decide), if_pos rfl, State.taskCount]
  · rw [State.taskBase, State.bits_taskallotWritten hpf vf v true (by decide), if_pos rfl, State.taskBase]

/-- A run of task slots that meets no other is taken (R120). -/
theorem taskallotWrite_taken {s : State} {vf v : Nat} (hvf : vf < 512) (hpf : Rising s.pf) (hr : s.recovery = false)
    (hb : s.vfBusy vf = false) (hl : bits v 16 10 + bits v 0 11 ≤ 1024) (ho : ∀ o, o < 512 → o ≠ vf → s.taskCount o = 0) :
    ∃ t, Fires (.taskallotWrite vf v) s t ∧ t.taskCount vf = 64 * bits v 0 11 ∧ t.taskBase vf = 64 * bits v 16 10 := by
  have hfree : ∀ o, o < 512 → o ≠ vf → bits (s.taskallot o) 0 11 = 0 := fun o h512 hne => by
    have := ho o h512 hne
    unfold State.taskCount at this
    omega
  have hn : bits v 0 11 < 2 ^ 11 := bits_lt v 0 11
  refine ⟨_, fires_taskallotWrite v hvf hr (State.runRefused_of_alone hb hl hfree), ?_, ?_⟩
  · rw [State.taskCount, State.bits_taskallotWritten hpf vf v false (by decide), if_neg Bool.false_ne_true,
      bits_allotment_count hn (by decide)]
  · rw [State.taskBase, State.bits_taskallotWritten hpf vf v false (by decide), if_neg Bool.false_ne_true,
      bits_allotment_base (by omega) (bits_lt v 16 10)]

/-- A run of booths that meets no other is taken, and its booths start at 0 (R439). -/
theorem boothallotWrite_taken {s : State} {vf v : Nat} (hvf : vf < 512) (hpf : Rising s.pf) (hr : s.recovery = false)
    (hb : s.vfBusy vf = false) (hl : bits v 16 8 + bits v 0 9 ≤ 256)
    (ho : ∀ o, o < 512 → o ≠ vf → bits (s.boothallot o) 0 9 = 0) :
    ∃ t, Fires (.boothallotWrite vf v) s t ∧ bits (t.boothallot vf) 0 9 = bits v 0 9 ∧
      bits (t.boothallot vf) 16 8 = bits v 16 8 ∧
      ∀ b ∈ t.booths, b.k < 16 * bits v 16 8 ∨ 16 * (bits v 16 8 + bits v 0 9) ≤ b.k := by
  have hn : bits v 0 9 < 2 ^ 9 := bits_lt v 0 9
  refine ⟨_, fires_boothallotWrite v hvf hr (State.runRefused_of_alone hb hl ho), ?_, ?_, fun b hm => ?_⟩
  · rw [State.bits_boothallotWritten hpf vf v false (by decide), if_neg Bool.false_ne_true, bits_allotment_count hn (by decide)]
  · rw [State.bits_boothallotWritten hpf vf v false (by decide), if_neg Bool.false_ne_true,
      bits_allotment_base (by omega) (bits_lt v 16 8)]
  · have hout := (List.mem_filter.mp hm).2
    simp only [Bool.not_eq_true', decide_eq_false_iff_not] at hout
    omega

/-! ### Modes and counts (R120, R303) -/

theorem fires_vfmodeWrite {s : State} {vf v : Nat} (hvf : vf < 512) (hr : s.recovery = false) (hb : s.vfBusy vf = false)
    (hv : bits v 0 2 ≠ 3) : Fires (.vfmodeWrite vf v) s (s.pfSet (tasksOff vf + 4) (bits v 0 2)) := by
  change execVfmodeWrite vf v s = _
  refine hostWrite_some hr ?_
  exact if_neg (by simp [hvf, hb, hv])

theorem fires_savecntWrite {s : State} {vf : Nat} (v : Nat) (hvf : vf < 512) (hr : s.recovery = false)
    (hb : s.vfBusy vf = false) {refused : Bool}
    (h : (List.range (bits v 0 16)).any (fun i => !s.slotSound vf (s.slotAddr vf i)) = refused) :
    Fires (.savecntWrite vf v) s (s.writeErr (saveBlock vf + 8) v (bits v 0 16) refused) := by
  subst h
  change execSavecntWrite vf v s = _
  refine hostWrite_some hr ?_
  exact if_neg (by simp [hvf, hb])

/-- A count of sound save slots is taken (R303). -/
theorem savecntWrite_taken {s : State} {vf v : Nat} (hvf : vf < 512) (hpf : Rising s.pf) (hr : s.recovery = false)
    (hb : s.vfBusy vf = false) (hs : ∀ i, i < bits v 0 16 → s.slotSound vf (s.slotAddr vf i) = true) :
    ∃ t, Fires (.savecntWrite vf v) s t ∧ t.saveCount vf = bits v 0 16 := by
  refine ⟨_, fires_savecntWrite v hvf hr hb (refused := false) (by simpa using hs), ?_⟩
  calc bits ((s.writeErr (saveBlock vf + 8) v (bits v 0 16) false).pfGet (saveBlock vf + 8)) 0 16
      = bits (bits v 0 16) 0 16 := State.bits_writeErr hpf _ _ _ false (by decide)
    _ = bits v 0 16 := by rw [bits_zero, Nat.mod_eq_of_lt (bits_lt v 0 16)]

/-- A count with a slot that is not sound is refused (R303). -/
theorem savecntWrite_refused {s : State} {vf v : Nat} (hvf : vf < 512) (hpf : Rising s.pf) (hr : s.recovery = false)
    (hb : s.vfBusy vf = false) (hs : ∃ i, i < bits v 0 16 ∧ s.slotSound vf (s.slotAddr vf i) = false) :
    ∃ t, Fires (.savecntWrite vf v) s t ∧ t.saveCount vf = s.saveCount vf ∧ bits (t.pfGet (saveBlock vf + 8)) 31 1 = 1 :=
  ⟨_, fires_savecntWrite v hvf hr hb (refused := true) (by simpa using hs),
    State.bits_writeErr hpf _ _ _ true (by decide), State.err_writeErr_refused hpf _ _ _⟩

/-! ### Reads of registers (R3, R68) -/

/-- RESUME of a function's translation faults is WO. -/
theorem readRegister_resume (s : State) {vf : Nat} (h : vf < 512) : s.readRegister (0x12001C + 0x40 * vf) = 0 := by
  rw [State.readRegister, if_pos (by omega), State.readPf, if_pos (by omega)]

/-- MRTAIL is WO. -/
theorem readRegister_mrtail (s : State) : s.readRegister 0x11400C = 0 := by
  rw [State.readRegister, if_pos (by decide), State.readPf, if_pos (by decide)]

theorem State.queueState_lt (s : State) (vf q : Nat) : s.queueState vf q < 8 := by
  unfold State.queueState
  split
  · decide
  · exact bits_lt _ 29 3

/-- QSTAT as the host reads it. -/
theorem readRegister_qstat (s : State) {vf q : Nat} (hvf : vf < 512) (hq : q < 64) :
    s.readRegister (2 ^ 32 + 2 ^ 20 * vf + 0x40 * q + 0x1C) = putBits (s.qGet vf q 0x1C) 29 3 (s.queueState vf q) := by
  have hf : (2 ^ 32 + 2 ^ 20 * vf + 0x40 * q + 0x1C - 2 ^ 32) / 2 ^ 20 = vf := by omega
  have ho : (2 ^ 32 + 2 ^ 20 * vf + 0x40 * q + 0x1C - 2 ^ 32) % 2 ^ 20 = 0x40 * q + 0x1C := by omega
  have hqq : (0x40 * q + 0x1C) / 0x40 = q := by omega
  have hreg : (0x40 * q + 0x1C) % 0x40 = 0x1C := by omega
  rw [State.readRegister, if_neg (by omega), if_neg (by omega), hf, ho, State.readVf, if_neg (by omega)]
  simp only [hqq, hreg]

/-! ### Plain writes of registers (R2, R3, R65, R83) -/

/-- Only a word is written, to a module with power, and in RECOVERY only to the mailbox. -/
theorem fires_registerWrite {s t : State} {off v : Nat} (hp : s.mgmt.powered = true) (hv : v < 2 ^ 32)
    (hr : s.recovery = true → 0x1000 ≤ off ∧ off < 0x2000) (hoff : off < 2 ^ 26) (h : s.writePf off v = some t) :
    Fires (.registerWrite off v) s t := by
  change execRegisterWrite off v s = _
  refine event_some ?_
  dsimp only
  have hrec : ¬ ((s.recovery && !decide (0x1000 ≤ off ∧ off < 0x2000)) = true) := by simpa using hr
  rw [if_neg (by simpa [hp] using hv), if_neg hrec, if_pos hoff, h]

/-- In RECOVERY a write to any register but the mailbox's is ignored (R83). -/
theorem fires_registerWrite_recovery {s : State} {off : Nat} (v : Nat) (hr : s.recovery = true)
    (hoff : off < 0x1000 ∨ 0x2000 ≤ off) : Fires (.registerWrite off v) s s := by
  have hrec : (s.recovery && !decide (0x1000 ≤ off ∧ off < 0x2000)) = true := by simp [hr]; omega
  change execRegisterWrite off v s = _
  refine event_none ?_
  dsimp only
  rw [if_pos hrec, ite_self]

theorem pfMasks_mailbox {off : Nat} (h4 : off % 4 = 0) (hlo : 0x1000 ≤ off) (hhi : off < 0x2000) :
    pfMasks off = (0xFFFFFFFF, 0) := by
  unfold pfMasks
  dsimp only
  rw [if_neg (by omega), if_pos (by omega), if_pos (by omega)]

theorem pfMasks_schedctl : pfMasks 0x112000 = (0xFFFFFF, 0) := by decide

/-- A register below the blocks of the functions without write-1-to-clear bits changes under its mask. -/
theorem State.writePf_masked {s : State} {off rw : Nat} (v : Nat) (hoff : off < 0x120000) (hm : pfMasks off = (rw, 0))
    (hrw : rw ≠ 0) : s.writePf off v = some (s.pfSet off (masked (s.pfGet off) v rw)) := by
  have hsg : off ≠ sgctl := fun e => absurd hoff (by rw [e]; decide)
  have hgl : off ≠ glctl := fun e => absurd hoff (by rw [e]; decide)
  have hfab : off ≠ faberr := fun e => absurd hoff (by rw [e]; decide)
  have hfree : s.frozen off = false := by
    rw [State.frozen, if_neg (by omega), if_neg (by omega), if_neg (by rw [hubSpace]; omega)]
  rw [State.writePf, if_neg hsg, if_neg hgl, if_neg hfab, if_neg (by omega), if_neg (by omega), if_neg (by omega), hm]
  have hlow : (masked (s.pfGet off) v rw &&& (0xFFFFFFFF ^^^ (v &&& 0))) = masked (s.pfGet off) v rw % 2 ^ 32 := by
    rw [Nat.and_zero, Nat.xor_zero, ← Nat.and_two_pow_sub_one_eq_mod]
  simp only [hrw, hfree, hlow, State.pfSet_mod, false_and, Bool.false_eq_true, or_self, if_false]

/-- A write of a register of the mailbox replaces it (R83). -/
theorem registerWrite_mailbox {s : State} {off v : Nat} (hpf : Rising s.pf) (hp : s.mgmt.powered = true) (hv : v < 2 ^ 32)
    (h4 : off % 4 = 0) (hlo : 0x1000 ≤ off) (hhi : off < 0x2000) :
    ∃ t, Fires (.registerWrite off v) s t ∧ t.pfGet off = v ∧ ∀ o, o ≠ off → t.pfGet o = s.pfGet o := by
  refine ⟨_, fires_registerWrite hp hv (fun _ => ⟨hlo, hhi⟩) (by omega)
    (State.writePf_masked v (by omega) (pfMasks_mailbox h4 hlo hhi) (by decide)), ?_,
    fun o ho => State.pfGet_pfSet_ne hpf _ ho⟩
  calc (s.pfSet off (masked (s.pfGet off) v 0xFFFFFFFF)).pfGet off
      = bits (masked (s.pfGet off) v 0xFFFFFFFF) 0 32 := by rw [State.pfGet_pfSet_same hpf, bits_zero]
    _ = bits v 0 32 := bits_masked_written _ v (by decide) (by decide)
    _ = v := by rw [bits_zero, Nat.mod_eq_of_lt hv]

/-- Of SCHEDCTL bits 0 to 23 are written, and the others kept (R3, R141). -/
theorem registerWrite_schedctl {s : State} {v : Nat} (hpf : Rising s.pf) (hp : s.mgmt.powered = true) (hv : v < 2 ^ 32)
    (hr : s.recovery = false) :
    ∃ t, Fires (.registerWrite 0x112000 v) s t ∧ bits (t.pfGet 0x112000) 0 24 = bits v 0 24 ∧
      bits (t.pfGet 0x112000) 24 8 = bits (s.pfGet 0x112000) 24 8 := by
  refine ⟨_, fires_registerWrite hp hv (fun h => absurd h (by simp [hr])) (by decide)
    (State.writePf_masked v (by decide) pfMasks_schedctl (by decide)), ?_, ?_⟩
  · rw [State.bits_pfGet_pfSet hpf _ _ (by decide), bits_masked_written _ v (by decide) (by decide)]
  · rw [State.bits_pfGet_pfSet hpf _ _ (by decide), bits_masked_kept _ v (by decide) (by decide)]

/-! ### The statement -/

/-- Settles O52: the accesses by what a host access does to its line, the writes by their register rules, the reads directly. -/
theorem hostEventsFire : Obligations.HostEventsFire := by
  intro s a vf v
  refine ⟨fun data hne hin hp hst hlk => ?_, fun hvf hpf hr => ⟨fun hb i off hi => ?_, fun hb => ⟨?_, ?_, ?_, ?_, ?_, ?_⟩⟩,
    fun q hvf hq => ⟨?_, ?_, ?_⟩, fun off hpf hp hv h4 => ⟨?_, ?_, ?_⟩⟩
  · have hacc : HostMayAccess s a data := ⟨hne, hin, hp, hst, hlk⟩
    refine ⟨?_, fun hc hr hh => hostCxlCacheAccess_write hacc hc hr hh, fun hc hr hh => hostCxlCacheAccess_read hacc hc hr hh⟩
    rintro c rfl he hr hh
    obtain ⟨t, ht, hwrite⟩ := (hacc.canonPa .perDie 0).write (hh true)
    obtain ⟨u, hu, hread⟩ := (hacc.canonPa .perDie 0).read (hh false)
    exact ⟨fun i hi => ⟨t, fires_hostAccess hi he hr ht, hwrite⟩, fun i hi => ⟨u, fires_hostAccess hi he hr hu, hread⟩⟩
  · exact allotmentWrite_busy hvf hpf hr hb hi
  · exact taskallotWrite_beyond hvf hpf hr
  · exact taskallotWrite_taken hvf hpf hr hb
  · exact boothallotWrite_taken hvf hpf hr hb
  · exact fires_vfmodeWrite hvf hr hb
  · exact savecntWrite_taken hvf hpf hr hb
  · exact savecntWrite_refused hvf hpf hr hb
  · exact readRegister_resume s hvf
  · exact readRegister_mrtail s
  · rw [readRegister_qstat s hvf hq, bits_putBits_same]
    exact Nat.mod_eq_of_lt (s.queueState_lt vf q)
  · exact registerWrite_mailbox hpf hp hv h4
  · exact fun hrec hoff => fires_registerWrite_recovery v hrec hoff
  · rintro hrec rfl
    exact registerWrite_schedctl hpf hp hv hrec

end Sys2Proof.Machine
end

section
/-!
PROOFS. Traps that halt a group (O22): the issue of an instruction that traps, what a halt leaves of the group, of its launch and
of memory, and the instructions that give DOUBLE in trap mode.
-/

namespace Sys2Proof.Machine

/-! ### The issue of an instruction that traps -/

theorem Issuing.group? {s : State} {g : Group} {b : Bool} (h : Issuing s g b) : s.group? g.id = some g := by
  rw [group?_id h.issues.here]
  exact h.issues.here

/-- Sources that are full and not poisoned neither trap nor hold up an instruction (R218, R299). -/
theorem Settled.srcs {g : Group} {srcs : List (RegName × Bool)} (h : Settled g (srcs.map (·.1))) :
    (srcs.any fun r => r.2 && !(g.reg r.1).full) = false ∧ (srcs.any fun r => !(g.reg r.1).full) = false ∧
      (srcs.any fun r => (g.reg r.1).poison) = false := by
  have hsrc : ∀ r ∈ srcs, (g.reg r.1).full = true ∧ (g.reg r.1).poison = false := fun r hr => h r.1 (List.mem_map_of_mem hr)
  refine ⟨?_, ?_, ?_⟩ <;> refine List.any_eq_false.mpr fun r hr => ?_ <;> simp [hsrc r hr]

/-- An instruction of the slot as a whole, with its sources, comes to the trap that its effect raises (R292). -/
theorem issueIn_slotOp_trap {s s' : State} {g : Group} {b : Bool} {t : Trap} {srcs : List (RegName × Bool)} {settles : Bool}
    {body : State → Group → Bool → Mask → Done} (h : Issuing s g b) (hs : Settled g (srcs.map (·.1)))
    (ht : settles = true → NoTrace g) (hb : body s g b (g.slot b).mask = .trap s' t) :
    (slotOp srcs [] true settles body).issueIn s g b = .trap s' t := by
  obtain ⟨htrap, hempty, hbad⟩ := hs.srcs
  have hlanes : ¬ (g.slot b).mask = 0#64 := h.lanes
  have htrace : ¬ (settles = true ∧ ∃ p ∈ g.producers, p.kind = .trace) := fun ⟨he, p, hp, hk⟩ => ht he p hp hk
  have hopen := fun o : Op => opensFull_not_issued s g o (.trap s' t) rfl
  simp [slotOp, Op.issueIn, Op.decodeCause, h.window, htrap, hempty, hbad, htrace, hlanes, State.shadowFull, hb, hopen]

/-- Such an instruction takes its trap (R295). -/
theorem issue_slotOp_trap {o : Group → Op} {s s' : State} {g g' : Group} {b : Bool} {t : Trap} {srcs : List (RegName × Bool)}
    {settles : Bool} {body : State → Group → Bool → Mask → Done} (h : Issuing s g b) (ho : o g = slotOp srcs [] true settles body)
    (hs : Settled g (srcs.map (·.1))) (ht : settles = true → NoTrace g) (hb : body s g b (g.slot b).mask = .trap s' t)
    (hg : s'.group? g.id = some g') : issue o s = .next (s'.takeTrap { g' with lastB := b } b t) := by
  unfold issue
  rw [h.issues.here, h.issues.slot]
  simp only [ho, issueIn_slotOp_trap h hs ht hb, State.conclude, h.window, hg, Option.isSome_none, Bool.false_eq_true, if_false]

/-! ### What the end of a group leaves alone -/

/-- `t` has the groups and the teams of `s` by their numbers, each team in its launch, and the launches and the memory of `s`. -/
structure SameTeams (s t : State) : Prop where
  groups : t.groups.map (·.id) = s.groups.map (·.id)
  teams : t.teams.map (fun x => (x.id, x.launch)) = s.teams.map (fun x => (x.id, x.launch))
  launches : t.launches = s.launches
  mem : t.mem = s.mem

theorem SameTeams.refl (s : State) : SameTeams s s := ⟨rfl, rfl, rfl, rfl⟩

theorem SameTeams.trans {s t u : State} (h : SameTeams s t) (h' : SameTeams t u) : SameTeams s u :=
  ⟨h'.groups.trans h.groups, h'.teams.trans h.teams, h'.launches.trans h.launches, h'.mem.trans h.mem⟩

theorem SameTeams.foldl {α : Type} {f : State → α → State} (hf : ∀ s x, SameTeams s (f s x)) (xs : List α) (s : State) :
    SameTeams s (xs.foldl f s) := by
  induction xs generalizing s with
  | nil => exact .refl s
  | cons x xs ih => exact (hf s x).trans (ih (f s x))

theorem SameTeams.group?_none {s t : State} {n : Nat} (h : SameTeams s t) (hn : s.group? n = none) : t.group? n = none := by
  have hmem : ∀ u : State, u.group? n = none ↔ n ∉ u.groups.map (·.id) := fun u => by simp [State.group?]
  rw [hmem, h.groups]
  exact (hmem s).mp hn

/-- A team is found in its launch as before. -/
theorem SameTeams.team? {s t : State} {n : Nat} {x : Team} (h : SameTeams s t) (hx : s.team? n = some x) :
    ∃ y, t.team? n = some y ∧ y.launch = x.launch := by
  have hfind : ∀ u : State, (u.team? n).map (·.launch) =
      ((u.teams.map (fun x => (x.id, x.launch))).find? (fun p => p.1 = n)).map (·.2) := fun u => by
    simp [State.team?, List.find?_map, Function.comp_def]
  have hmap : (t.team? n).map (·.launch) = some x.launch := by rw [hfind, h.teams, ← hfind, hx, Option.map_some]
  exact Option.map_eq_some_iff.mp hmap

theorem SameTeams.launch? {s t : State} (h : SameTeams s t) (n : Nat) : t.launch? n = s.launch? n := by
  rw [State.launch?, State.launch?, h.launches]

/-- A change of a team that leaves its number and its launch. -/
theorem sameTeams_modTeam (s : State) (n : Nat) {f : Team → Team} (hf : ∀ x, (f x).id = x.id ∧ (f x).launch = x.launch) :
    SameTeams s (s.modTeam n f) := by
  refine ⟨rfl, ?_, rfl, rfl⟩
  simp only [State.modTeam, List.map_map]
  refine List.map_congr_left fun x _ => ?_
  by_cases hx : x.id = n <;> simp [hx, hf x]

/-- The end of a barrier's phase changes barriers, pending bits and waits alone (R225). -/
theorem sameTeams_barrierCheck (s : State) (n k : Nat) : SameTeams s (s.barrierCheck n k) := by
  unfold State.barrierCheck
  split
  · exact .refl s
  · dsimp only
    split
    · refine ⟨?_, ?_, rfl, rfl⟩ <;> simp only [List.map_map] <;> refine List.map_congr_left fun x _ => ?_
      · by_cases hx : x.team = n <;> simp [hx]
      · by_cases hx : x.id = n <;> simp [hx]
    · exact .refl s

/-- The team of a group that has ended, which ends with its last group (R207, R251). -/
def State.closeTeam (s : State) (n : Nat) : State :=
  match s.team? n with
  | some t =>
    if t.size ≤ t.endedGroups.length then (s.modTeam t.id (fun t => { t with state := .ended })).closeWindows t.id else s
  | none => s

theorem sameTeams_closeWindows (s : State) (n : Nat) : SameTeams s (s.closeWindows n) := ⟨rfl, rfl, rfl, rfl⟩

theorem sameTeams_closeTeam (s : State) (n : Nat) : SameTeams s (s.closeTeam n) := by
  unfold State.closeTeam
  split
  · split
    · refine SameTeams.trans ?_ (sameTeams_closeWindows _ _)
      exact sameTeams_modTeam s _ fun _ => ⟨rfl, rfl⟩
    · exact .refl s
  · exact .refl s

def State.withoutGroup (s : State) (n : Nat) : State := { s with groups := s.groups.filter (fun x => x.id ≠ n) }

theorem State.withoutGroup_group? (s : State) (n : Nat) : (s.withoutGroup n).group? n = none := by
  simp [State.withoutGroup, State.group?]

/-- The end of a group without a pending fault, step by step (R207, R225). -/
theorem State.endGroup_eq (s : State) {g : Group} (hf : g.pathFault.find? (fun c => c ≠ 0) = none) :
    s.endGroup g = ((List.range 8).foldl (fun s k => s.barrierCheck g.team k)
      ((s.withoutGroup g.id).modTeam g.team (fun t => { t with endedGroups := t.endedGroups ++ [g.num] }))).closeTeam g.team := by
  unfold State.endGroup
  rw [hf]
  rfl

/-- A group without a pending fault that ends leaves the groups, and of the others nothing else changes here. -/
theorem sameTeams_endGroup (s : State) {g : Group} (hf : g.pathFault.find? (fun c => c ≠ 0) = none) :
    SameTeams (s.withoutGroup g.id) (s.endGroup g) := by
  rw [s.endGroup_eq hf]
  refine SameTeams.trans ?_ (sameTeams_closeTeam _ g.team)
  refine SameTeams.trans ?_ (SameTeams.foldl (fun s k => sameTeams_barrierCheck s g.team k) _ _)
  exact sameTeams_modTeam _ _ fun _ => ⟨rfl, rfl⟩

/-! ### Halts -/

theorem launch?_id {s : State} {n : Nat} {l : Launch} (h : s.launch? n = some l) : l.id = n := by
  simpa [State.launch?] using List.find?_some h

theorem launch?_modLaunch {s : State} {n : Nat} {l : Launch} {f : Launch → Launch} (hf : ∀ x, (f x).id = x.id)
    (hl : s.launch? n = some l) : (s.modLaunch n f).launch? n = some (f l) := by
  have hp : ((fun x : Launch => decide (x.id = n)) ∘ fun x => if x.id = n then f x else x) = fun x => decide (x.id = n) := by
    funext x
    by_cases hx : x.id = n <;> simp [hx, hf]
  rw [State.launch?] at hl
  rw [State.launch?, State.modLaunch, List.find?_map, hp, hl, Option.map_some, if_pos (launch?_id hl)]

theorem State.failLaunch_group? (s : State) (n c k : Nat) (pc : DWord) (m : Nat) :
    (s.failLaunch n c k pc).group? m = s.group? m := rfl

theorem State.failLaunch_mem (s : State) (n c k : Nat) (pc : DWord) : (s.failLaunch n c k pc).mem = s.mem := rfl

/-- A launch without a cause fails with the one it is given (R76). -/
theorem launch?_failLaunch {s : State} {n c k : Nat} {pc : DWord} {l : Launch} (hl : s.launch? n = some l) (hc : l.cause = none) :
    (s.failLaunch n c k pc).launch? n = some { l with cause := some c, faultGroup := k, faultPc := pc, aborted := true } := by
  refine Eq.trans (launch?_modLaunch (fun _ => rfl) hl) ?_
  simp [hc]

/-- A halt of group `gid`, the `num`-th of its team, of launch `n`: the group is gone, its launch has failed with the cause, its
number and the PC, and no byte has changed. -/
structure Halted (s t : State) (gid num n c : Nat) (pc : DWord) : Prop where
  gone : t.group? gid = none
  failed : ∃ l, t.launch? n = some l ∧ l.cause = some c ∧ l.faultGroup = num ∧ l.faultPc = pc ∧ l.aborted = true
  mem : t.mem = s.mem

/-- A group whose producers are cancelled and whose pending faults are dropped. -/
def Group.cancelled (g : Group) : Group := { g with producers := [], pathFault := [0, 0, 0, 0] }

/-- The halt of a group outside a window whose team is found: it ends, and its launch fails (R297). -/
theorem State.haltGroup_eq {s : State} {g : Group} {t : Team} (c : Cause) (pc : DWord) (hw : g.window = none)
    (ht : ((s.setGroup g.cancelled).endGroup g.cancelled).team? g.team = some t) :
    s.haltGroup g c pc =
      ((s.setGroup g.cancelled).endGroup g.cancelled).failLaunch t.launch c.code.toNat g.num pc := by
  have hroll : ({ g.rollback false with producers := [], pathFault := [0, 0, 0, 0] } : Group) = g.cancelled := by
    rw [Group.rollback, hw]
    rfl
  unfold State.haltGroup
  rw [hroll]
  dsimp only
  rw [ht]

/-- A group outside a window that halts ends, and its launch fails with the cause, its number and the PC (R76, R297). -/
theorem halted_haltGroup {s : State} {g : Group} {t : Team} {l : Launch} (c : Cause) (pc : DWord) (hw : g.window = none)
    (ht : s.team? g.team = some t) (hl : s.launch? t.launch = some l) (hc : l.cause = none) :
    Halted s (s.haltGroup g c pc) g.id g.num t.launch c.code.toNat pc := by
  have hsame : SameTeams ((s.setGroup g.cancelled).withoutGroup g.id) ((s.setGroup g.cancelled).endGroup g.cancelled) :=
    sameTeams_endGroup (s.setGroup g.cancelled) (g := g.cancelled) (by rfl)
  obtain ⟨y, hy, hlaunch⟩ := hsame.team? (n := g.team) ht
  rw [State.haltGroup_eq c pc hw hy, hlaunch]
  have hl' : ((s.setGroup g.cancelled).endGroup g.cancelled).launch? t.launch = some l := (hsame.launch? _).trans hl
  refine ⟨?_, ⟨_, launch?_failLaunch hl' hc, rfl, rfl, rfl, rfl⟩, ?_⟩
  · rw [State.failLaunch_group?]
    exact hsame.group?_none (State.withoutGroup_group? _ _)
  · rw [State.failLaunch_mem]
    exact hsame.mem

/-- A trap halts the group with its own cause where there is no handler, and with DOUBLE in trap mode (R295, R296). -/
theorem halted_takeTrap {s : State} {g : Group} {b : Bool} {t : Team} {l : Launch} {tr : Trap} {c : Nat} (hw : g.window = none)
    (ht : s.team? g.team = some t) (hl : s.launch? t.launch = some l) (hc : l.cause = none)
    (hcode : (g.inTrap = false ∧ g.trapBase = 0 ∧ c = tr.cause.code.toNat) ∨ (g.inTrap = true ∧ c = 0x17)) :
    Halted s (s.takeTrap g b tr) g.id g.num t.launch c (g.slot b).pc := by
  unfold State.takeTrap
  obtain ⟨hm, hbase, rfl⟩ | ⟨hm, rfl⟩ := hcode
  · rw [if_neg (by simp [hm]), if_pos hbase]
    exact halted_haltGroup tr.cause _ hw ht hl hc
  · rw [if_pos hm]
    exact halted_haltGroup .double _ hw ht hl hc

/-! ### Instructions that halt their group -/

/-- `trap n` without a handler halts with SOFTWARE, and in trap mode with DOUBLE (R295, R296, R496). -/
theorem halted_trap {s : State} {g : Group} {b : Bool} {t : Team} {l : Launch} {c : Nat} (n : BitVec 16) (h : Issuing s g b)
    (hn : NoTrace g) (ht : s.team? g.team = some t) (hl : s.launch? t.launch = some l) (hc : l.cause = none)
    (hcode : (g.inTrap = false ∧ g.trapBase = 0 ∧ c = 0x11) ∨ (g.inTrap = true ∧ c = 0x17)) :
    ∃ u, exec (.trap n) s = .next u ∧ Halted s u g.id g.num t.launch c (g.slot b).pc := by
  refine ⟨_, issue_slotOp_trap h rfl (by simp [Settled]) (fun _ => hn) rfl (group?_charge s g 1 h.group?), ?_⟩
  have hhalt := halted_takeTrap (s := s.charge g.id 1)
    (g := { g with runCycles := g.runCycles + 1, stuck := false, lastB := b }) (b := b) (tr := slotTrap g b .software 0xFF)
    h.window ht hl hc hcode
  exact ⟨hhalt.gone, hhalt.failed, hhalt.mem⟩

/-- In trap mode an instruction of the slot as a whole that raises a trap before it has changed anything halts with DOUBLE (R296). -/
theorem halted_in_trap_mode {o : Group → Op} {s : State} {g : Group} {b : Bool} {t : Team} {l : Launch} {tr : Trap}
    {srcs : List (RegName × Bool)} {settles : Bool} {body : State → Group → Bool → Mask → Done} (h : Issuing s g b)
    (hm : g.inTrap = true) (ht : s.team? g.team = some t) (hl : s.launch? t.launch = some l) (hc : l.cause = none)
    (ho : o g = slotOp srcs [] true settles body) (hs : Settled g (srcs.map (·.1))) (hn : settles = true → NoTrace g)
    (hb : body s g b (g.slot b).mask = .trap s tr) :
    ∃ u, issue o s = .next u ∧ Halted s u g.id g.num t.launch 0x17 (g.slot b).pc :=
  ⟨_, issue_slotOp_trap h ho hs hn hb h.group?,
    halted_takeTrap (g := { g with lastB := b }) h.window ht hl hc (.inr ⟨hm, rfl⟩)⟩

/-- A jump to several places raises INDIRECT_DIVERGENCE (R361). -/
theorem jumpEffect_divergent {s : State} {g : Group} {b : Bool} {a : RegName} {m : Mask} {j k : Nat} (hj : j ∈ lanesOf g.width m)
    (hk : k ∈ lanesOf g.width m) (hne : g.pair a j ≠ g.pair a k) :
    jumpEffect a s g b m = .trap s (slotTrap g b .indirectDivergence 0xFF) := by
  have hany : (lanesOf g.width m).any (fun l => g.pair a l ≠ g.pair a (lowest g.width m)) = true := by
    by_cases h : g.pair a j = g.pair a (lowest g.width m)
    · exact List.any_eq_true.mpr ⟨k, hk, decide_eq_true fun e => hne (h.trans e.symm)⟩
    · exact List.any_eq_true.mpr ⟨j, hj, decide_eq_true h⟩
  unfold jumpEffect
  exact if_pos hany

/-- The address to which `rft` returns is a multiple of 4 as TRAPPC is (R497). -/
theorem rft_pc_aligned (pc : DWord) (next : Bool) :
    (pc + (if next then 4 else 0)).extractLsb' 0 2 = pc.extractLsb' 0 2 := by
  cases next
  · simp
  · apply BitVec.eq_of_toNat_eq
    simp

/-- What may not stand in trap mode on slot `b` of a group (R296, R298; log entry 30). -/
def ForbiddenInTrapMode (g : Group) (b : Bool) (i : Instr) : Prop :=
  (∃ off, i = .join off) ∨ (∃ n p off, i = .brc false n p off) ∨ (∃ n p off, i = .brn n p off) ∨
    (∃ a ta, (i = .jr a ta ∨ i = .ret a ta) ∧ g.spanOk a 2 2 = true ∧ Settled g [a, a + 1] ∧
      ∃ j ∈ lanesOf g.width (g.slot b).mask, ∃ m ∈ lanesOf g.width (g.slot b).mask, g.pair a j ≠ g.pair a m) ∨
    (∃ next, i = .rft next ∧ NoTrace g ∧ g.trapPc.extractLsb' 0 2 ≠ 0)

/-- Such an instruction halts its group with DOUBLE. -/
theorem halted_forbidden {s : State} {g : Group} {b : Bool} {t : Team} {l : Launch} {i : Instr} (h : Issuing s g b)
    (hm : g.inTrap = true) (ht : s.team? g.team = some t) (hl : s.launch? t.launch = some l) (hc : l.cause = none)
    (hi : ForbiddenInTrapMode g b i) :
    ∃ u, exec i s = .next u ∧ Halted s u g.id g.num t.launch 0x17 (g.slot b).pc := by
  have hnone : Settled g (([] : List (RegName × Bool)).map (·.1)) := by simp [Settled]
  obtain ⟨off, rfl⟩ | ⟨n, p, off, rfl⟩ | ⟨n, p, off, rfl⟩ | ⟨a, ta, hi, hspan, hsrc, j, hj, m, hlane, hne⟩ |
    ⟨next, rfl, hn, hpc⟩ := hi
  · exact halted_in_trap_mode h hm ht hl hc rfl hnone (fun e => nomatch e) (if_pos hm)
  · exact halted_in_trap_mode h hm ht hl hc rfl hnone (fun e => nomatch e) (if_pos (by simp [hm]))
  · exact halted_in_trap_mode h hm ht hl hc rfl hnone (fun e => nomatch e) (if_pos hm)
  · have hspan' : Settled g ((srcSpan a 2 ta).map (·.1)) := by simpa [srcSpan, spanNames, List.range_succ] using hsrc
    obtain rfl | rfl := hi <;>
      exact halted_in_trap_mode (settles := false) h hm ht hl hc (by rw [hspan]) hspan' (fun e => nomatch e)
        (jumpEffect_divergent hj hlane hne)
  · refine halted_in_trap_mode h hm ht hl hc (by rw [hm]; rfl) hnone (fun _ => hn) (if_pos ?_)
    rwa [rft_pc_aligned]

/-- Settles O22: `trap n`, and the instructions that may not stand in trap mode, come to a halt, which ends the group and fails its
launch. -/
theorem haltsAndDoubleTraps : Obligations.HaltsAndDoubleTraps := by
  refine ⟨fun n s g b t l c h hn ht hl hc hcode => ?_, fun s g b t l i h hm ht hl hc hi => ?_⟩
  · obtain ⟨u, hu, hhalt⟩ := halted_trap n h hn ht hl hc hcode
    obtain ⟨l', hl', hcause, hgroup, hpc, hab⟩ := hhalt.failed
    exact ⟨u, l', hu, hhalt.gone, hl', hcause, hgroup, hpc, hab, hhalt.mem⟩
  · obtain ⟨u, hu, hhalt⟩ := halted_forbidden h hm ht hl hc hi
    obtain ⟨l', hl', hcause, -, hpc, -⟩ := hhalt.failed
    exact ⟨u, l', hu, hhalt.gone, hl', hcause, hpc⟩

end Sys2Proof.Machine
end

section
/-!
PROOFS. A counterexample to the claim about queue events (O42). The claim asks of the LAUNCH record at HEAD that no launch have the
number that State.nextId holds before the event. The read of the record may roll back a window that has written its line, and the
eighth rollback numbers an anchor ticket (R266, R277): the new launch then gets the number after, which a launch of the state may
have.
-/

namespace Sys2Proof.Machine

/-- An event that takes the LAUNCH record at HEAD leaves the launches that the read of HEAD leaves. -/
theorem fires_launch_launches {s t : State} {vf q : Nat} (h : Fires (.launch vf q) s t) :
    t.launches = ((s.readHead vf q (· = 1)).getD s).launches := by
  have hnext : (Host.Outcome.next ((s.readHead vf q (· = 1)).getD s).wakeRetry.noteIdle : Host.Outcome State Fault Refusal) =
      .next t.wakeRetry.noteIdle := h
  injection hnext with hstate
  simpa using (congrArg State.launches hstate).symm

/-- A group in a window that has written the line of the record at HEAD, and that has been rolled back seven times. -/
def groupBeforeTicket : Group :=
  let g := Group.start 2 3 0 0 0 Kernel.single
  { g with window := some { Window.fresh g.checkpoint 0x1000 with writes := [{ space := .mem, line := 32 }] }, rollbacks := 7 }

/-- A queue of function 0 with no record in flight and one record to read. -/
def queueAtHead : QueueCtx := { vf := 0, q := 0, tail := 2, records := [], flush := 0 }

/-- Queue 0 of function 0 is ACTIVE with rings at VA 0x1000 and HEAD 1, where a LAUNCH record of SEQ 1 stands; the next number is
4, and a launch of SEQ 0 that is not ready has the number 5. -/
def stateOfNumberClash : State :=
  { State.reset.placeWord 0 with
    mem := Memory.setBytes (tablesFor 0) 0x1040 [1, 0, 0, 0, 1]
    vfq := [(0, 0x1000), (0x18, 0x84400000), (0x1C, 0x20000000), (0x2C, 1)]
    queues := [queueAtHead]
    groups := [groupBeforeTicket]
    launches := [{ Launch.single with id := 5, state := .waiting }] }

theorem headRecord_stateOfNumberClash :
    HeadRecord stateOfNumberClash 0 0 queueAtHead (1 + 1 * 2 ^ 32) [0, 512, 544, 576, 32] where
  here := rfl
  rising := by unfold Rising; decide
  free := by decide
  running := by decide +kernel
  active := by decide +kernel
  more := by decide +kernel
  flushed := rfl
  record := by decide +kernel

theorem goodRecord_stateOfNumberClash : GoodRecord stateOfNumberClash 0 0 (1 + 1 * 2 ^ 32) where
  seq := by decide +kernel
  op := by decide
  fields := by decide +kernel
  slot := by decide +kernel

/-- After the event every launch of the state has SEQ 0: the old launch of number 5 has taken the place of the new one. -/
theorem seq_of_numberClash :
    ((stateOfNumberClash.readHead 0 0 (· = 1)).getD stateOfNumberClash).launches.all (fun l => l.seq = 0) = true := by
  decide +kernel

/-- Refutes O42: the LAUNCH record at HEAD is accepted, and no launch with its SEQ is left, where the read of the record rolls back a
window whose group then takes the number that the claim keeps for the launch. -/
theorem not_queueEventsFire : ¬ Obligations.QueueEventsFire := by
  intro h
  obtain ⟨-, -, hhead, -⟩ := h stateOfNumberClash 0 0
  obtain ⟨-, -, hgood⟩ := hhead _ _ _ headRecord_stateOfNumberClash
  obtain ⟨-, -, -, -, hlaunch⟩ := hgood goodRecord_stateOfNumberClash (fun _ hy => nomatch hy)
  obtain ⟨t, l, hfires, -, hl, -, -, hseq, -⟩ := hlaunch (by decide) (by decide)
  have hold : l.seq = 0 := by
    rw [fires_launch_launches hfires] at hl
    simpa using List.all_eq_true.mp seq_of_numberClash l hl
  exact absurd (hold.symm.trans hseq) (by decide)

end Sys2Proof.Machine
end

section
/-!
PROOFS. A counterexample to the claim about rays and textures (O37). A `trace` puts its group with the new producer into the state,
under the group's number, and then counts the rays in flight on its core, to see whether the ray unit asks for power (R112). The
claim counts them in the state before. The two counts differ where a second group has the number of the first: its rays are counted
before the instruction, and it is written over by then. The claim does not ask that a number name one group.
-/

namespace Sys2Proof.Machine

/-- The power that cores have asked for in the state that an instruction goes on to (R112). -/
def leavesAfter (i : Instr) (s : State) : List Leave :=
  match exec i s with
  | .next t => t.leaves
  | _ => []

/-- An instruction that pends from a state leaves the requests for power of that state. -/
theorem PendsFrom.leavesAfter_eq {i : Instr} {s u : State} {g : Group} {b : Bool} {p : Producer} {n : Nat} {f : Group → Group}
    (h : PendsFrom i s u g b p n f) : leavesAfter i s = u.leaves := by
  obtain ⟨-, -, hexec⟩ := h
  rw [leavesAfter, hexec]
  rfl

/-- A group of 16 lanes, all names general and zero, that has no ray in flight. -/
def groupWithoutRays : Group := Group.start 2 3 0 0 0 Kernel.single

/-- A `trace` with 512 rays in flight. -/
def traceOf512Rays : Producer :=
  { id := 3, kind := .trace, inWindow := false, dests := [], result := [], fills := [], rays := List.replicate 512 (LaneRay.start 0 []) }

/-- The group issues; a second group of its number and core has 512 rays in flight. -/
def stateOfTwins : State :=
  { State.reset.placeWord 0 with groups := [groupWithoutRays, { groupWithoutRays with producers := [traceOf512Rays] }] }

theorem ready_stateOfTwins : Ready stateOfTwins groupWithoutRays false (groupWithoutRays.nextPc false) where
  issues := ⟨rfl, rfl⟩
  lanes := by decide +kernel
  window := rfl
  shaped := by unfold Shaped; decide +kernel
  steady := .inr ⟨by decide +kernel, .inl ⟨rfl, rfl⟩⟩

/-- Every name of the group is full and not poisoned. -/
theorem settled_groupWithoutRays (rs : List RegName) : Settled groupWithoutRays rs := by
  have hall : ∀ r : RegName, (groupWithoutRays.reg r).full = true ∧ (groupWithoutRays.reg r).poison = false := by decide +kernel
  exact fun r _ => hall r

/-- With the rays that the instruction finds, the 512th of the core would be in flight. -/
theorem leaves_takeRays_stateOfTwins : (stateOfTwins.takeRays 0 16).leaves ≠ [] := by decide +kernel

/-- The instruction counts its rays where the second group is gone, and asks for nothing. -/
theorem leavesAfter_trace_stateOfTwins : leavesAfter (.trace 0 8 16 false false) stateOfTwins = [] := by decide +kernel

/-- Refutes O37: a `trace` of 16 rays issues beside a group of the same number whose 512 rays the claim counts, and the power that
the claim then has the ray unit ask for is not asked for. -/
theorem not_raysAndTexturesPend : ¬ Obligations.RaysAndTexturesPend := by
  intro h
  obtain ⟨htrace, -⟩ := h stateOfTwins groupWithoutRays false false false 8 16 0 _ ready_stateOfTwins rfl (by decide +kernel)
  obtain ⟨p, c, -, -, -, -, hpends⟩ := htrace (by decide +kernel) (by decide +kernel) (by decide +kernel) (by decide +kernel)
    (settled_groupWithoutRays _) (by decide +kernel) (by decide +kernel)
  exact leaves_takeRays_stateOfTwins (hpends.leavesAfter_eq.symm.trans leavesAfter_trace_stateOfTwins)

end Sys2Proof.Machine
end
